-- ==== Sys2Proof/Word.lean ====
section
/-! DEFINITION. The plain words of the model: bytes, 32-bit and 64-bit words, sparse maps.
Nothing here carries a rule of the spec; it is the vocabulary every other file uses. -/
namespace Sys2Proof

/-- A byte; bit 0 is the least significant bit (00_scope, Conventions). -/
abbrev Byte := BitVec 8

/-- A 32-bit register or thread-group register. -/
abbrev Word := BitVec 32

/-- A 64-bit register. Physical addresses are 48 bits (R22) but are carried in 64, because R25
gives a response to addresses whose upper bits are not all 0. -/
abbrev DWord := BitVec 64

/-- A sparse array: key and value pairs, keys strictly rising, no value equal to the array's default.
Every register file, table and memory of the module is held this way, so that equal contents are equal data. -/
abbrev Map (α : Type) := List (Nat × α)

/-- A tile die, TD0 to TD3 (R11). -/
abbrev DieId := Fin 4

/-- A logical tile of a die (Table 00-2: 128 per die). -/
abbrev TileId := Fin 128

/-- A processor hart, 8c + k for core k of cluster c (R310). -/
abbrev HartId := Fin 96

/-- A key ID (R385). -/
abbrev KeyId := Fin 64

end Sys2Proof
end

