-- ==== Sys2Proof/Machine/Operands.lean ====
section
/-! DEFINITION. The operand types of the commands: what a row's rule says the operation or event carries. -/
namespace Sys2Proof

/-- Where a descriptor comes from (R132, R138): byte offset in the die's stream and the number of the frame instance, or a work queue
and the entry's count. -/
inductive DescSrc where
  | stream (pos inst : Nat)
  | queue (q : Fin 16) (h : Nat)
  deriving DecidableEq, Repr

/-- A source of Yesia messages (R331). -/
inductive Source where
  | os
  | eh
  | i3c
  | dtls (k : Fin 4)
  deriving DecidableEq, Repr

/-- A Yesia request as received, for the command its row names (Table 15-3). -/
structure Request where
  src : Source
  version : BitVec 8
  tag : BitVec 16
  handle : BitVec 32
  payload : List Byte
  deriving DecidableEq, Repr

/-- Privilege of a hart (R313). -/
inductive Priv where
  | m | s | u
  deriving DecidableEq, Repr

/-- What a core does to a line (R194, R209): fetch, load, store, reserved load, conditional store, atomic, or a prefetch. -/
inductive CoreKind where
  | fetch | load | store | lr | sc | amo | prefetch
  deriving DecidableEq, Repr

/-- Page attribute of a core's access (Svpbmt, Table 08-3). -/
inductive Pbmt where
  | pma | nc | io
  deriving DecidableEq, Repr

/-- The core access behind a request of its cluster's cache: hart, kind, page attribute, byte in the line, size in bytes as a power of two. -/
structure CoreAccess where
  hart : HartId
  kind : CoreKind
  pbmt : Pbmt
  offset : BitVec 7
  size : BitVec 2
  deriving DecidableEq, Repr

/-- A core access with the key bits of its page, as a request takes it to a home. -/
structure KeyedAccess where
  key : KeyId
  core : CoreAccess
  deriving DecidableEq, Repr

/-- A hart and the custom-0 word that it executes (R314). -/
structure HartWord where
  hart : HartId
  word : Word
  deriving DecidableEq, Repr

/-- What becomes of the write-combining buffers (R181): a store is gathered into one, or buffer b drains. -/
inductive WcEvent where
  | store (addr : DWord) (key : KeyId) (bytes : List Byte)
  | drain (b : Fin 8)
  deriving DecidableEq, Repr

/-- Where a prefetch comes from (R220). -/
inductive PrefetchSource where
  | core | tdm | detector
  deriving DecidableEq, Repr

/-- A prefetch: under which key ID, and by whom. -/
structure Prefetch where
  key : KeyId
  source : PrefetchSource
  deriving DecidableEq, Repr

/-- What a demand read of a line brings (R228): the agent it is for, and the errors of its codewords. -/
structure LineReturn where
  agent : BitVec 16
  errors : List (List Byte)
  deriving DecidableEq, Repr

/-- A line address, bits 47:7 of a physical address. -/
abbrev LineAddr := BitVec 41

/-- A caching agent: cluster L2 0 to 11, 12 the L3 (R207). -/
abbrev CacheId := Fin 13

/-- A request of a non-caching agent: agent code (Table 08-8), which fixes its requester class (Table 09-8), and the streaming flag (R219). -/
structure Requester where
  agent : BitVec 16
  stream : Bool
  deriving DecidableEq, Repr

/-- Who a home message goes to: a caching agent, or a non-caching requester. -/
inductive Party where
  | cache (a : CacheId)
  | other (r : Requester)
  deriving DecidableEq, Repr

/-- An atomic operation at a home, in the numbering of cls 0x0B of Table 05-3: byte offset in the line, operand, compare
value. wide marks the 64-bit forms. -/
structure AtomOp where
  op : BitVec 4
  wide : Bool
  offset : BitVec 7
  operand : DWord
  compare : DWord
  deriving DecidableEq, Repr

/-- A memory controller: 0 to 11 stacks S0 to S11, 12 to 27 packages C0 to C15. -/
abbrev CtrlId := Fin 28

/-- What a soft row repair's reads bring (R235): its controller, and the errors of each line of the row. -/
structure RepairReturn where
  ctrl : CtrlId
  errors : List (List (List Byte))
  deriving DecidableEq, Repr

/-- One end of a bundle: 3d + b for bundle b of TDd (0 HB, 1 NB0, 2 NB1), 12 + p for the HD end at HPp. -/
abbrev LinkEnd := Fin 16

/-- A fabric port F0 to F23 (R12). -/
abbrev PortId := Fin 24

/-- A collective engine of a die. -/
abbrev CeId := Fin 4

/-- A fabric packet (Table 12-3). -/
structure Packet where
  dst : BitVec 16
  src : BitVec 16
  op : BitVec 8
  ctl : BitVec 8
  len : BitVec 16
  addr : DWord
  tag : BitVec 16
  key : BitVec 8
  sdie : BitVec 8
  arg : List Byte
  data : List Byte
  deriving DecidableEq, Repr

/-- The fields of a Beacon message (Table 12-7) and the rank that sent it. -/
structure BeaconMsg where
  rank : Nat
  jobId : BitVec 128
  seq : Word
  start : DWord
  tclk : BitVec 8
  adr : BitVec 16
  armed : Word
  status : BitVec 16
  deriving DecidableEq, Repr

/-- A capability word (Table 11-8). -/
structure CapWord where
  stepping : BitVec 8
  adr : BitVec 16
  features : Word
  proto : BitVec 16
  deriving DecidableEq, Repr

/-- What the lane sweep or a lane check finds on a link module: bad physical lanes of the transmit and receive halves and
the state of the forwarded clocks. -/
structure LaneResult where
  badTx : BitVec 68 := 0
  badRx : BitVec 68 := 0
  clockOk : Bool := true
  deriving DecidableEq, Repr

/-- What self-test finds on one physical tile (R105, R106). -/
structure TileTest where
  memOk : Bool := true
  quads : BitVec 4 := 0xF
  vxe : BitVec 2 := 3
  lanes32 : Bool := true
  lanes16 : Bool := true
  generatorOk : Bool := true
  deriving DecidableEq, Repr

/-- What a start meets on one tile die: straps, the fuse code that Helverin has burned since the last start (R14; none: nothing burned), the
copies of the position exchange that arrive changed (R16), by link module: strap codes (heardE, heardS) and fuse codes (heardfE, heardfS) on sites
XE and XS of the die, and what the HD hears of them on the host port (heardH, heardfH); a module that is not listed delivers what the neighbour
sends. Capability word (none when the die is not heard, R262), tile tests by physical number (absent: passes), DSQ and CE test (step 5). -/
structure DieReport where
  strap : BitVec 3
  fuse : Option (BitVec 3)
  heardE : Map (BitVec 3)
  heardS : Map (BitVec 3)
  heardfE : Map (BitVec 3)
  heardfS : Map (BitVec 3)
  heardH : Map (BitVec 3)
  heardfH : Map (BitVec 3)
  cap : Option CapWord
  tiles : Map TileTest
  sramOk : Bool
  dsqOk : Bool
  deriving DecidableEq, Repr

/-- An operating-system stage offered to the Lantern: its bytes, the certificate it is signed under (empty: unsigned) and
the signature (R380). -/
structure OsStage where
  bytes : List Byte
  certificate : List Byte
  signature : List Byte
  deriving DecidableEq, Repr

/-- Everything outside the model's state that a start sequence meets (Tables 18-2 and 18-3): inputs, not choices. fabricRoot is the
discovery root's node ID that the management network hands to the module (R274), 0 for none. -/
structure StartReport where
  slotId : BitVec 6
  brakeHeld : Bool
  recovery : Option (List Byte)
  hdSramOk : Bool
  td0 : DieReport
  td1 : DieReport
  td2 : DieReport
  td3 : DieReport
  hdCap : CapWord
  lanes : Map LaneResult
  silent : List CtrlId
  badChannels : Map (BitVec 32)
  exitFail : Option (Fin 7)
  fabricRoot : BitVec 16
  os : Option OsStage
  deriving DecidableEq, Repr

/-- What a thermal sample reports of the stacks (THERM_STATUS): the hottest one and its temperature in °C. -/
structure StackReading where
  stack : Fin 12
  temp : BitVec 8
  deriving DecidableEq, Repr

/-- A die's temperature, and the hottest stack's. -/
structure Heat where
  temp : BitVec 8
  hot : StackReading
  deriving DecidableEq, Repr

/-- A regulator reading (R357): mV, 100 mA units, W, °C, phases. -/
structure RailReading where
  mv : BitVec 16
  current : BitVec 16
  watts : BitVec 16
  temp : BitVec 8
  phases : BitVec 8
  deriving DecidableEq, Repr

/-- Who writes a register and where (R24): a core or the Lantern at a physical address; a core in M mode one of its CSRs, addr being the CSR number;
the external host at an offset of BAR0 or BAR4, one of its base address registers (addr 0, 2 or 4), the message control word of MSI-X. -/
inductive RegAgent where
  | core (h : HartId)
  | csr (h : HartId)
  | lantern
  | host
  | hostBar4
  | hostBarReg
  | hostMsix
  deriving DecidableEq, Repr

/-- A read of n bytes or a write of bytes. -/
inductive Access where
  | read (n : Nat)
  | write (data : List Byte)
  deriving DecidableEq, Repr

/-- What stopped waiting in a refused power entry (R200): a tile, or the module under a request. -/
inductive EntryTarget where
  | tile (d : DieId) (t : TileId)
  | module (r : Request)
  deriving DecidableEq, Repr

/-- Wake triggers of R376. -/
inductive WakeTrigger where
  | home | doorbell | request
  deriving DecidableEq, Repr

/-- A JTAG operation on the chain HD, TD0 to TD3 (R427). shiftIr gives the five instruction registers as they stand after it, HD lowest; the
bits on TDI of shiftDr come with the row. -/
inductive JtagOp where
  | shiftIr (ir : BitVec 40)
  | shiftDr
  | trst
  deriving DecidableEq, Repr

/-- SETDASA: the static address it names, and the dynamic one to take. -/
structure DasaAddr where
  stat : BitVec 7
  addr : BitVec 7
  deriving DecidableEq, Repr

end Sys2Proof
end

