-- ==== Sys2Proof/Syntax.lean ====
section
/-! DEFINITION. The commands of the module: one constructor per row of spec/opcode_table.json, with the operands that the
row's rule gives the operation or event. A command is one whole, indivisible step (95_what_each_step_holds). -/
namespace Sys2Proof

/-- The rows of spec/opcode_table.json, in table order. -/
inductive Instr where
  -- start and pins
  | powerOn (r : StartReport)
  | coreRailPowerGood (d : DieId) (pos : BitVec 3)
  | capabilityExchangeTimeout (d : DieId)
  | selfTestStepTimeout (n : Fin 10)
  | firmwareRecoveryTimeout (svnOnly : Bool)
  | resetNAssert
  | resetNRelease (r : StartReport)
  | inputUnderVoltage
  | underVoltageEnd
  | inputPowerFail (excess : Bool)
  | thermalTrip
  | slotIdChange (id : BitVec 6)
  | refclkLoss
  | pe0LinkReady
  | tileStoreRestore (d : DieId) (t : TileId)
  | tsScrub (d : DieId) (t : TileId) (single double : BitVec 16)
  | tileFailure (d : DieId) (t : TileId)
  -- die sequencer
  | slotAdvance (d : DieId)
  | stretchResume (d : DieId)
  | nop (d : DieId) (src : DescSrc) (raw : List Byte)
  | frame (d : DieId) (src : DescSrc) (raw : List Byte)
  | tensor (d : DieId) (src : DescSrc) (raw : List Byte)
  | matmul (d : DieId) (src : DescSrc) (raw : List Byte)
  | mxeKStep (d : DieId) (t : TileId)
  | vloop (d : DieId) (src : DescSrc) (raw : List Byte)
  | move (d : DieId) (src : DescSrc) (raw : List Byte)
  | tdmRingSlotFill (d : DieId) (t : TileId) (chan : Fin 4)
  | coll (d : DieId) (src : DescSrc) (raw : List Byte)
  | semWait (d : DieId) (src : DescSrc) (raw : List Byte)
  | semWaitSatisfied (d : DieId) (src : DescSrc)
  | semWaitTimeout (d : DieId) (src : DescSrc)
  | semSignal (d : DieId) (src : DescSrc) (raw : List Byte)
  | semaphoreUpdate (d : DieId) (sem : Fin 4096) (set : Bool) (v : Word)
  | flare (d : DieId) (src : DescSrc) (raw : List Byte)
  | flarePhaseSet (d : DieId)
  | island (d : DieId) (src : DescSrc) (raw : List Byte)
  | islandWindowEnd (d : DieId)
  | endStream (d : DieId) (src : DescSrc) (raw : List Byte)
  | descriptorComplete (d : DieId) (src : DescSrc)
  -- group engine
  | kernelLaunch (d : DieId) (t : TileId)
  | groupStart (d : DieId) (t : TileId)
  | gxeInteger (d : DieId) (t : TileId) (s : Fin 24)
  | gxeFp32 (d : DieId) (t : TileId) (s : Fin 24)
  | gxeFp64 (d : DieId) (t : TileId) (s : Fin 24)
  | gxePacked16 (d : DieId) (t : TileId) (s : Fin 24)
  | cvt (d : DieId) (t : TileId) (s : Fin 24)
  | gxeCompare (d : DieId) (t : TileId) (s : Fin 24)
  | mov (d : DieId) (t : TileId) (s : Fin 24)
  | rdsp (d : DieId) (t : TileId) (s : Fin 24)
  | setplen (d : DieId) (t : TileId) (s : Fin 24)
  | shfl (d : DieId) (t : TileId) (s : Fin 24)
  | gxeLoad (d : DieId) (t : TileId) (s : Fin 24)
  | gxeStore (d : DieId) (t : TileId) (s : Fin 24)
  | gxeAtomic (d : DieId) (t : TileId) (s : Fin 24)
  | plateOp (d : DieId) (t : TileId) (s : Fin 24)
  | plateLookup (d : DieId) (t : TileId) (s : Fin 24)
  | plateLoad (d : DieId) (t : TileId) (s : Fin 24)
  | plateStore (d : DieId) (t : TileId) (s : Fin 24)
  | bra (d : DieId) (t : TileId) (s : Fin 24)
  | brd (d : DieId) (t : TileId) (s : Fin 24)
  | join (d : DieId) (t : TileId) (s : Fin 24)
  | call (d : DieId) (t : TileId) (s : Fin 24)
  | ret (d : DieId) (t : TileId) (s : Fin 24)
  | jmpi (d : DieId) (t : TileId) (s : Fin 24)
  | exit (d : DieId) (t : TileId) (s : Fin 24)
  | gxeNop (d : DieId) (t : TileId) (s : Fin 24)
  | gsync (d : DieId) (t : TileId) (s : Fin 24)
  | gsyncWatchdog (d : DieId) (t : TileId) (s : Fin 24)
  | barT (d : DieId) (t : TileId) (s : Fin 24)
  | barD (d : DieId) (t : TileId) (s : Fin 24)
  | barS (d : DieId) (t : TileId) (s : Fin 24)
  | l1inv (d : DieId) (t : TileId) (s : Fin 24)
  | rand32 (d : DieId) (t : TileId) (s : Fin 24)
  | rand128 (d : DieId) (t : TileId) (s : Fin 24)
  | gxeReplay (d : DieId) (t : TileId) (s : Fin 32)
  | gxeSave (d : DieId) (t : TileId) (s : Fin 32)
  | gxeDiscard (d : DieId) (t : TileId) (s : Fin 32)
  | gxeRestore (d : DieId) (t : TileId)
  -- work queues
  | wqEnable (d : DieId) (q : Fin 16) (cfg : Word)
  | wqDoorbell (d : DieId) (q : Fin 16) (tail : Word) (bar4 : Bool)
  | wqEntryReread (d : DieId) (q : Fin 16)
  | wqEntryIssue (d : DieId) (q : Fin 16)
  | wqCtrlResume (d : DieId) (q : Fin 16)
  | wqCtrlReset (d : DieId) (q : Fin 16)
  -- ordering
  | wcBufferDrain (h : HartId) (e : WcEvent)
  | jlSyncC (x : HartWord)
  | jlSyncS (x : HartWord)
  | jlInvalT (x : HartWord) (priv : Priv) (selector : DWord)
  | cboClean (h : HartId) (addr : DWord)
  | cboFlush (h : HartId) (addr : DWord)
  | cboInval (h : HartId) (addr : DWord)
  | cboZero (h : HartId) (addr : DWord) (key : KeyId)
  | storeAbandon (agent : BitVec 16) (addr : DWord)
  | deviceLoadTimeout (agent : BitVec 16) (addr : DWord)
  | drainCutoff (die : Fin 5)
  | tileDieReset (d : DieId) (cap : Option CapWord)
  | powerEntryRefused (e : EntryTarget)
  | winSync
  -- coherence
  | rdS (a : CacheId) (line : LineAddr) (x : KeyedAccess)
  | rdU (a : CacheId) (line : LineAddr) (x : KeyedAccess)
  | upg (a : CacheId) (line : LineAddr) (x : KeyedAccess)
  | wb (a : CacheId) (line : LineAddr) (key : KeyId) (data : List Byte)
  | evc (a : CacheId) (line : LineAddr) (key : KeyId)
  | rdSn (r : Requester) (line : LineAddr) (key : KeyId)
  | wrFull (r : Requester) (line : LineAddr) (key : KeyId) (data : List Byte)
  | wrPart (r : Requester) (line : LineAddr) (key : KeyId) (mask : BitVec 128) (data : List Byte)
  | atom (r : Requester) (line : LineAddr) (key : KeyId) (op : AtomOp)
  | snpRd (a : CacheId) (line : LineAddr)
  | snpS (a : CacheId) (line : LineAddr)
  | snpU (a : CacheId) (line : LineAddr)
  | snpInv (a : CacheId) (line : LineAddr)
  | holdExpiry (a : CacheId) (line : LineAddr)
  | data (p : Party) (line : LineAddr)
  | ack (a : CacheId) (line : LineAddr)
  | ackD (a : CacheId) (line : LineAddr) (data : List Byte)
  | ndwb (a : CacheId) (line : LineAddr)
  | comp (p : Party) (line : LineAddr)
  | wbAck (a : CacheId) (line : LineAddr)
  | wbConsumed (a : CacheId) (line : LineAddr)
  | dcPrefetch (line : LineAddr) (p : Prefetch)
  | dcSaturationPersist (d : DieId) (h : Fin 32)
  | dcFlush (d : DieId)
  -- memory tiers
  | lineReadReturn (c : CtrlId) (line : LineAddr) (r : LineReturn)
  | channelParityFailure (c : CtrlId) (ch : Fin 32) (retrainings : Nat) (recovered : Bool)
  | rakeRead (c : CtrlId) (errors : List (List Byte))
  | rakeWaitExpiry (c : CtrlId) (errors : List (List Byte))
  | rowSoftRepairComplete (r : RepairReturn)
  | channelSaturationPersist (c : CtrlId) (ch : Fin 32)
  -- die links
  | d2dFlitReceive (e : LinkEnd) (m : Fin 12) (flit : List Byte)
  | linkControlFlit (e : LinkEnd) (flit : List Byte)
  | linkControlDue (e : LinkEnd)
  | spareMonitorError (e : LinkEnd) (m : Fin 12)
  | laneCheckEnd (e : LinkEnd) (m : Fin 12) (r : LaneResult)
  | moduleRetrainComplete (e : LinkEnd) (m : Fin 12)
  | forwardedClockFailure (e : LinkEnd) (m : Fin 12)
  | handoverComplete (e : LinkEnd) (delivered : BitVec 12)
  -- fabric
  | fabricFlitReceive (p : PortId) (flit : List Byte)
  | portTraining (p : PortId) (lanes : BitVec 8) (plane : Fin 4) (j6 : Bool) (partner : BitVec 16)
  | portTrainingFailure (p : PortId)
  | remoteRead (d : DieId) (k : Packet)
  | readData (d : DieId) (k : Packet)
  | remoteWrite (d : DieId) (k : Packet)
  | writeAcknowledgement (d : DieId) (k : Packet)
  | semaphoreSignal (d : DieId) (k : Packet)
  | signalAcknowledgement (d : DieId) (k : Packet)
  | collectiveData (d : DieId) (e : CeId) (k : Packet)
  | collectiveCredit (d : DieId) (e : CeId) (k : Packet)
  | collectiveProbe (d : DieId) (e : CeId) (k : Packet)
  | collectiveProbeReply (d : DieId) (e : CeId) (k : Packet)
  | collectiveAbort (d : DieId) (e : CeId) (k : Packet)
  | negativeResponse (d : DieId) (k : Packet)
  | beaconArm (m : BeaconMsg)
  | beaconAck (m : BeaconMsg)
  | light (m : BeaconMsg)
  | snuff (m : BeaconMsg)
  | beaconDeadline
  | beaconStartTime
  | probe (p : PortId) (k : Packet)
  | probeReply (p : PortId) (k : Packet)
  | config (p : PortId) (k : Packet)
  | managementMessage (k : Packet)
  | topologyWalk (plan : Map (BitVec 16))
  | timeFlit (p : PortId) (sent heard : DWord)
  | timeFlitSend (p : PortId)
  | upstreamPortDown
  | holdoverExpiry
  | cePeerWaitTimeout (d : DieId) (e : CeId) (rank : Word)
  | probeReplyTimeout (d : DieId) (e : CeId) (rank : Word)
  | collectiveStepComplete (d : DieId) (e : CeId)
  | ceSaturationPersist (d : DieId) (e : CeId) (level : Fin 4)
  -- host die
  | pe1MsiWrite (requester : BitVec 12) (addr : DWord) (value : Word)
  | bar2Access (offset : BitVec 29) (a : Access)
  | winBaseWrite (v : DWord)
  | registerViewAccess (offset : BitVec 24) (a : Access) (os : Option OsStage)
  | pe1InboundDma (requester : BitVec 12) (addr : DWord) (a : Access)
  | perst0N
  | perst1N
  | hostHbBeat
  | heartbeatPeriodExpiry (os : Option OsStage)
  | hostHbRestart (os : Option OsStage)
  -- Lantern mailboxes
  | mbxReqDb (eh : Bool) (v : Word)
  | mgRequest (src : Source) (raw : List Byte)
  | dtlsAssociationClose (k : Fin 4)
  | mbxRspAck (eh : Bool)
  | mbxEvtTail (eh : Bool) (w : Word)
  | mailboxThrottleEnd (m : Fin 3)
  -- Yesia commands
  | devQuery (r : Request)
  | devIdentify (r : Request)
  | devHalt (r : Request)
  | devHaltQuiesced
  | jobCreate (r : Request)
  | jobLoad (r : Request)
  | jobArm (r : Request)
  | jobSuspend (r : Request)
  | jobSuspendQuiesce
  | jobResume (r : Request)
  | jobAbort (r : Request)
  | jobEnd (r : Request)
  | jobStatus (r : Request)
  | memMap (r : Request)
  | memKeepDeclare (r : Request)
  | memKeepReadRecord (r : Request)
  | memKeepRelease (r : Request)
  | memKeepDropRegion (r : Request)
  | memRepairQuery (r : Request)
  | rowSoft (r : Request)
  | rowHard (r : Request)
  | channelFence (r : Request)
  | channelRetire (r : Request)
  | channelKeep (r : Request)
  | auto (r : Request)
  | memScrubRead (r : Request)
  | memScrubSetPeriod (r : Request)
  | memScrubPass (r : Request) (errors : Map (List (List Byte)))
  | pwrCap (r : Request)
  | pwrState (r : Request) (report : StartReport)
  | pwrFreq (r : Request)
  | secAttest (r : Request)
  | secKeyQuery (r : Request)
  | allocKeep (r : Request)
  | grant (r : Request)
  | revoke (r : Request)
  | rotate (r : Request)
  | destroy (r : Request)
  | secLifecycle (r : Request) (report : StartReport)
  | lifecycleChallengeExpiry (src : Source)
  | secDebug (r : Request) (os : Option OsStage)
  | debugSessionExpiry
  -- SPDM
  | getVersion (msg : List Byte)
  | getCapabilities (msg : List Byte)
  | negotiateAlgorithms (msg : List Byte)
  | getDigests (msg : List Byte)
  | getCertificate (msg : List Byte)
  | challenge (msg : List Byte)
  | getMeasurements (msg : List Byte)
  -- service
  | svcStage (r : Request)
  | svcActivate (r : Request) (served : Bool)
  | activationHandoverTimeout
  | flashWriteComplete (ok : Bool)
  | svcSelftest (r : Request) (tiles : Map TileTest) (lanes : Map LaneResult) (lines : Map (List (List Byte)))
  | svcLog (r : Request)
  | logFlashCopy
  -- power
  | droopDetect (d : DieId)
  | droopRecovery (d : DieId)
  | pmbusPoll (rails : List RailReading)
  | inputSample (volts amps watts avg : BitVec 16)
  | capExcursionLimit
  | pwrbrakeAssert
  | pwrbrakeDeassert
  | brakeReleaseStep
  | toggleHoldExpiry
  | brakeHeldTimeout
  | throttleDeepen (u : Fin 5) (h : Heat)
  | throttleRelax (u : Fin 5) (h : Heat)
  | thermalDeepRatio (d : DieId)
  | pwrCpu (v : Word)
  | frequencySwitch (d : DieId)
  | tGateEntry (d : DieId) (t : TileId)
  | tileIdle (d : DieId) (t : TileId)
  | tileWake (d : DieId) (t : TileId)
  | tileQueueIdle (d : DieId) (t : TileId) (idleNs : Nat)
  | toffIdleExpiry (d : DieId) (t : TileId)
  | moduleAutoIdle
  | moduleWake (w : WakeTrigger)
  | setdasa (a : DasaAddr)
  | entdaa (addr : BitVec 7)
  -- read-to-clear registers
  | wqEarlyCnt (d : DieId) (q : Fin 16)
  | dcHit (d : DieId) (c : Fin 4) (miss : Bool)
  | dcPfCnt (d : DieId)
  | mcEccCnt (c : CtrlId)
  | d2dBcnt (e : LinkEnd)
  | fabPcnt (p : PortId)
  | ceCnt (d : DieId) (e : CeId)
  | mbxEvtLost (eh : Bool)
  | mbxMalformed (eh : Bool)
  | registerWrite (who : RegAgent) (addr : DWord) (value : DWord) (os : Option OsStage)
  | fabricPortLinkLoss (p : PortId)
  | jtagTapAccess (op : JtagOp) (tdi : List Bool)
  deriving DecidableEq, Repr

end Sys2Proof
end

