-- ==== Sys2Proof/Decode.lean ====
section
/-! DEFINITION. The decoder of table words. spec/opcode_table.json gives no row any bits: a command is an event of the module with
operands, not a word, so no word spells one by the table. The one instruction encoding that the spec gives, of the harts' custom-0 words (Table 14-2,
R314), stands beside it. -/
namespace Sys2Proof

/-- The command that a word spells by the table's bits: none, as no row of the table has bits. -/
def decodeTableWord (_nbits _w : Nat) : Option Instr := none

/-- The custom instruction that a 32-bit word spells (Table 14-2, R314): 0 JL.SYNC.C, 1 JL.SYNC.S, 2 JL.INVAL.T; none for an illegal one: another
funct7, a nonzero funct3, rd or rs2, a nonzero rs1 of the two sync instructions. -/
def customOp (enc : Nat) : Option Nat :=
  let rs1 := enc / 2 ^ 15 % 32
  if enc % 2 ^ 15 = 0x0B ∧ enc / 2 ^ 20 % 32 = 0 then
    match enc / 2 ^ 25 with
    | 0 => if rs1 = 0 then some 0 else none
    | 1 => if rs1 = 0 then some 1 else none
    | 2 => some 2
    | _ => none
  else none

/-- The word of a custom instruction, rs1 for JL.INVAL.T. -/
def encodeCustom (op rs1 : Nat) : Nat := 0x0B + 2 ^ 25 * op + (if op = 2 then 2 ^ 15 * (rs1 % 32) else 0)

/-- The command of a hart that executes a custom-0 word: its row, which checks the word; an illegal word goes to the first row, whose meaning takes the
trap. Words under another opcode spell no command. -/
def decodeCustom (h : HartId) (priv : Priv) (rs1 : DWord) (enc : Word) : Option Instr :=
  if enc.toNat % 128 = 0x0B then
    match customOp enc.toNat with
    | some 1 => some (.jlSyncS ⟨h, enc⟩)
    | some 2 => some (.jlInvalT ⟨h, enc⟩ priv rs1)
    | _ => some (.jlSyncC ⟨h, enc⟩)
  else none

end Sys2Proof
end

