-- ==== Sys2Proof/Machine/Base.lean ====
section
/-! DEFINITION. Helpers shared by every part of the machine: sparse maps, bit slices, byte order, CRC-32C (R252)
and SHA-384 (FIPS 180-4, which R154, R155 and R379 name). -/
namespace Sys2Proof

/-! ## Sparse maps -/

/-- The value at a key; `d` is the array's default. -/
def Map.get {α : Type} (d : α) (m : Map α) (k : Nat) : α :=
  match m with
  | [] => d
  | (j, v) :: r => if j = k then v else Map.get d r k

/-- Insert in key order without regard to the default. -/
def Map.ins {α : Type} (m : Map α) (k : Nat) (v : α) : Map α :=
  match m with
  | [] => [(k, v)]
  | (j, w) :: r => if k < j then (k, v) :: (j, w) :: r else if k = j then (k, v) :: r else (j, w) :: Map.ins r k v

/-- Remove a key. -/
def Map.del {α : Type} (m : Map α) (k : Nat) : Map α :=
  match m with
  | [] => []
  | (j, w) :: r => if k = j then Map.del r k else (j, w) :: Map.del r k

/-- Write a key and keep the canonical form: writing the default removes the entry. -/
def Map.put {α : Type} [DecidableEq α] (d : α) (m : Map α) (k : Nat) (v : α) : Map α :=
  if v = d then Map.del m k else Map.ins m k v

/-- Change the value at a key. -/
def Map.modify {α : Type} [DecidableEq α] (d : α) (m : Map α) (k : Nat) (f : α → α) : Map α :=
  Map.put d m k (f (Map.get d m k))

/-- The keys present, in order. -/
def Map.keys {α : Type} (m : Map α) : List Nat := m.map (·.1)

/-- Keys strictly rising. -/
def Map.sorted {α : Type} : Map α → Bool
  | [] => true
  | [_] => true
  | (j, _) :: (k, v) :: r => decide (j < k) && Map.sorted ((k, v) :: r)

/-- The canonical form: keys strictly rising and no entry equal to the default. -/
def Map.wf {α : Type} [DecidableEq α] (d : α) (m : Map α) : Bool :=
  Map.sorted m && m.all (fun e => decide (e.2 ≠ d))

/-! ## Bits and bytes -/

/-- The slice x[hi:lo] of a number (00_scope, Conventions). -/
def slice (x hi lo : Nat) : Nat := (x >>> lo) % 2 ^ (hi + 1 - lo)

/-- Bit i of a number. -/
def bit (x i : Nat) : Bool := x.testBit i

/-- The number a bit stands for. -/
def b2n (b : Bool) : Nat := if b then 1 else 0

/-- A w-bit two's-complement number as an integer. -/
def signed (w x : Nat) : Int :=
  let y := x % 2 ^ w
  if y < 2 ^ (w - 1) then (y : Int) else (y : Int) - (2 ^ w : Nat)

/-- The w-bit two's-complement code of an integer. -/
def unsigned (w : Nat) (i : Int) : Nat := (i % ((2 ^ w : Nat) : Int)).toNat

/-- Little-endian bytes to a number (00_scope, Conventions). -/
def leNat : List Byte → Nat
  | [] => 0
  | b :: r => b.toNat + 256 * leNat r

/-- A number as k little-endian bytes. -/
def leBytes : Nat → Nat → List Byte
  | 0, _ => []
  | k + 1, x => BitVec.ofNat 8 x :: leBytes k (x / 256)

/-- Big-endian bytes to a number (digests). -/
def beNat (l : List Byte) : Nat := l.foldl (fun a b => a * 256 + b.toNat) 0

/-- A number as k big-endian bytes. -/
def beBytes (k x : Nat) : List Byte := (leBytes k x).reverse

/-- k bytes from offset o; bytes past the end read 0 (R10). -/
def bytesAt (l : List Byte) (o k : Nat) : List Byte :=
  let t := (l.drop o).take k
  t ++ List.replicate (k - t.length) 0

/-- The little-endian field of k bytes at offset o. -/
def fieldAt (l : List Byte) (o k : Nat) : Nat := leNat (bytesAt l o k)

/-- k zero bytes. -/
def zeros (k : Nat) : List Byte := List.replicate k 0

/-- Change list element i, if it exists. -/
def setAt {α : Type} (l : List α) (i : Nat) (v : α) : List α := l.set i v

/-- Replace bytes from offset o on; bytes that would fall past the end are dropped. -/
def patch : List Byte → Nat → List Byte → List Byte
  | [], _, _ => []
  | l, _, [] => l
  | _ :: r, 0, x :: xs => x :: patch r 0 xs
  | b :: r, o + 1, xs => b :: patch r o xs

/-- Saturating addition into a w-bit counter. -/
def satAdd (w a b : Nat) : Nat := min (a + b) (2 ^ w - 1)

/-- ⌈log2 n⌉ with ⌈log2 1⌉ = 0 (R73). -/
def clog2 (n : Nat) : Nat := if n ≤ 1 then 0 else Nat.log2 (n - 1) + 1

/-- ⌈a / b⌉. -/
def cdiv (a b : Nat) : Nat := (a + b - 1) / b

/-- The numbers below n, as a list. -/
def upto (n : Nat) : List Nat := List.range n

/-- The set bits below n of a mask, ascending. -/
def maskBits (n x : Nat) : List Nat := (List.range n).filter (fun i => x.testBit i)

/-- How many bits below n are set. -/
def popcount (n x : Nat) : Nat := (maskBits n x).length

/-! ## CRC-32C (R252): polynomial 0x1EDC6F41, initial value all ones, final inversion.
PRESUMED: bits enter least significant first, as CRC-32C is used everywhere; the spec names the polynomial only. -/

/-- One bit step of the reflected CRC. -/
def crcStep (c : Nat) : Nat := if c % 2 = 1 then (c / 2) ^^^ 0x82F63B78 else c / 2

/-- One byte of the CRC. -/
def crcByte (c : Nat) (b : Byte) : Nat :=
  let c := c ^^^ b.toNat
  crcStep (crcStep (crcStep (crcStep (crcStep (crcStep (crcStep (crcStep c)))))))

/-- CRC-32C over a byte list. -/
def crc32c (l : List Byte) : Nat := (l.foldl crcByte 0xFFFFFFFF) ^^^ 0xFFFFFFFF

/-! ## SHA-384 (FIPS 180-4; PRESUMED, the standard the spec names) -/

/-- The largest r with r * r * r ≤ n, by bisection over k bits. -/
def icbrtGo : Nat → Nat → Nat → Nat
  | 0, r, _ => r
  | k + 1, r, n =>
    let t := r + 2 ^ k
    if t * t * t ≤ n then icbrtGo k t n else icbrtGo k r n

/-- The largest r with r * r ≤ n, by bisection over k bits. -/
def isqrtGo : Nat → Nat → Nat → Nat
  | 0, r, _ => r
  | k + 1, r, n =>
    let t := r + 2 ^ k
    if t * t ≤ n then isqrtGo k t n else isqrtGo k r n

/-- The first eighty primes. -/
def shaPrimes : List Nat :=
  [2, 3, 5, 7, 11, 13, 17, 19, 23, 29, 31, 37, 41, 43, 47, 53, 59, 61, 67, 71, 73, 79, 83, 89, 97, 101, 103, 107, 109, 113,
   127, 131, 137, 139, 149, 151, 157, 163, 167, 173, 179, 181, 191, 193, 197, 199, 211, 223, 227, 229, 233, 239, 241, 251,
   257, 263, 269, 271, 277, 281, 283, 293, 307, 311, 313, 317, 331, 337, 347, 349, 353, 359, 367, 373, 379, 383, 389, 397,
   401, 409]

/-- Round constants: 64 fraction bits of the cube roots of the first eighty primes. -/
def shaK : List Nat := shaPrimes.map (fun p => icbrtGo 68 0 (p * 2 ^ 192) % 2 ^ 64)

/-- Initial hash of SHA-384: 64 fraction bits of the square roots of the ninth to sixteenth primes. -/
def shaInit : List Nat := ((shaPrimes.drop 8).take 8).map (fun p => isqrtGo 68 0 (p * 2 ^ 128) % 2 ^ 64)

/-- Right rotation of a 64-bit word. -/
def rotr64 (x k : Nat) : Nat := (x >>> k) ||| ((x <<< (64 - k)) % 2 ^ 64)

/-- Message schedule: extend a reversed list of words by n more. -/
def shaExpand : Nat → List Nat → List Nat
  | 0, w => w
  | n + 1, w =>
    let a := w.getD 1 0
    let b := w.getD 14 0
    let s1 := rotr64 a 19 ^^^ rotr64 a 61 ^^^ (a >>> 6)
    let s0 := rotr64 b 1 ^^^ rotr64 b 8 ^^^ (b >>> 7)
    shaExpand n ((s1 + w.getD 6 0 + s0 + w.getD 15 0) % 2 ^ 64 :: w)

/-- One round. -/
def shaRound (h : List Nat) (kw : Nat × Nat) : List Nat :=
  let a := h.getD 0 0
  let b := h.getD 1 0
  let c := h.getD 2 0
  let d := h.getD 3 0
  let e := h.getD 4 0
  let f := h.getD 5 0
  let g := h.getD 6 0
  let hh := h.getD 7 0
  let s1 := rotr64 e 14 ^^^ rotr64 e 18 ^^^ rotr64 e 41
  let ch := (e &&& f) ^^^ ((2 ^ 64 - 1 - e) &&& g)
  let t1 := hh + s1 + ch + kw.1 + kw.2
  let s0 := rotr64 a 28 ^^^ rotr64 a 34 ^^^ rotr64 a 39
  let maj := (a &&& b) ^^^ (a &&& c) ^^^ (b &&& c)
  [(t1 + s0 + maj) % 2 ^ 64, a, b, c, (d + t1) % 2 ^ 64, e, f, g]

/-- Big-endian 64-bit words of a block. -/
def shaWords : Nat → List Byte → List Nat
  | 0, _ => []
  | n + 1, l => beNat (l.take 8) :: shaWords n (l.drop 8)

/-- One 128-byte block. -/
def shaBlock (ks h : List Nat) (blk : List Byte) : List Nat :=
  let w := (shaExpand 64 (shaWords 16 blk).reverse).reverse
  let r := (ks.zip w).foldl shaRound h
  (h.zip r).map (fun p => (p.1 + p.2) % 2 ^ 64)

/-- All blocks. -/
def shaBlocks (ks : List Nat) : Nat → List Nat → List Byte → List Nat
  | 0, h, _ => h
  | n + 1, h, l => shaBlocks ks n (shaBlock ks h (l.take 128)) (l.drop 128)

/-- SHA-384 of a byte list, 48 bytes. -/
@[irreducible] def sha384 (l : List Byte) : List Byte :=
  let n := l.length
  let z := (127 - (n + 16) % 128) % 128
  let padded := l ++ [0x80] ++ zeros z ++ beBytes 16 (8 * n)
  let h := shaBlocks shaK (padded.length / 128) shaInit padded
  ((h.take 6).map (beBytes 8)).flatten

end Sys2Proof
end

