-- ==== Sys2Proof/Machine/Num.lean ====
section
/-! DEFINITION. Number formats, exact values and the one rounding (02_number_formats, R32 to R57). -/
namespace Sys2Proof

/-- The element formats of Table 02-1 (R32). -/
inductive Fmt where
  | fp4 | fp6e2m3 | fp6e3m2 | e4m3 | e5m2 | bf16 | fp16 | fp32 | fp64
  | int8 | uint8 | int16 | int32 | wa192 | wa384
  | mxfp4 | mxfp6e2m3 | mxfp6e3m2 | mxe4m3 | mxe5m2 | mxint8
  deriving DecidableEq, Repr

/-- Rounding modes (section Rounding). -/
inductive Rnd where
  | rne | rtz | sr
  deriving DecidableEq, Repr

/-- An exact value: NaN, an infinity, or sign and magnitude n / d. A zero keeps its sign. -/
inductive Val where
  | nan
  | inf (neg : Bool)
  | num (neg : Bool) (n d : Nat)
  deriving DecidableEq, Repr

/-- The four sticky numeric flags of R52. -/
structure NumFlags where
  nv : Bool := false
  ovf : Bool := false
  nanLost : Bool := false
  winOvf : Bool := false
  deriving DecidableEq, Repr

/-- Parameters of a floating-point element format (Tables 02-2 and 02-3). -/
structure FloatParams where
  e : Nat
  m : Nat
  bias : Nat
  maxFin : Nat
  infCode : Option Nat
  nanCode : Option Nat
  deriving DecidableEq, Repr

/-! ## Formats -/

/-- Format of a 5-bit code; none for 0x0F and 0x16 to 0x1F (R33). -/
def Fmt.ofCode (c : Nat) : Option Fmt :=
  match c with
  | 0x00 => some .fp4 | 0x01 => some .fp6e2m3 | 0x02 => some .fp6e3m2 | 0x03 => some .e4m3 | 0x04 => some .e5m2
  | 0x05 => some .bf16 | 0x06 => some .fp16 | 0x07 => some .fp32 | 0x08 => some .fp64 | 0x09 => some .int8
  | 0x0A => some .uint8 | 0x0B => some .int16 | 0x0C => some .int32 | 0x0D => some .wa192 | 0x0E => some .wa384
  | 0x10 => some .mxfp4 | 0x11 => some .mxfp6e2m3 | 0x12 => some .mxfp6e3m2 | 0x13 => some .mxe4m3
  | 0x14 => some .mxe5m2 | 0x15 => some .mxint8 | _ => none

/-- Code of a format (Table 02-1). -/
def Fmt.code (f : Fmt) : Nat :=
  match f with
  | .fp4 => 0x00 | .fp6e2m3 => 0x01 | .fp6e3m2 => 0x02 | .e4m3 => 0x03 | .e5m2 => 0x04
  | .bf16 => 0x05 | .fp16 => 0x06 | .fp32 => 0x07 | .fp64 => 0x08 | .int8 => 0x09
  | .uint8 => 0x0A | .int16 => 0x0B | .int32 => 0x0C | .wa192 => 0x0D | .wa384 => 0x0E
  | .mxfp4 => 0x10 | .mxfp6e2m3 => 0x11 | .mxfp6e3m2 => 0x12 | .mxe4m3 => 0x13
  | .mxe5m2 => 0x14 | .mxint8 => 0x15

/-- The element format of a block-scaled format; other formats are their own (R39). -/
def Fmt.elem (f : Fmt) : Fmt :=
  match f with
  | .mxfp4 => .fp4 | .mxfp6e2m3 => .fp6e2m3 | .mxfp6e3m2 => .fp6e3m2 | .mxe4m3 => .e4m3 | .mxe5m2 => .e5m2
  | .mxint8 => .int8 | g => g

/-- Is this a block-scaled format? -/
def Fmt.isMx (f : Fmt) : Bool := decide (0x10 ≤ f.code)

/-- Is this a window accumulator format? -/
def Fmt.isWa (f : Fmt) : Bool := match f with | .wa192 => true | .wa384 => true | _ => false

/-- Is this an integer format of R38 (MXINT8 is a scaled format, R76)? -/
def Fmt.isInt (f : Fmt) : Bool :=
  match f with | .int8 => true | .uint8 => true | .int16 => true | .int32 => true | _ => false

/-- Element width in bits (Table 02-1). -/
def Fmt.width (f : Fmt) : Nat :=
  match f.elem with
  | .fp4 => 4 | .fp6e2m3 => 6 | .fp6e3m2 => 6 | .e4m3 => 8 | .e5m2 => 8 | .bf16 => 16 | .fp16 => 16 | .fp32 => 32
  | .fp64 => 64 | .int8 => 8 | .uint8 => 8 | .int16 => 16 | .int32 => 32 | .wa192 => 192 | .wa384 => 384 | _ => 8

/-- May the format be a matrix operand (Table 02-1)? -/
def Fmt.matrixOperand (f : Fmt) : Bool :=
  match f with | .int16 => false | .int32 => false | .wa192 => false | .wa384 => false | _ => true

/-- Floating-point parameters of a format's element (Tables 02-2, 02-3). -/
def Fmt.float? (f : Fmt) : Option FloatParams :=
  match f.elem with
  | .fp4 => some ⟨2, 1, 1, 0x7, none, none⟩
  | .fp6e2m3 => some ⟨2, 3, 1, 0x1F, none, none⟩
  | .fp6e3m2 => some ⟨3, 2, 3, 0x1F, none, none⟩
  | .e4m3 => some ⟨4, 3, 7, 0x7E, none, some 0x7F⟩
  | .e5m2 => some ⟨5, 2, 15, 0x7B, some 0x7C, some 0x7E⟩
  | .bf16 => some ⟨8, 7, 127, 0x7F7F, some 0x7F80, some 0x7FC0⟩
  | .fp16 => some ⟨5, 10, 15, 0x7BFF, some 0x7C00, some 0x7E00⟩
  | .fp32 => some ⟨8, 23, 127, 0x7F7FFFFF, some 0x7F800000, some 0x7FC00000⟩
  | .fp64 => some ⟨11, 52, 1023, 0x7FEFFFFFFFFFFFFF, some 0x7FF0000000000000, some 0x7FF8000000000000⟩
  | _ => none

/-- Range of an integer format (R38). -/
def Fmt.intRange (f : Fmt) : Int × Int :=
  match f.elem with
  | .int8 => (-128, 127) | .uint8 => (0, 255) | .int16 => (-32768, 32767) | _ => (-2147483648, 2147483647)

/-- Exponent of the largest binade of an MX element (R41). -/
def Fmt.mxEmax (f : Fmt) : Int :=
  match f with
  | .mxfp4 => 2 | .mxfp6e2m3 => 2 | .mxfp6e3m2 => 4 | .mxe4m3 => 8 | .mxe5m2 => 15 | _ => 0

/-- Bits of the sign position. -/
def FloatParams.signBit (p : FloatParams) : Nat := 2 ^ (p.e + p.m)

/-- Exponent of the smallest normal value (Table 02-2). -/
def FloatParams.emin (p : FloatParams) : Int := 1 - (p.bias : Int)

/-! ## Flags -/

/-- Join of two flag sets: the flags are sticky (R52). -/
def NumFlags.join (a b : NumFlags) : NumFlags :=
  ⟨a.nv || b.nv, a.ovf || b.ovf, a.nanLost || b.nanLost, a.winOvf || b.winOvf⟩

/-- No flag. -/
def NumFlags.none : NumFlags := {}

/-- Join of a list. -/
def NumFlags.all (l : List NumFlags) : NumFlags := l.foldl NumFlags.join {}

/-- The flags as job-status bits 3:0 (Table 06-13). -/
def NumFlags.bits (f : NumFlags) : Nat := b2n f.nv + 2 * b2n f.ovf + 4 * b2n f.nanLost + 8 * b2n f.winOvf

/-! ## Exact values -/

/-- +0. -/
def Val.zero : Val := .num false 0 1

/-- An integer as a value. -/
def Val.ofInt (i : Int) : Val := .num (decide (i < 0)) i.natAbs 1

/-- Lowest terms, so that equal values are equal data. -/
def Val.norm (v : Val) : Val :=
  match v with
  | .num s n d => let g := Nat.gcd n d; if g = 0 then .num s n d else .num s (n / g) (d / g)
  | w => w

/-- n / d times 2^k for an integer k. -/
def scalePow (k : Int) (n d : Nat) : Nat × Nat :=
  if 0 ≤ k then (n * 2 ^ k.toNat, d) else (n, d * 2 ^ (-k).toNat)

/-- ⌊log2 (n / d)⌋ for n, d > 0. -/
def floorLog2 (n d : Nat) : Int :=
  let k : Int := (Nat.log2 n : Int) - (Nat.log2 d : Int)
  let (a, b) := scalePow (-k) n d
  if b ≤ a then k else k - 1

/-- The exponent bound ex of R68: ⌊log2 |x|⌋ + 1; none for zeros, infinities and NaNs. -/
def Val.ex (v : Val) : Option Int :=
  match v with
  | .num _ n d => if n = 0 then none else some (floorLog2 n d + 1)
  | _ => none

/-- Is this a zero? -/
def Val.isZero (v : Val) : Bool := match v with | .num _ n _ => decide (n = 0) | _ => false

/-- Negation (sign change; NaN stays NaN). -/
def Val.neg (v : Val) : Val :=
  match v with | .nan => .nan | .inf s => .inf (!s) | .num s n d => .num (!s) n d

/-- Magnitude. -/
def Val.abs (v : Val) : Val :=
  match v with | .nan => .nan | .inf _ => .inf false | .num _ n d => .num false n d

/-- Exact product (R51, R60): 0 × Inf sets nv. -/
def Val.mul (a b : Val) : Val × NumFlags :=
  match a, b with
  | .nan, _ => (.nan, {})
  | _, .nan => (.nan, {})
  | .inf s, .inf t => (.inf (s != t), {})
  | .inf s, .num t n _ => if n = 0 then (.nan, { nv := true }) else (.inf (s != t), {})
  | .num s n _, .inf t => if n = 0 then (.nan, { nv := true }) else (.inf (s != t), {})
  | .num s n d, .num t m e => (.num (s != t) (n * m) (d * e), {})

/-- Exact sum (R51): Inf − Inf sets nv; an exact zero sum of opposite signs is +0, of two −0 is −0. -/
def Val.add (a b : Val) : Val × NumFlags :=
  match a, b with
  | .nan, _ => (.nan, {})
  | _, .nan => (.nan, {})
  | .inf s, .inf t => if s = t then (.inf s, {}) else (.nan, { nv := true })
  | .inf s, .num _ _ _ => (.inf s, {})
  | .num _ _ _, .inf t => (.inf t, {})
  | .num s n d, .num t m e =>
    let x := n * e
    let y := m * d
    if s = t then (.num s (x + y) (d * e), {})
    else if x = y then (.num false 0 1, {})
    else if y < x then (.num s (x - y) (d * e), {})
    else (.num t (y - x) (d * e), {})

/-- a × b + c before its one rounding (R51): the nv of 0 × Inf is raised when the product is formed. -/
def Val.fma (a b c : Val) : Val × NumFlags :=
  let (p, f) := Val.mul a b
  let (r, g) := Val.add p c
  (r, f.join g)

/-- Quotient by a positive finite value (R42). -/
def Val.divPos (a s : Val) : Val :=
  match a, s with
  | .num t n d, .num _ m e => .num t (n * e) (d * m)
  | x, _ => x

/-- Order of two numbers or infinities: a < b; false with a NaN (R51). -/
def Val.lt (a b : Val) : Bool :=
  match a, b with
  | .nan, _ => false
  | _, .nan => false
  | .inf s, .inf t => s && !t
  | .inf s, .num _ _ _ => s
  | .num _ _ _, .inf t => !t
  | .num s n d, .num t m e =>
    let x : Int := if s then -(n * e : Nat) else (n * e : Nat)
    let y : Int := if t then -(m * d : Nat) else (m * d : Nat)
    decide (x < y)

/-- Equality of values; false with a NaN; +0 equals −0. -/
def Val.eq (a b : Val) : Bool :=
  match a, b with
  | .nan, _ => false
  | _, .nan => false
  | a, b => !Val.lt a b && !Val.lt b a

/-- Sign of a value; NaN counts as positive. -/
def Val.sign (v : Val) : Bool := match v with | .nan => false | .inf s => s | .num s _ _ => s

/-- Minimum of R51: one NaN gives the other operand, two NaNs the canonical NaN, −0 below +0. -/
def Val.min (a b : Val) : Val :=
  match a, b with
  | .nan, x => x
  | x, .nan => x
  | a, b => if Val.lt a b then a else if Val.lt b a then b else if a.sign then a else b

/-- Maximum of R51. -/
def Val.max (a b : Val) : Val :=
  match a, b with
  | .nan, x => x
  | x, .nan => x
  | a, b => if Val.lt a b then b else if Val.lt b a then a else if a.sign then b else a

/-! ## Decoding (R35, R36, R38, R40) -/

/-- A floating-point code decoded. -/
def FloatParams.decode (p : FloatParams) (c : Nat) : Val :=
  let s := c.testBit (p.e + p.m)
  let c := c % p.signBit
  let ee := c / 2 ^ p.m
  let mm := c % 2 ^ p.m
  if p.infCode = some c then .inf s
  else if p.infCode.isSome && decide (ee = 2 ^ p.e - 1) then .nan
  else if p.nanCode = some c then .nan
  else if ee = 0 then
    let (n, d) := scalePow (p.emin - (p.m : Int)) mm 1
    .num s n d
  else
    let (n, d) := scalePow ((ee : Int) - (p.bias : Int) - (p.m : Int)) (2 ^ p.m + mm) 1
    .num s n d

/-- Is the code a subnormal (E = 0, M ≠ 0) of its format? -/
def FloatParams.subnormal (p : FloatParams) (c : Nat) : Bool :=
  let c := c % p.signBit
  decide (c ≠ 0) && decide (c < 2 ^ p.m)

/-- The decoded value of an element code before any scale. An MXINT8 code i is i × 2^−6 (R40). -/
def Fmt.decode (f : Fmt) (c : Nat) : Val :=
  match f.float? with
  | some p => p.decode (c % 2 ^ f.width)
  | none =>
    match f with
    | .mxint8 => let i := signed 8 c; .num (decide (i < 0)) i.natAbs 64
    | .uint8 => .num false (c % 256) 1
    | _ => Val.ofInt (signed f.width c)

/-- Decode with ftz_in: a subnormal code reads as a zero of the same sign; an MX element is tested as a code (R50). -/
def Fmt.decodeFtz (f : Fmt) (ftz : Bool) (c : Nat) : Val :=
  match f.float? with
  | some p => if ftz && p.subnormal c then .num (c.testBit (p.e + p.m)) 0 1 else f.decode c
  | none => f.decode c

/-- Value of an E8M0 scale byte; 0xFF is the NaN scale (R40). -/
def e8m0 (x : Nat) : Val :=
  if x = 0xFF then .nan else let (n, d) := scalePow ((x : Int) - 127) 1 1; .num false n d

/-- An element under its block scale: a NaN scale makes every element a NaN whatever its code (R40). -/
def applyScale (v scale : Val) : Val :=
  match scale with
  | .num _ n d => match v with | .num s m e => .num s (m * n) (e * d) | w => w
  | _ => .nan

/-- Is an FP32 code a legal per-tensor scale: positive, finite and normal (R42)? -/
def scaleOk (c : Nat) : Bool := decide (0x00800000 ≤ c) && decide (c ≤ 0x7F7FFFFF)

/-! ## Rounding (R45) and overflow (R47) -/

/-- The integer multiple of the quantum that the magnitude n / d, already in units of the quantum, rounds to. -/
def roundCount (mode : Rnd) (r16 n d : Nat) : Nat :=
  match mode with
  | .rne =>
    let q := n / d
    let r := n % d
    if d < 2 * r ∨ (2 * r = d ∧ q % 2 = 1) then q + 1 else q
  | .rtz => n / d
  | .sr => (n * 65536 + r16 * d) / (d * 65536)

/-- Encode the magnitude k × 2^qe, k ≤ 2^p, with qe not below the subnormal quantum. -/
def FloatParams.encode (p : FloatParams) (s : Bool) (k : Nat) (qe : Int) : Nat :=
  let sb := if s then p.signBit else 0
  let (k, qe) := if k = 2 ^ (p.m + 1) then (2 ^ p.m, qe + 1) else (k, qe)
  if k < 2 ^ p.m then sb + k
  else sb + ((qe + (p.m : Int) + (p.bias : Int)).toNat) * 2 ^ p.m + (k - 2 ^ p.m)

/-- a / b ≤ c / d. -/
def fracLe (a b c d : Nat) : Bool := decide (a * d ≤ c * b)

/-- Largest finite magnitude of a format as a fraction. -/
def FloatParams.maxFinite (p : FloatParams) : Nat × Nat :=
  match p.decode p.maxFin with | .num _ n d => (n, d) | _ => (0, 1)

/-- Overflow result of a floating-point destination (Table 02-4). -/
def FloatParams.overflow (p : FloatParams) (s : Bool) (mode : Rnd) (sat : Bool) : Nat :=
  let sb := if s then p.signBit else 0
  match p.infCode with
  | some i => if sat then sb + p.maxFin else match mode with | .rtz => sb + p.maxFin | _ => sb + i
  | none => sb + p.maxFin

/-- What the one rounding of a nonzero finite value to a floating-point format gives, before the overflow rule. -/
def FloatParams.roundTo (p : FloatParams) (mode : Rnd) (r16 n d : Nat) : Nat × Int :=
  let e := floorLog2 n d
  let qe := Max.max e p.emin - (p.m : Int)
  let (a, b) := scalePow (-qe) n d
  (roundCount mode r16 a b, qe)

/-- R45 for a floating-point destination. -/
def FloatParams.round (p : FloatParams) (mode : Rnd) (r16 : Nat) (sat ftzOut : Bool) (s : Bool) (n d : Nat) : Nat × NumFlags :=
  let (k, qe) := p.roundTo mode r16 n d
  let (mn, md) := scalePow qe k 1
  let (xn, xd) := p.maxFinite
  if !fracLe mn md xn xd then (p.overflow s mode sat, { ovf := true })
  else
    let (on, od) := scalePow p.emin 1 1
    if ftzOut && !fracLe on od mn md then (if s then p.signBit else 0, {})
    else (p.encode s k qe, {})

/-- R45 for an integer destination: quantum 1, signed range test, the bound of the same sign on overflow (R47). -/
def roundInt (f : Fmt) (mode : Rnd) (r16 : Nat) (s : Bool) (n d : Nat) : Nat × NumFlags :=
  let k := roundCount mode r16 n d
  let v : Int := if s then -(k : Int) else (k : Int)
  let (lo, hi) := f.intRange
  if v < lo then (unsigned f.width lo, { ovf := true })
  else if hi < v then (unsigned f.width hi, { ovf := true })
  else (unsigned f.width v, {})

/-- Options of a conversion. -/
structure CvtOpts where
  mode : Rnd := .rne
  sat : Bool := false
  ftzOut : Bool := false
  deriving DecidableEq, Repr

/-- Conversion of an exact value to a plain (not MX, not WA) format: R45 to R49, Table 02-5. -/
def convert (f : Fmt) (o : CvtOpts) (r16 : Nat) (v : Val) : Nat × NumFlags :=
  match f.float? with
  | some p =>
    match v with
    | .nan => match p.nanCode with | some c => (c, {}) | none => (0, { nanLost := true })
    | .inf s =>
      let sb := if s then p.signBit else 0
      match p.infCode with | some c => (sb + c, {}) | none => (sb + p.maxFin, { ovf := true })
    | .num s n d => if n = 0 then (if s then p.signBit else 0, {}) else p.round o.mode r16 o.sat o.ftzOut s n d
  | none =>
    match v with
    | .nan => (0, { nanLost := true })
    | .inf s => let (lo, hi) := f.intRange; (unsigned f.width (if s then lo else hi), { ovf := true })
    | .num s n d => if n = 0 then (0, {}) else roundInt f o.mode r16 s n d

/-! ## MX quantisation (R41) -/

/-- maxfin of an MX element as a fraction. -/
def Fmt.mxMax (f : Fmt) : Nat × Nat :=
  match f.float? with | some p => p.maxFinite | none => (127, 64)

/-- One element of an MX block: round_mx, then the clamp to maxfin; sets no flag. -/
def roundMx (f : Fmt) (o : CvtOpts) (r16 : Nat) (v : Val) : Nat :=
  match v with
  | .num s n d =>
    match f.float? with
    | some p =>
      if n = 0 then (if s then p.signBit else 0)
      else
        let (k, qe) := p.roundTo o.mode r16 n d
        let (mn, md) := scalePow qe k 1
        let (xn, xd) := p.maxFinite
        if !fracLe mn md xn xd then (if s then p.signBit else 0) + p.maxFin
        else
          let (on, od) := scalePow p.emin 1 1
          if o.ftzOut && !fracLe on od mn md then (if s then p.signBit else 0) else p.encode s k qe
    | none =>
      let k := Min.min (roundCount o.mode r16 (n * 64) d) 127
      unsigned 8 (if s then -(k : Int) else (k : Int))
  | _ => 0

/-- Largest magnitude of a block as a fraction. -/
def blockMax (l : List Val) : Nat × Nat :=
  l.foldl (fun a v => match v with | .num _ n d => if fracLe n d a.1 a.2 then a else (n, d) | _ => a) (0, 1)

/-- Is a value neither NaN nor infinite? -/
def Val.finite (v : Val) : Bool := match v with | .num _ _ _ => true | _ => false

/-- Quantise one block of 32 values, each already divided by the per-tensor scale: scale byte, element codes, flags.
An entry whose Bool is set came from a SAT window element: it counts as a NaN and does not set nv (R56). -/
def quantiseBlock (f : Fmt) (o : CvtOpts) (vs : List (Val × Bool)) (r16 : List Nat) : Nat × List Nat × NumFlags :=
  if vs.any (fun p => p.2 || !p.1.finite) then
    (0xFF, vs.map (fun _ => 0), { nv := vs.any (fun p => !p.2 && !p.1.finite) })
  else
    let (an, ad) := blockMax (vs.map (·.1))
    let x : Int := if an = 0 then 0 else floorLog2 an ad - f.mxEmax
    let x := Min.min (Max.max x (-127)) 127
    let sc (v : Val) : Val := match v with | .num s n d => let (a, b) := scalePow (-x) n d; .num s a b | w => w
    ((x + 127).toNat, (vs.zip r16).map (fun p => roundMx f o p.2 (sc p.1.1)), {})

/-! ## Window elements (R53 to R56) -/

/-- Width of a window format. -/
def winWidth (f : Fmt) : Nat := match f with | .wa384 => 384 | _ => 192

/-- The special codes of Table 02-8. -/
inductive WinKind where
  | nan | pinf | ninf | sat | fin
  deriving DecidableEq, Repr

/-- Kind of a window element of width w. -/
def winKind (w : Nat) (x : Int) : WinKind :=
  let lo : Int := -(2 ^ (w - 1) : Nat)
  if x = lo then .nan else if x = lo + 1 then .pinf else if x = lo + 2 then .ninf else if x = lo + 3 then .sat else .fin

/-- The code of a special kind (Table 02-8). -/
def winCode (w : Nat) (k : WinKind) : Int :=
  let lo : Int := -(2 ^ (w - 1) : Nat)
  match k with | .nan => lo | .pinf => lo + 1 | .ninf => lo + 2 | .sat => lo + 3 | .fin => 0

/-- wadd (R55): the sum and whether win_ovf is set. -/
def wadd (w : Nat) (x y : Int) : Int × NumFlags :=
  let kx := winKind w x
  let ky := winKind w y
  if kx = .nan ∨ ky = .nan then (winCode w .nan, {})
  else if (kx = .pinf ∨ ky = .pinf) ∧ (kx = .ninf ∨ ky = .ninf) then (winCode w .nan, {})
  else if kx = .pinf ∨ ky = .pinf then (winCode w .pinf, {})
  else if kx = .ninf ∨ ky = .ninf then (winCode w .ninf, {})
  else if kx = .sat ∨ ky = .sat then (winCode w .sat, { winOvf := true })
  else
    let z := x + y
    if z < -(2 ^ (w - 1) : Nat) + 4 ∨ (2 ^ (w - 1) : Nat) - 1 < z then (winCode w .sat, { winOvf := true })
    else (z, {})

/-- The exact value of a window element under ceiling c, and whether it is SAT (R56). -/
def winValue (w : Nat) (c : Int) (x : Int) : Val × Bool :=
  match winKind w x with
  | .nan => (.nan, false)
  | .pinf => (.inf false, false)
  | .ninf => (.inf true, false)
  | .sat => (.nan, true)
  | .fin =>
    let f : Int := if w = 384 then 320 else 160
    let (n, d) := scalePow (c - f) x.natAbs 1
    (.num (decide (x < 0)) n d, false)

/-- Conversion of a window element to a plain format (R56). SAT gives the canonical NaN, or the positive maximum in a
format without NaN, and no further flag. -/
def convertWin (f : Fmt) (o : CvtOpts) (r16 : Nat) (sD : Val) (v : Val × Bool) : Nat × NumFlags :=
  if v.2 then
    match f.float? with
    | some p => match p.nanCode with | some c => (c, {}) | none => (p.maxFin, {})
    | none => (unsigned f.width f.intRange.2, {})
  else convert f o r16 (Val.divPos v.1 sD)

end Sys2Proof
end

