-- ==== Sys2Proof/Machine/Dot.lean ====
section
/-! DEFINITION. The defined dot product: sequence mode, window mode, integer path, ceilings
(03_dot_products, R58 to R79), and the fixed summation tree of collectives (13_collectives, R294). -/
namespace Sys2Proof

/-! ## Sequence mode -/

/-- The frame exponent of a block: the largest ⌊log2 |p|⌋ over its nonzero finite products (R62). -/
def blockEmax (ps : List Val) : Option Int :=
  ps.foldl (fun a v =>
    match v with
    | .num _ n d => if n = 0 then a else
        let e := floorLog2 n d
        match a with | none => some e | some x => some (max x e)
    | _ => a) none

/-- One product truncated toward zero to the frame unit 2^(emax − 88): signed count, and whether bits were lost. -/
def frameTerm (emax : Int) (v : Val) : Int × Bool :=
  match v with
  | .num s n d =>
    let (a, b) := scalePow (88 - emax) n d
    let q := a / b
    (if s then -(q : Int) else (q : Int), decide (q * b ≠ a))
  | _ => (0, false)

/-- The block value of R62 and the flag of its infinity case. -/
def blockValue (ps : List Val) : Val × NumFlags :=
  if ps.any (fun v => decide (v = .nan)) then (.nan, {})
  else if ps.any (fun v => decide (v = .inf false)) && ps.any (fun v => decide (v = .inf true)) then (.nan, { nv := true })
  else if ps.any (fun v => decide (v = .inf false)) then (.inf false, {})
  else if ps.any (fun v => decide (v = .inf true)) then (.inf true, {})
  else
    match blockEmax ps with
    | none => (.zero, {})
    | some emax =>
      let ts := ps.map (frameTerm emax)
      let s := ts.foldl (fun a t => a + t.1) (0 : Int)
      let st : Int := if ts.any (·.2) then 1 else 0
      if s = 0 then (.zero, {})
      else
        let x : Int := if 0 < s then 2 * s + st else 2 * s - st
        let (n, d) := scalePow (emax - 89) x.natAbs 1
        (.num (decide (x < 0)) n d, {})

/-- Round an exact value to an accumulator format and read it back (R45, R47). -/
def roundVia (f : Fmt) (mode : Rnd) (sat : Bool) (v : Val) : Val × NumFlags :=
  let (c, fl) := convert f ⟨mode, sat, false⟩ 0 v
  ((f.decode c).norm, fl)

/-- acc_add of R63. -/
def accAdd (f : Fmt) (mode : Rnd) (sat : Bool) (acc v : Val) : Val × NumFlags :=
  if v.isZero then (acc, {})
  else
    match acc, v with
    | .nan, _ => (.nan, {})
    | _, .nan => (.nan, {})
    | .inf s, .inf t => if s = t then (.inf s, {}) else (.nan, { nv := true })
    | .inf s, _ => (.inf s, {})
    | _, .inf t => (.inf t, {})
    | a, b =>
      let (x, _) := Val.add a b
      if x.isZero then (.zero, {}) else roundVia f mode sat x

/-- The products of one K step and the flags their formation sets (R59, R60). -/
def products (as bs : List Val) : List Val × NumFlags :=
  let ps := (as.zip bs).map (fun p => Val.mul p.1 p.2)
  (ps.map (·.1), NumFlags.all (ps.map (·.2)))

/-- One block of 32 products added to a running accumulator (R61 to R63). -/
def seqStep (f : Fmt) (mode : Rnd) (sat : Bool) (acc : Val) (as bs : List Val) : Val × NumFlags :=
  let (ps, f1) := products as bs
  let (b, f2) := blockValue ps
  let (a, f3) := accAdd f mode sat acc b
  (a, (f1.join f2).join f3)

/-! ## Integer path (R67) -/

/-- Exact integer sum of products of two code lists. -/
def intStep (f : Fmt) (acc : Int) (as bs : List Nat) : Int :=
  let dec (c : Nat) : Int := if f = .uint8 then (c % 256 : Nat) else signed 8 c
  (as.zip bs).foldl (fun a p => a + dec p.1 * dec p.2) acc

/-! ## Ceilings (R68, R69) and window mode (R73, R74) -/

/-- EMPTY, the entry of an index without exponent bound (R68). -/
def ceilEmpty : Int := -32768

/-- The ceiling entry over a list of logical values (R68). -/
def ceilOf (vs : List Val) : Int :=
  vs.foldl (fun a v => match v.ex with | none => a | some e => max a e) ceilEmpty

/-- g of R73. -/
def ceilG (e : Int) : Int := if e = ceilEmpty then -16384 else e

/-- The ceiling c of an output element (R73). -/
def ceilC (ea eb : Int) (kTotal : Nat) : Int := ceilG ea + ceilG eb + (clog2 kTotal : Int) + 2

/-- The fraction bits f of the window unit u = 2^(c − f) (R74). -/
def winFrac (w : Nat) : Int := if w = 384 then 320 else 160

/-- One product as a window term (R74). -/
def winTerm (w : Nat) (c : Int) (kTotal : Nat) (p : Val) : Int × NumFlags :=
  match p with
  | .nan => (winCode w .nan, {})
  | .inf s => (winCode w (if s then .ninf else .pinf), {})
  | .num s n d =>
    let (a, b) := scalePow (winFrac w - c) n d
    let q := a / b
    if 2 ^ (w - 2 - clog2 kTotal) ≤ q then (winCode w .sat, { winOvf := true })
    else (if s then -(q : Int) else (q : Int), {})

/-- One K step in window mode: every product becomes a term and joins by wadd (R74), in increasing k (DESIGN CHOICE:
notes/assumptions/94). -/
def winStep (w : Nat) (c : Int) (kTotal : Nat) (acc : Int) (as bs : List Val) : Int × NumFlags :=
  let (ps, f1) := products as bs
  ps.foldl (fun (a : Int × NumFlags) p =>
    let (t, f2) := winTerm w c kTotal p
    let (z, f3) := wadd w a.1 t
    (z, (a.2.join f2).join f3)) (acc, f1)

/-! ## Vector reductions (R78) -/

/-- Sum of a list in blocks of 32 by R61 to R63, with fuel for the block count. -/
def sumBlocks (f : Fmt) (mode : Rnd) : Nat → Val → List Val → Val × NumFlags
  | 0, acc, _ => (acc, {})
  | n + 1, acc, ps =>
    let (b, f1) := blockValue (ps.take 32)
    let (a, f2) := accAdd f mode false acc b
    let (r, f3) := sumBlocks f mode n a (ps.drop 32)
    (r, (f1.join f2).join f3)

/-- The reduction of a list of products or elements along one dimension (R78). -/
def reduceSeq (f : Fmt) (mode : Rnd) (ps : List Val) : Val × NumFlags :=
  sumBlocks f mode (cdiv ps.length 32) .zero ps

/-! ## The fixed tree of a sequence-mode sum (R294) -/

/-- add of two elements of a format by code: floating point rounds once by RNE, INT32 is modulo 2^32 (R293, R294). -/
def treeAdd (f : Fmt) (x y : Nat) : Nat × NumFlags :=
  if f.isInt then ((x + y) % 2 ^ f.width, {})
  else
    let (v, f1) := Val.add (f.decode x) (f.decode y)
    let (c, f2) := convert f {} 0 v
    (c, f1.join f2)

/-- Combine position r with position r + s for each r in a list. -/
def treeLevel (f : Fmt) (s : Nat) (rs : List Nat) (v : List Nat) : List Nat × NumFlags :=
  rs.foldl (fun (a : List Nat × NumFlags) r =>
    let (x, fl) := treeAdd f (a.1.getD r 0) (a.1.getD (r + s) 0)
    (a.1.set r x, a.2.join fl)) (v, {})

/-- The doubling levels, with fuel. -/
def treeLoop (f : Fmt) (p : Nat) : Nat → Nat → List Nat → List Nat × NumFlags
  | 0, _, v => (v, {})
  | n + 1, s, v =>
    if p ≤ s then (v, {})
    else
      let rs := (List.range p).filter (fun r => decide (r % (2 * s) = 0))
      let (v1, f1) := treeLevel f s rs v
      let (v2, f2) := treeLoop f p n (2 * s) v1
      (v2, f1.join f2)

/-- tree_sum of R294 over the leaves in leaf order. -/
def treeSum (f : Fmt) (v : List Nat) : Nat × NumFlags :=
  let l := v.length
  let p := 2 ^ Nat.log2 l
  let (v1, f1) := treeLevel f p (List.range (l - p)) v
  let (v2, f2) := treeLoop f p (Nat.log2 l + 1) 1 v1
  (v2.getD 0 0, f1.join f2)

/-- Combining function of a reduction over element codes (Table 13-3). red: 1 sum, 2 max, 3 min, 4 window sum. -/
def reduceLeaves (f : Fmt) (red : Nat) (v : List Nat) : Nat × NumFlags :=
  let sel (pick : Val → Val → Val) : Nat :=
    match v with
    | [] => 0
    | x :: r =>
      let go := r.foldl (fun a y => pick a (f.decode y)) (f.decode x)
      (convert f {} 0 go).1
  match red with
  | 1 => treeSum f v
  | 2 => (sel Val.max, {})
  | 3 => (sel Val.min, {})
  | _ =>
    let w := winWidth f
    let r := v.foldl (fun (a : Int × NumFlags) x => let (z, fl) := wadd w a.1 (signed w x); (z, a.2.join fl)) ((0 : Int), {})
    (unsigned w r.1, r.2)

end Sys2Proof
end

