-- ==== Sys2Proof/Config.lean ====
section
/-! DEFINITION. What an implementation fixes and the spec does not give, as constants without a body:
no proof can see their value, so a claim holds whatever they are. Each is named in the assumption log. -/
namespace Sys2Proof.Config

/-- The n-th free value of a run, w bits wide. State.freeCount is the index of the next one. -/
opaque freeValue (w : Nat) : Nat → BitVec w

/-- Bytes that a line reads as under a key it was not written under (R228, R246): a function of the byte's
address, the byte that stands there, the key generation it was written under and the one it is read under. -/
opaque unintelligible (addr : Nat) (stored : BitVec 8) (writtenUnder readUnder : Nat) : BitVec 8

/-- ECDSA P-384 verification of a signature (r then s, 96 bytes) over a digest under a certificate's public key
(R155, R379, R390). -/
opaque ecdsaVerify (certificate digest signature : List (BitVec 8)) : Bool

/-- The unique device secret, in fuses (R378). -/
opaque uds : BitVec 384

/-- The public key, 96 bytes, of the P-384 key pair that FIPS 186-5 derives from a CDI (R378). -/
opaque keyPublic (cdi : List (BitVec 8)) : List (BitVec 8)

/-- ECDSA P-384 signature, r then s, over a digest by the key pair derived from a CDI (R378, R381, R382). -/
opaque keySign (cdi digest : List (BitVec 8)) : List (BitVec 8)

/-- The DER bytes of the alias and DeviceID certificates, leaf first, for an alias identity (R378, R381). -/
opaque aliasChain (identity : List (BitVec 8)) : List (BitVec 8)

/-- The DER bytes of the chain from the Helverin root to the alias certificate, root first (R382). -/
opaque spdmChain (identity : List (BitVec 8)) : List (BitVec 8)

/-- CTExponent, DataTransferSize and MaxSPDMmsgSize of the SPDM responder, in the bytes of CAPABILITIES (R382 gives no value). -/
opaque spdmSizes : BitVec 72

/-- DMTF measurement value type of an SPDM measurement block (R382 names blocks without a type). -/
opaque measurementType (block : Nat) : BitVec 7

/-- What a JTAG instruction code selects: 0 BYPASS, 1 IDCODE, 2 SAMPLE/PRELOAD, 3 an instruction of OWNER, 4 of VENDOR, 5 of OPEN
(Table 17-8 gives no code). -/
opaque jtagInstruction (code : BitVec 8) : BitVec 3

/-- Does a DER chain verify up to the root whose SHA-384 is given (R390, R391)? -/
opaque chainVerifies (chain rootDigest : List (BitVec 8)) : Bool

/-- The serial number that the body of an authorisation block names (Table 17-6; the spec gives the body no layout). -/
opaque bodySerial (body : List (BitVec 8)) : BitVec 128

/-- The owner root digest of a transfer token, 48 bytes (Table 17-6). -/
opaque bodyOwnerRoot (body : List (BitVec 8)) : List (BitVec 8)

/-- The sequence of the owner store in a body (Table 17-6). -/
opaque bodySequence (body : List (BitVec 8)) : BitVec 32

/-- The certificates of the owner store in a body: role (0 image signing, 1 OS signing, 2 management, 3 owner debug) and DER bytes. -/
opaque bodyStore (body : List (BitVec 8)) : List (BitVec 2 × List (BitVec 8))

/-- The leaf certificate of a DER chain. -/
opaque chainLeaf (chain : List (BitVec 8)) : List (BitVec 8)

/-- The ordinary 128-bit module serial number (R344), fixed at manufacture. -/
opaque serial : BitVec 128

/-- The fused ROM digest (Table 17-2). -/
opaque romDigest : BitVec 384

/-- SHA-384 of the Helverin root certificate (R390, R391). -/
opaque helverinRoot : BitVec 384

/-- The Helverin test-signer certificate (R155, R380). -/
opaque testSigner : List (BitVec 8)

/-- The Helverin firmware key's certificate bytes (R379). -/
opaque firmwareKey : List (BitVec 8)

/-- PCI vendor identifier reported by DEV_IDENTIFY (R319, R344); the spec gives no number. -/
opaque pciVendor : BitVec 16

/-- PCI device identifier reported by DEV_IDENTIFY (R319, R344); the spec gives no number. -/
opaque pciDevice : BitVec 16

/-- Lane spares in use on a channel after the training of the n-th start (Table 10-4: chosen at every start). -/
opaque laneSpares (start ctrl channel : Nat) : BitVec 8

/-- What a 16-byte cipher block decrypts to under an error that the symbol code does not find (R228): by block address, key and generation, the
plaintext written and the error. -/
opaque garbled (block key plain error : Nat) : BitVec 128

/-- The MEM_REPAIR payload that a write to a repair window stands for: the spec gives the window no layout (R236). -/
opaque repairWrite (offset value : Nat) : List (BitVec 8)

/-- Stepping of the host die (R344). -/
opaque hdStepping : BitVec 16

/-- Firmware time measured by the Lantern in an operation, in µs (R344, R402): a value that depends on timing. -/
opaque elapsedMicros : Nat → BitVec 32

/-- Severity of an event code (Table 15-9 gives the scale; Table 15-10 gives no severity to a code). -/
opaque severity (code : Nat) : BitVec 2

/-- Unit index of the source byte of an event (Table 15-9) where no rule says which unit of the die it counts. -/
opaque sourceUnit (code : Nat) : BitVec 5

/-- Event code of a collective engine that has waited 100 µs for a peer (R306 raises an event; Table 15-10 lists no code for it). -/
opaque peerWaitEvent : BitVec 16

end Sys2Proof.Config
end

