-- ==== Sys2Proof/Machine/State.lean ====
section
/-! DEFINITION. The module's whole state as plain data, and the state right after reset: input power absent (M-OFF) and
every register at the reset value its field table gives. Arrays are sparse maps (Map) with the default named beside them. -/
namespace Sys2Proof.Machine

/-- No command stops the machine: the spec answers every access and every event with an effect, a status or a response, so
no fault has a name here. -/
inductive Fault where
  deriving DecidableEq, Repr

/-- Refusals. notModelled stands in Dispatch for a row without a meaning (safe: nothing is claimed of it). -/
inductive Refusal where
  | notModelled (mnemonic : String)
  deriving DecidableEq, Repr

/-! ## Memory pool (01, 09, 10, 17) -/

/-- Key generation a line was written under: key ID and its generation count (R383, R386). -/
structure LineTag where
  key : Nat := 64
  gen : Nat := 0
  deriving DecidableEq, Repr

/-- A die-cache line (R216, R217): contents, key ID, modified bit and age. addr is the line address, valid says it is held. -/
structure DcLine where
  valid : Bool := false
  line : Nat := 0
  key : Nat := 0
  dirty : Bool := false
  age : Nat := 0
  data : List Byte := []
  deriving DecidableEq, Repr

/-- A clean side-buffer line (R220). -/
structure SideLine where
  line : Nat
  key : Nat
  data : List Byte
  deriving DecidableEq, Repr

/-- Directory states (Table 09-2). -/
inductive DirState where
  | di | ds | de | dOwn
  deriving DecidableEq, Repr

/-- Requests at a home (Table 09-3). -/
inductive HomeReq where
  | rdS | rdU | upg | rdSn | wrFull | wrPart | atom | backInv
  deriving DecidableEq, Repr

/-- A request waiting at or being served by a home. -/
structure HomeTxn where
  req : HomeReq
  from_ : Party
  key : Nat
  data : List Byte := []
  mask : Nat := 0
  op : AtomOp := ⟨0, false, 0, 0, 0⟩
  deriving DecidableEq, Repr

/-- A core's access that waits for its line in its cluster's cache (R207, R213). -/
structure Miss where
  cache : CacheId
  line : Nat
  core : CoreAccess
  deriving DecidableEq, Repr

/-- A directory entry and the transaction of its line (R207 to R209, R215): owner and sharer mask, the transaction in
progress, the agents whose snoop answers are still due, the write-back held for a crossing snoop, the queue. placed says
that a write transaction has placed its data (R208); fwd and dirty that the owner sent the data and keeps the line dirty. -/
structure HomeLine where
  dir : DirState := .di
  owner : Option CacheId := none
  sharers : BitVec 13 := 0
  key : Nat := 0
  txn : Option HomeTxn := none
  waiting : BitVec 13 := 0
  wbHeld : Option (CacheId × List Byte) := none
  ndwb : Option CacheId := none
  snoopData : Option (List Byte) := none
  placed : Bool := false
  fwd : Bool := false
  dirty : Bool := false
  queue : List HomeTxn := []
  deriving DecidableEq, Repr

/-- States of a line in a caching agent (R213). -/
inductive CacheState where
  | i | s | e | o | m | wbp
  deriving DecidableEq, Repr

/-- Snoops (Table 09-3). -/
inductive Snoop where
  | rd | sh | un | inv
  deriving DecidableEq, Repr

/-- A line of a caching agent (R213, R214): state, contents, key, whether the hold runs, the snoops waiting for its end. -/
structure AgentLine where
  st : CacheState := .i
  key : Nat := 0
  data : List Byte := []
  hold : Bool := false
  snoops : List (Snoop × Option Party) := []
  deriving DecidableEq, Repr

/-- A coherence message under way (Table 09-3). A snoop names who gets the data, none for the home; WB carries the line; DATA carries the state
in which a cache installs the line, or an error (R212); ACK says whether the agent sent the data on and whether its copy stays dirty. -/
inductive CohMsg where
  | snoop (k : Snoop) (dest : CacheId) (line : Nat) (for_ : Option Party)
  | data (dest : Party) (line : Nat) (bytes : List Byte) (st : CacheState) (err : Bool)
  | ack (from_ : CacheId) (line : Nat) (fwd dirty : Bool)
  | ackD (from_ : CacheId) (line : Nat) (bytes : List Byte)
  | ndwb (from_ : CacheId) (line : Nat)
  | wb (from_ : CacheId) (line : Nat) (key : Nat) (bytes : List Byte)
  | comp (dest : Party) (line : Nat)
  | wbAck (dest : CacheId) (line : Nat)
  | wbConsumed (dest : CacheId) (line : Nat)
  deriving DecidableEq, Repr

/-- A fenced-line list entry (MC_FENCE_ENTRY_i). -/
structure FenceEntry where
  valid : Bool := false
  line : Nat := 0
  source : Nat := 0
  channel : Nat := 0
  deriving DecidableEq, Repr

/-- A row address inside a controller: channel, pseudo-channel, bank, row. -/
structure RowAddr where
  ch : Nat
  pc : Nat
  bank : Nat
  row : Nat
  deriving DecidableEq, Repr

/-- A stack or capacity controller (10_memory_tiers). badTimes holds (channel, line, time) of uncorrectable lines; corrTimes holds
(row, time) of corrected reads; spares maps a bank index to spare rows used. -/
structure MemCtrl where
  fence : Map FenceEntry := []
  chanFenced : BitVec 32 := 0
  retired : BitVec 32 := 0
  pendingRetire : BitVec 32 := 0
  rakePeriod : BitVec 8 := 0x18
  rakeNext : BitVec 8 := 0x18
  rakeEnable : Bool := true
  rakePos : Nat := 0
  rakePasses : Nat := 0
  corrected : Nat := 0
  uncorrectable : Nat := 0
  satMask : BitVec 32 := 0
  satEvent : Bool := false
  satChannel : BitVec 5 := 0
  satCycles : Map Nat := []
  autoRepair : Bool := true
  badTimes : List (Nat × Nat × Nat) := []
  corrTimes : List (RowAddr × Nat) := []
  rowErrors : List RowAddr := []
  spareUsed : Map Nat := []
  softRepairs : List RowAddr := []
  hardPending : List RowAddr := []
  hardRepairs : List RowAddr := []
  repairing : List RowAddr := []
  selfRefresh : Bool := false
  deriving DecidableEq, Repr

/-- The pool: bytes by physical address (unlisted reads 0), the key tag of each written line, homes, caching agents. tested counts
the self-tests that wrote every line under a test key (Table 18-3 step 4). misses are the cores' accesses that wait for a line; heldBack the
requests, with their lines, that a full slice holds back (R208). -/
structure Pool where
  tested : Nat := 0
  cells : Map Byte := []
  tags : Map LineTag := []
  homes : Map HomeLine := []
  agents : Map AgentLine := []
  msgs : List CohMsg := []
  misses : List Miss := []
  heldBack : List (Nat × HomeTxn) := []
  ctrls : Map MemCtrl := []
  deriving DecidableEq, Repr

/-! ## Descriptors and tensors (06) -/

/-- Where a tensor lies (Table 06-4). -/
inductive Space where
  | memory | ts | oc
  deriving DecidableEq, Repr

/-- A tensor-table entry as a TENSOR descriptor writes it (Table 06-4). -/
structure Tensor where
  fmt : Fmt
  rank : Nat
  space : Space
  remote : Bool
  streaming : Bool
  scale : Nat
  base : Nat
  ceil : Nat
  ceilDim : Nat
  ceilEmit : Bool
  ceilPresent : Bool
  mxScale : Nat
  mxStride : Int
  iterStep : Int
  key : Nat
  mxIterStep : Int
  size : List Nat
  stride : List Int
  deriving DecidableEq, Repr

/-- The units a descriptor can be queued on (R135). -/
inductive Unit_ where
  | mxe | vxe | tdm (c : Nat) | gxe | ce (e : Nat)
  deriving DecidableEq, Repr

/-- An issued descriptor that has not completed: source, bytes, repetition index, the tensor entries it read at issue (R142), whether
it holds the job's key IDs (R385), whether its effect is still held back by a hazard (R91, R92), tiles or answers still at work, and the first status other than ok. -/
structure InFlight where
  src : DescSrc
  raw : List Byte
  rep : Nat := 0
  a : Option Tensor := none
  b : Option Tensor := none
  c : Option Tensor := none
  d : Option Tensor := none
  jobKeys : Bool := false
  held : Bool := false
  busy : Nat := 0
  status : Nat := 0
  deriving DecidableEq, Repr

/-- A running or queued matrix operation on one tile (R84, R88): decoded descriptor bytes, C and D as the tensors stood at
issue, the repetition index, and its progress: output block, K step, accumulators row-major (values or integers), the
ceilings read for the block, panels consumed so far. -/
structure MxeOp where
  src : DescSrc
  raw : List Byte
  cT : Option Tensor
  dT : Tensor
  rep : Nat
  block : Nat := 0
  kstep : Nat := 0
  vals : List Val := []
  ints : List Int := []
  ceilA : List Int := []
  ceilB : List Int := []
  deriving DecidableEq, Repr

/-- A panel ring (R87): panels packed and waiting to be consumed, counts of slots filled and released since the ring was set up.
slots 0 means that no move has named the ring. -/
structure Ring where
  base : Nat := 0
  slot : Nat := 0
  slots : Nat := 0
  filled : Nat := 0
  released : Nat := 0
  deriving DecidableEq, Repr

/-- A pack move that waits for an unreleased slot (R87): where its next panel comes from. -/
structure PackMove where
  src : DescSrc
  chan : Nat
  ringB : Bool
  base : Nat
  slot : Nat
  slots : Nat
  panels : List (List Byte)
  deriving DecidableEq, Repr

/-- An open island (R150). -/
structure Island where
  src : DescSrc
  raw : List Byte
  first : Nat
  count : Nat
  endSc : Nat
  windowed : Bool
  wqOpen : Bool
  handle : Nat
  deriving DecidableEq, Repr

/-- A forwarded flare: class and interval in slots (R149, R370). -/
structure Flare where
  cls : Nat
  start : Nat
  stop : Nat
  deriving DecidableEq, Repr

/-- A descriptor that has become due at its slot and has not issued (R133). -/
structure Due where
  pos : Nat
  raw : List Byte
  deriving DecidableEq, Repr

/-- A semaphore wait that blocks (R147). -/
structure SemBlock where
  src : DescSrc
  sem : Nat
  eqCond : Bool
  consume : Bool
  v : Nat
  reported : Bool
  deriving DecidableEq, Repr

/-- A signal held back by its fence (R148): descriptors that must complete first. -/
structure FencedSignal where
  src : DescSrc
  waits : List DescSrc
  raw : List Byte
  deriving DecidableEq, Repr

/-- A remote access issued by a descriptor for a tile and not yet gathered (R271, R272): operation, place in the tile's byte
stream, length, what came back. -/
structure RemoteReq where
  tag : Nat
  src : DescSrc
  op : Nat
  tile : Nat
  off : Nat
  len : Nat
  data : List Byte := []
  done : Bool := false
  deriving DecidableEq, Repr

/-- A work queue (R157 to R163). state: 0 disabled, 1 idle, 2 running, 3 doorbell-early, 4 error, 5 held. failSize: entries that
WQ_CTRL.resume consumes (R162). -/
structure Wq where
  enable : Bool := false
  cqEnable : Bool := false
  irqEnable : Bool := false
  log2size : BitVec 4 := 0
  key : BitVec 6 := 0
  base : BitVec 64 := 0
  cqBase : BitVec 64 := 0
  tail : Word := 0
  head : Word := 0
  state : BitVec 3 := 0
  early : Bool := false
  badDb : Bool := false
  errStatus : BitVec 16 := 0
  errSeq : BitVec 16 := 0
  earlyCnt : Word := 0
  msix : BitVec 11 := 0
  retries : Nat := 0
  failSize : Nat := 0
  deriving DecidableEq, Repr

/-- A transfer of a collective step (R297): in a round, participant src sends n elements from lo on to participant dst, where they are combined (add) or
copied from pos on; ceil: the ceiling vector of rank lo instead. -/
structure Xfer where
  round : Nat
  src : Nat
  dst : Nat
  lo : Nat
  pos : Nat
  n : Nat
  add : Bool
  ceil : Bool
  deriving DecidableEq, Repr

/-- An issued step of a collective (R287 to R302). a and b are src and dst; got maps a peer's rank to the bytes received from it (gotCeil: of ceiling
vectors), granted to the credit given it, credit to the credit it gave, sent and sentCeil to the bytes sent to it; checked lists the
ranks whose check value was seen, greeted those that a packet went to; tags holds the transaction tag of the packets to a rank. plan is the transfers
of the step, round the one it is in, work the elements each participant of this member holds, input those of src (ops 5 to 7), ceils the
vectors by rank, out and outCeil what waits to be sent. started: it has read its src; fetching: reads of a remote src are out; writing:
writes of a remote dst are. parts is T (R288), ceilLen a vector's bytes, total the elements of op 6's result. -/
structure CollStep where
  src : DescSrc
  raw : List Byte
  rep : Nat
  a : Option Tensor
  b : Option Tensor
  ranks : List Nat
  got : Map (List Byte) := []
  gotCeil : Map (List Byte) := []
  granted : Map Nat := []
  credit : Map Nat := []
  sent : Map Nat := []
  checked : List Nat := []
  tags : Map Nat := []
  greeted : List Nat := []
  parts : Nat := 1
  ceilLen : Nat := 0
  plan : List Xfer := []
  round : Nat := 0
  started : Bool := false
  fetching : Bool := false
  writing : Bool := false
  input : List Nat := []
  total : Nat := 0
  work : Map (List Nat) := []
  ceils : Map (List Byte) := []
  out : Map (List Byte) := []
  outCeil : Map (List Byte) := []
  sentCeil : Map Nat := []
  flags : NumFlags := {}
  deriving DecidableEq, Repr

/-- A collective engine (R300 to R308). early holds credit packets of steps that have not issued here. -/
structure Ce where
  steps : List CollStep := []
  waitRank : Option Nat := none
  probing : Option Nat := none
  sat : BitVec 4 := 0
  satEvent : Bool := false
  satLevel : BitVec 2 := 0
  satCycles : Map Nat := []
  cntSteps : Word := 0
  cntAborts : BitVec 16 := 0
  cntProbes : BitVec 16 := 0
  abortColl : Word := 0
  abortStep : BitVec 16 := 0
  abortCause : Bool := false
  abortRank : Word := 0
  aborted : List Nat := []
  early : List Packet := []
  counts : List (Nat × Nat × Nat) := []
  deriving DecidableEq, Repr

/-! ## Tiles and the group engine (04, 05) -/

/-- Tile power states (Table 16-8). -/
inductive TilePower where
  | run | gate | nap | doze | off
  deriving DecidableEq, Repr

/-- A kernel launch: open or waiting (R110, Table 06-11); next is the index of the group to start next, gone counts the groups that
have exited or been discarded. -/
structure Kernel where
  src : DescSrc
  handle : Nat
  code : Nat
  groups : Nat
  args : Nat
  key : Nat
  seedId : Nat
  ocBase : Nat
  ocSize : Nat
  plates : Nat
  next : Nat := 0
  gone : Nat := 0
  incomplete : Bool := false
  queueKeys : Bool := false
  deriving DecidableEq, Repr

/-- A reconvergence-stack entry (R121). -/
structure StackEntry where
  rpc : Word
  saved : Word
  pendPc : Word
  pendMask : Word
  deriving DecidableEq, Repr

/-- State of a resident slot (GXE_SLOT_s). -/
inductive SlotState where
  | free | running | waiting | parked
  deriving DecidableEq, Repr

/-- A group's context (Table 05-7). preds and bids are per-thread lists of 32; regs is keyed 128 × thread + register;
timeHi holds the upper half of TIME as of the latest read of its lower half. -/
structure Group where
  st : SlotState := .free
  group : Nat := 0
  handle : Nat := 0
  pc : Word := 0
  live : Word := 0
  active : Word := 0
  rows : BitVec 5 := 16
  cols : BitVec 6 := 0
  full : Bool := true
  bwait : Word := 0
  bid : Map Nat := []
  wdog : Word := 0
  fault : BitVec 8 := 0
  faultAddr : DWord := 0
  timeHi : Word := 0
  preds : Map (BitVec 8) := []
  stack : List StackEntry := []
  regs : Map Word := []
  deriving DecidableEq, Repr

/-- An L1 line (R124). -/
structure L1Line where
  key : Nat
  data : List Byte
  deriving DecidableEq, Repr

/-- A plate (R93): 1,024 bytes, or, after a VLOOP used it, bits the spec does not state (free n: Config.freeValue 8192 n). -/
structure PlateReg where
  data : List Byte := []
  free : Option Nat := none
  deriving DecidableEq, Repr

/-- One logical tile. tsBad, ocBad, plateBad (128 words a plate) and regBad (2,048 words a slot, 64 a thread) number the 8-byte words that
read as an error (R103). -/
structure Tile where
  power : TilePower := .off
  oc : Map Byte := []
  ts : Map Byte := []
  plates : Map PlateReg := []
  tsBad : List Nat := []
  ocBad : List Nat := []
  plateBad : List Nat := []
  regBad : List Nat := []
  scrubPos : Nat := 0
  corrected : List (Nat × Nat) := []
  remapMark : Bool := false
  mxe : List MxeOp := []
  ringA : Ring := {}
  ringB : Ring := {}
  packs : List PackMove := []
  kernel : Option Kernel := none
  launches : List Kernel := []
  slots : Map Group := []
  l1 : Map L1Line := []
  ctxAddr : DWord := 0
  ctrlResult : BitVec 4 := 0
  ctrlSlot : BitVec 5 := 0
  barErr : List Nat := []
  flags : NumFlags := {}
  deriving DecidableEq, Repr

/-- A unit-map entry (TD_UNIT_MAP_t). -/
structure UnitEntry where
  phys : BitVec 8 := 0xFF
  present : Bool := false
  mxeQ : BitVec 4 := 0
  vxeH : BitVec 2 := 0
  gxeHalf : Bool := false
  fenced : Bool := false
  deriving DecidableEq, Repr

/-- The die cache of a tile die (R216 to R222). hits and misses are keyed by class; lines by ((slice × 1536) + set) × 16 + way. -/
structure DieCache where
  streamBypass : Bool := false
  pfDetect : Bool := true
  locked : Bool := false
  waymask : DWord := 0xFFFFFFFFFFFFFFFF
  satMask : Word := 0
  satEvent : Bool := false
  satSlice : BitVec 5 := 0
  satCycles : Map Nat := []
  hits : Map DWord := []
  misses : Map DWord := []
  pfUsed : Word := 0
  pfDropped : Word := 0
  lines : Map DcLine := []
  side : Map (List SideLine) := []
  deriving DecidableEq, Repr

/-- A tile die. orphans holds the remote accesses that a stop left without a descriptor, until they are answered or abandoned (R201);
signals maps the tags of the remote semaphore signals that are not acknowledged to their descriptors; clockHeld marks the causes that have held its clock back since SC last
met ES (bit c − 1 for cause c), behind that their episode has been counted; tensors holds valid tensor-table entries; sc and the ES base give the slot counts (R131). -/
structure Die where
  railUp : Bool := false
  strap : BitVec 3 := 0
  fuse : BitVec 3 := 0
  fuseWritten : Bool := false
  heardE : BitVec 3 := 0
  heardS : BitVec 3 := 0
  heardfE : BitVec 3 := 0
  heardfS : BitVec 3 := 0
  pos : BitVec 2 := 0
  posSource : BitVec 2 := 2
  cap : Option CapWord := none
  count : BitVec 8 := 0
  sparesFree : BitVec 4 := 0
  degraded : BitVec 8 := 0
  mapGen : BitVec 8 := 0
  units : Map UnitEntry := []
  tests : Map TileTest := []
  stream : List Byte := []
  next : Nat := 0
  running : Bool := false
  ended : Bool := false
  sc : Nat := 0
  esBase : Nat := 0
  esTime : Nat := 0
  frameL : Nat := 0
  frameRepeat : Nat := 0
  frameRep : Nat := 0
  frameStart : Nat := 0
  framePos : Nat := 0
  frames : Nat := 0
  due : List Due := []
  stretch : Option Nat := none
  slip : Nat := 0
  behind : Bool := false
  clockHeld : BitVec 8 := 0
  tensors : Map (Option Tensor) := []
  sems : Map Word := []
  inflight : List InFlight := []
  blocks : List SemBlock := []
  fenced : List FencedSignal := []
  islands : List Island := []
  flares : List Flare := []
  remote : List RemoteReq := []
  orphans : List RemoteReq := []
  nextTag : BitVec 16 := 0
  signals : Map DescSrc := []
  quiesced : Bool := false
  wqs : Map Wq := []
  ces : Map Ce := []
  dc : DieCache := {}
  routes : Map (BitVec 16) := []
  routesNew : Map (BitVec 16) := []
  tileCfg : Word := 0xA028
  seed : DWord := 0
  deriving DecidableEq, Repr

/-! ## Die links (11) and fabric (12) -/

/-- States of a link module. -/
inductive ModState where
  | retired | half | full
  deriving DecidableEq, Repr

/-- A link module of one bundle end. checkDue: a lane check that waits for another module to return (R257). -/
structure LinkModule where
  st : ModState := .retired
  checking : Bool := false
  checkDue : Bool := false
  retraining : Bool := false
  badTx : BitVec 68 := 0
  badRx : BitVec 68 := 0
  clockFail : Bool := false
  checks : BitVec 8 := 0
  replays : Word := 0
  replayTimes : List Nat := []
  checkTimes : List Nat := []
  deriving DecidableEq, Repr

/-- A message on a bundle (Tables 11-4, 11-5): its channel, the header's fields, the 8-byte units after the header. -/
structure LinkMsg where
  chan : Nat
  op : Nat
  cls : Nat := 0
  tag : Nat := 0
  key : Nat := 0
  src : Nat := 0
  sdie : Nat := 0
  ddie : Nat := 0
  dst : Nat := 0
  body : List Nat := []
  deriving DecidableEq, Repr

/-- An 8-byte unit that waits at a sender (R253); the last one of a message names it. -/
structure LinkUnit where
  value : Nat
  last : Option LinkMsg := none
  deriving DecidableEq, Repr

/-- A flit in a replay buffer (R256): its seq, the module that carried it, its bytes. -/
structure ReplayFlit where
  seq : Nat
  module : Nat
  flit : List Byte
  deriving DecidableEq, Repr

/-- One end of a bundle (R252 to R259). Receiver: next sequence number, flits held for reordering, the units of an unfinished message per channel,
the messages delivered to this die, nak and acknowledgement owed, credits owed per channel. Sender: next sequence number, units waiting per
channel, turns of the memory channel, place in the module rotation, replay buffer, flits to be sent again, messages not acknowledged with the
seq of their last flit, credits held per channel, what was sent with its module. -/
structure LinkEnd_ where
  modules : Map LinkModule := []
  rxNext : BitVec 12 := 0
  held : Map (List Byte) := []
  rxPart : Map (List Nat) := []
  inbox : List LinkMsg := []
  nak : Bool := false
  owesAck : Bool := false
  owedCredits : Map Nat := []
  txNext : BitVec 12 := 0
  outq : Map (List LinkUnit) := []
  turn : Nat := 0
  rot : Nat := 0
  replay : List ReplayFlit := []
  resend : List (List Byte) := []
  unacked : List (Nat × LinkMsg) := []
  credits : Map Nat := [(0, 384), (1, 512), (2, 32), (3, 32)]
  sent : List (Nat × List Byte) := []
  handover : Bool := false
  cntReplayed : Word := 0
  cntChecks : BitVec 16 := 0
  cntReroutes : BitVec 16 := 0
  deriving DecidableEq, Repr

/-- A fabric port (R264 to R270, R277, R286). state codes of FAB_PSTAT: 0 disabled, 1 training, 2 up, 3 retraining, 4 down, 5 miscabled.
outq holds whole packets that wait, cut the bytes of a class's packet that is begun, replay and resend flits by seq; tc3Gap counts the flits before
TC3 may send again, tc2Wait those that passed waiting TC2; rrClass and rrLeft are the turn of J6 mode; sent logs packet, idle and link-control flits
sent, timeSent time flits; timeDiff is the module's time at the latest time flit's arrival less the time that it carried (R280). -/
structure Port where
  state : BitVec 3 := 0
  width : BitVec 2 := 0
  j6 : Bool := false
  upstream : Bool := false
  trainFail : BitVec 3 := 0
  partner : BitVec 16 := 0
  cfg : Word := 0x00840401
  rxNext : BitVec 12 := 0
  nak : Bool := false
  owed : Map Nat := []
  credits : Map Nat := []
  txNext : BitVec 12 := 0
  replay : List (Nat × List Byte) := []
  resend : List (Nat × List Byte) := []
  partial_ : Map (List Byte) := []
  rx : List Packet := []
  outq : List Packet := []
  cut : Map (List Byte) := []
  owesAck : Bool := false
  tc3Gap : Nat := 0
  tc2Wait : Nat := 0
  rrClass : Nat := 0
  rrLeft : Nat := 0
  sent : List (List Byte) := []
  timeDiff : Int := 0
  replays : Word := 0
  retrains : BitVec 16 := 0
  violations : BitVec 16 := 0
  replayTimes : List Nat := []
  violTimes : List Nat := []
  timeSent : List (List Byte) := []
  deriving DecidableEq, Repr

/-- What the start tree holds of a job's Beacon (R282 to R285, R368). change is set while it carries a frequency change. -/
structure Beacon where
  arm : Option BeaconMsg := none
  light : Bool := false
  sent : Bool := false
  root : Bool := false
  ownStatus : BitVec 16 := 0
  acks : Map (Nat × Nat) := []
  change : Bool := false
  seq : Word := 0
  request : Option Request := none
  deriving DecidableEq, Repr

/-- A module seen by the discovery root on a plane (R274): what its PROBE_REPLY says, and the root's port and route that reached it.
ports is the mask of its local ports that are up, arrival the one the probe came in by. -/
structure Discovered where
  serial : Nat
  slot : Nat
  plane : Nat
  ports : Nat
  arrival : Nat
  beaconLo : Nat
  beaconHi : Nat
  node : Nat
  rootPort : Nat
  route : List Nat
  deriving DecidableEq, Repr

/-- A cable of a plane as the walk found it: the modules and local ports of its ends. -/
structure Cable where
  plane : Nat
  a : Nat
  ap : Nat
  b : Nat
  bp : Nat
  deriving DecidableEq, Repr

/-- A PROBE that is not answered: its tag, the root's port and the route, the module and local port it asks beyond. -/
structure ProbeOut where
  tag : Nat
  rootPort : Nat
  route : List Nat
  serial : Nat
  port : Nat
  deriving DecidableEq, Repr

/-- Fabric state of the module. root is the registered discovery root's node ID, 0 none; joining: the module has joined the tree and
not yet taken its upstream's time; the fields from plan to written are the walk of a discovery root: walkFresh the modules that got their node ID in
this walk, written the CONFIG contents last sent to a module; hdCap
is the HD's capability word (Table 11-8). -/
structure Fabric where
  hpHeard : Map (BitVec 3 × BitVec 3) := []
  node : BitVec 16 := 0
  inTree : Bool := false
  holdover : Bool := false
  unsync : Bool := false
  holdSince : Option Nat := none
  refHoldover : Bool := false
  root : BitVec 16 := 0
  isRoot : Bool := false
  upstream : Option Nat := none
  reserve : Option Nat := none
  newNode : Option (BitVec 16) := none
  newUpstream : Option Nat := none
  newReserve : Option Nat := none
  beaconVersion : Nat := 1
  joining : Bool := false
  plan : Map (BitVec 16) := []
  walking : Bool := false
  found : List Discovered := []
  cables : List Cable := []
  probes : List ProbeOut := []
  walkTag : BitVec 16 := 0
  walkFresh : List Nat := []
  written : Map (List (List Byte × List Byte)) := []
  mgmt : List Packet := []
  offset : Int := 0
  linkDelay : Nat := 0
  beacon : Beacon := {}
  commonAdr : BitVec 16 := 0
  commonFeatures : Word := 0
  newer : BitVec 5 := 0
  proto : BitVec 16 := 0
  hdCap : Option CapWord := none
  deriving DecidableEq, Repr

/-! ## Host die (14) and ordering (08) -/

/-- A write-combining buffer (R181). -/
structure WcBuf where
  valid : Bool := false
  line : Nat := 0
  key : Nat := 0
  mask : BitVec 128 := 0
  data : List Byte := []
  deriving DecidableEq, Repr

/-- A hart as far as the rows reach it: jlcfg, write-combining buffers, lowest
address of an undelivered abandoned store, the last exception taken (cause and value), reservation. -/
structure Hart where
  kidEn : Bool := false
  uinval : Bool := false
  wc : Map WcBuf := []
  pendErr : Option Nat := none
  cause : Option Nat := none
  tval : Nat := 0
  reservation : Option Nat := none
  deriving DecidableEq, Repr

/-- What the latest read or access returned to its agent: the model's own output, not the spec's state. -/
inductive Reply where
  | none
  | bytes (l : List Byte)
  | done
  | discarded
  | unsupported
  | completerAbort
  | fault (cause : Nat)
  deriving DecidableEq, Repr

/-- A domain of the APLIC (R317; PRESUMED: the registers of the RISC-V Advanced Interrupt Architecture): domaincfg.IE, sourcecfg, enabled and pending
sources, targets. -/
structure Aplic where
  ie : Bool := false
  source : Map Word := []
  enabled : DWord := 0
  pending : DWord := 0
  target : Map Word := []
  deriving DecidableEq, Repr

/-- The host die. restarts holds the times of host restarts; bars the addresses assigned to PE0's BARs; imsicM and imsicS the identities
pending in each hart's interrupt files. -/
structure Host_ where
  harts : Map Hart := []
  intSteer : Map Word := []
  msixTable : Map (List Byte) := []
  msixEnable : Bool := false
  msixPba : Map Bool := []
  msixSent : List Nat := []
  wired : DWord := 0
  aplicM : Aplic := {}
  aplicS : Aplic := {}
  imsicM : Map (List Nat) := []
  imsicS : Map (List Nat) := []
  winBase : DWord := 0
  regwin : Word := 0
  readAhead : List SideLine := []
  dma : Map DWord := []
  pe1Win : DWord := 0
  pe1Root : Bool := true
  pe1RoleNew : Bool := true
  pe0Ready : Bool := false
  pe0Link : Bool := false
  perst1Driven : Bool := false
  bars : Map DWord := []
  hbEnable : Bool := false
  hbPeriod : BitVec 14 := 0
  missed : BitVec 4 := 0
  restarts : List Nat := []
  restarting : Bool := false
  bar2Discarded : Nat := 0
  cpuStep : BitVec 4 := 13
  reply : Reply := .none
  deriving DecidableEq, Repr

/-! ## Lantern (15), jobs, power (16), security (17), service (18), pins (19) -/

/-- A response on its way: its transport's source, the message, and whether delivering it ends an outstanding request (R336, R337). -/
structure Response where
  src : Source
  msg : List Byte
  counts : Bool
  deriving DecidableEq, Repr

/-- A mailbox (R329 to R341). Index 0 OS, 1 EH, 2 MG. reqBufs holds the request buffers' bytes; held the messages accepted while no
firmware takes requests (R402); rsp the response buffer. throttleNext is the time from which a throttled mailbox takes its next
request; sentMg is what went out on the MG transports, i3cOut what waits on I3C for delivery (R419). -/
structure Mailbox where
  free : BitVec 4 := 0xF
  reqBufs : Map (List Byte) := []
  held : List (Source × List Byte) := []
  outstanding : List (Source × Nat) := []
  rsp : Option Response := none
  rspQueue : List Response := []
  evtHead : Word := 0
  evtTail : Word := 0
  evtLost : Word := 0
  lostFlag : Bool := false
  evtMask : BitVec 16 := 0xFFFF
  ring : Map (List Byte) := []
  irq : Word := 0
  malformed : Word := 0
  malformedAll : Word := 0
  malTimes : List Nat := []
  throttled : Bool := false
  throttleNext : Nat := 0
  dropped : Word := 0
  sentMg : List (Source × List Byte) := []
  i3cOut : List Response := []
  deriving DecidableEq, Repr

/-- A request received and waiting for its turn (R342). -/
structure Waiting where
  command : Nat
  req : Request
  deriving DecidableEq, Repr

/-- The job (R346, Table 06-13). state codes of Table 06-13; comm the rank-to-node table; resuming: JOB_RESUME has armed it; settling: stopped, while a write
of it is neither performed nor abandoned, stopFrom the state that is still read, aborting the request answered then (R201); freqNew a
frequency change and its time (R368), freqAt the frame instance plus 1 at which a die switched. -/
structure Job where
  handle : Nat
  owner : Nat
  jobId : BitVec 128
  state : BitVec 8 := 0
  seed : DWord
  code : Nat
  bypass : Bool
  waymask : DWord
  keys : List Nat
  flags : NumFlags := {}
  timingLost : Bool := false
  kernelIncomplete : Bool := false
  tileLost : Bool := false
  failStatus : BitVec 16 := 0
  failDie : BitVec 8 := 0
  failPos : DWord := 0
  slipCause : BitVec 8 := 0
  slipDie : BitVec 8 := 0
  slipSlot : DWord := 0
  slipEvents : Word := 0
  causeMask : Word := 0
  aborted : Word := 0
  slipMax : DWord := 0
  slipDies : Map Nat := []
  digest : List Byte := []
  tilesReq : List Nat := []
  degradedOk : Bool := false
  rank : Nat := 0
  nranks : Nat := 1
  comm : List Nat := []
  image : List Byte := []
  epoch : Option Nat := none
  suspending : Option Request := none
  settling : Bool := false
  stopFrom : BitVec 8 := 0
  aborting : Option Request := none
  resuming : Bool := false
  freqNew : Option (Nat × Nat) := none
  freqReq : Option Request := none
  freqAt : Map Nat := []
  deriving DecidableEq, Repr

/-- The Lantern's control state. -/
structure Lantern where
  boxes : Map Mailbox := []
  waiting : List Waiting := []
  halting : List Request := []
  haltBusy : Bool := false
  handles : Nat := 0
  job : Option Job := none
  defaultCode : Nat := 0
  dtlsOpen : BitVec 4 := 0
  handover : Bool := false
  rom : Bool := false
  deriving DecidableEq, Repr

/-- Module states (Table 16-9). -/
inductive ModuleState where
  | active | idle | pilot | off
  deriving DecidableEq, Repr

/-- Power of one tile die: TCLK code, divider causes (each a ratio code of Table 16-2), rail target, announced phases. -/
structure DiePower where
  code : Nat := 0
  droop : Bool := false
  thermal : Nat := 0
  deep : Bool := false
  railMv : Nat := 720
  phases : Nat := 16
  throttled : Bool := false
  deriving DecidableEq, Repr

/-- Power, clocks, thermal (16). pilot is the pilot code of the M-PILOT entry, 0 outside it. -/
structure Power where
  state : ModuleState := .off
  pilot : BitVec 16 := 0
  cap : Nat := 3400
  /-- The cap before the last change, and the time from which the limits of R359 hold the new one. -/
  capOld : Nat := 3400
  capFrom : Nat := 0
  level : Nat := 40
  volts : BitVec 16 := 0
  amps : BitVec 16 := 0
  watts : BitVec 16 := 0
  avg : BitVec 16 := 0
  capRatio : Nat := 0
  capShort : Bool := false
  overSince : Option Nat := none
  capEnd : Option Nat := none
  capForced : Bool := false
  underVolt : Bool := false
  brakeIn : Bool := false
  brake : Bool := false
  brakeRatio : Nat := 0
  cpuBrake : Nat := 0
  releasing : Bool := false
  held : BitVec 3 := 0
  onset : Option Nat := none
  toggle : Bool := false
  brakeRecorded : Bool := false
  hdThermal : Nat := 0
  hdThrottled : Bool := false
  dies : Map DiePower := []
  rails : Map DWord := []
  modCfg : Word := 0x14
  temps : DWord := 0
  deriving DecidableEq, Repr

/-- A key ID (Table 17-4, SEC_KID_k). state: 0 free, 1 os, 2 job, 3 keep, 4 sealed, 5 destroying. -/
structure KeySlot where
  state : BitVec 3 := 0
  bar2 : Bool := false
  pe1 : Bool := false
  policy : BitVec 3 := 0
  gen : BitVec 24 := 0
  deriving DecidableEq, Repr

/-- What sealing recorded of a kept key (R388, R389). -/
structure Sealed where
  key : Nat
  os : List Byte
  signer : List Byte
  svn : Nat
  ownerRoot : List Byte
  deriving DecidableEq, Repr

/-- A kept region and its preservation record (R244, R247). state: 0 intact, 1 torn, 2 erased, 3 released. -/
structure Region where
  base : Nat
  size : Nat
  key : Nat
  state : Nat := 0
  deriving DecidableEq, Repr

/-- Roles of owner-store certificates (R390). -/
inductive CertRole where
  | image | os | management | debug
  deriving DecidableEq, Repr

/-- A pending challenge (R390): 48 bytes, level or target it is for, and whether it is a debug challenge. -/
structure Challenge where
  src : Source
  bytes : List Byte
  target : Nat
  debug : Bool
  deriving DecidableEq, Repr

/-- Security (17). uds, CDIs and private keys are not held: no path returns them (R378, R384). -/
structure Security where
  lifecycle : BitVec 2 := 0
  level : BitVec 2 := 0
  session : Bool := false
  sessionVia : Source := .eh
  debugActive : Bool := false
  store : List (CertRole × List Byte) := []
  storeSeq : Word := 0
  storeOn : Bool := false
  /-- What the alias key belongs to (Table 17-1), since the last pass through the ROM. -/
  aliasOf : List Byte := []
  ownerRoot : List Byte := List.replicate 48 0
  deviceCert : List Byte := []
  keys : Map KeySlot := []
  sealedKeys : List Sealed := []
  regions : List Region := []
  record : List Region := []
  releasedBoot : Bool := false
  releasedCount : BitVec 8 := 0
  challenges : List Challenge := []
  osDigest : List Byte := List.replicate 48 0
  osSigner : List Byte := List.replicate 48 0
  restartCount : BitVec 8 := 0
  rebootPending : Bool := false
  deriving DecidableEq, Repr

/-- A log entry's content before its 64-byte form (Table 18-10). -/
structure LogEntry where
  seq : Nat
  boot : Nat
  time : Nat
  event : List Byte
  detail : List Byte
  deriving DecidableEq, Repr

/-- One log ring (Table 18-9). -/
structure LogRing where
  next : Nat := 0
  lost : Bool := false
  entries : List LogEntry := []
  deriving DecidableEq, Repr

/-- Firmware, flash and logs (18). fwState codes of FW_STATUS; discarded holds the lines that a drain cut off (R199) until the reset
logs them. -/
structure Service where
  flash : List Byte := []
  running : List Byte := []
  staging : List Byte := []
  staged : Bool := false
  fwState : BitVec 3 := 0
  recovered : Bool := false
  flashMatch : Bool := false
  minSvn : Nat := 0
  activating : Option Request := none
  logs : Map LogRing := []
  logsFlash : Map LogRing := []
  boots : Nat := 0
  resetCause : Nat := 0
  discarded : List Nat := []
  baseline : Map LaneResult := []
  deriving DecidableEq, Repr

/-- Pins and side interfaces (19). jtagIr holds 1 + the instruction code of a TAP, 0 for IDCODE, which TRST_N selects; jtagOut what the latest
shift returned; spdmOut the latest SPDM message, spdmVersion its negotiated version code. -/
structure Pins where
  resetN : Bool := true
  inputOk : Bool := false
  thermtrip : Bool := false
  slotId : BitVec 6 := 0
  slotIdNew : BitVec 6 := 0
  refclk : Bool := true
  i3cAddr : Option (BitVec 7) := none
  /-- What the I3C target put on the bus at ENTDAA. -/
  i3cPid : Word := 0
  jtagIr : Map Nat := []
  jtagOut : List Bool := []
  spdmOut : List Byte := []
  spdmVersion : Nat := 0
  spdmNegotiated : Bool := false
  deriving DecidableEq, Repr

/-- Access log of R25, R230, R195, R236 entries: kind of record, address, agent, memory type (0 Normal, 1 Normal-NC, 2 Device). -/
structure AccessLog where
  kind : Nat
  addr : Nat
  agent : Nat
  mtype : Nat
  deriving DecidableEq, Repr

/-- The module. timeNs is the global time (R280); lnVariant marks JN8-3K4-LN (R2); freeCount is the model's own field, the index of
the next free value (Config.freeValue); pending is the queue of commands. -/
structure State where
  lnVariant : Bool := false
  timeNs : Nat := 0
  pool : Pool := {}
  dies : Map Die := []
  tiles : Map Tile := []
  links : Map LinkEnd_ := []
  ports : Map Port := []
  fabric : Fabric := {}
  host : Host_ := {}
  lantern : Lantern := {}
  power : Power := {}
  sec : Security := {}
  svc : Service := {}
  pins : Pins := {}
  access : List AccessLog := []
  freeCount : Nat := 0
  pending : List Instr := []
  deriving DecidableEq, Repr

/-- The module right after reset: no input power, every register at its reset value (field defaults above), queue empty. -/
def State.reset : State := {}

end Sys2Proof.Machine
end

