-- ==== Sys2Proof/Machine/Ops.lean ====
section
/-! DEFINITION. The named operations over the module's state: accessors, free values, events and logs (15, 18), interrupts
(14), mailbox responses (15). Every command's meaning reads and writes the state through these. -/
namespace Sys2Proof.Machine

/-- The outcome of a command that has an effect. -/
abbrev Out := Host.Outcome State Fault Refusal

/-! ## Accessors -/

/-- A tile die. -/
def State.die (s : State) (d : Nat) : Die := Map.get {} s.dies d

/-- Change a tile die. -/
def State.modDie (s : State) (d : Nat) (f : Die → Die) : State := { s with dies := Map.put {} s.dies d (f (s.die d)) }

/-- Logical tile t of TDd. -/
def State.tile (s : State) (d t : Nat) : Tile := Map.get {} s.tiles (128 * d + t)

/-- Change a tile. -/
def State.modTile (s : State) (d t : Nat) (f : Tile → Tile) : State :=
  { s with tiles := Map.put {} s.tiles (128 * d + t) (f (s.tile d t)) }

/-- A stack or capacity controller. -/
def State.ctrl (s : State) (c : Nat) : MemCtrl := Map.get {} s.pool.ctrls c

/-- Change a controller. -/
def State.modCtrl (s : State) (c : Nat) (f : MemCtrl → MemCtrl) : State :=
  { s with pool := { s.pool with ctrls := Map.put {} s.pool.ctrls c (f (s.ctrl c)) } }

/-- A bundle end. -/
def State.link (s : State) (e : Nat) : LinkEnd_ := Map.get {} s.links e

/-- Change a bundle end. -/
def State.modLink (s : State) (e : Nat) (f : LinkEnd_ → LinkEnd_) : State :=
  { s with links := Map.put {} s.links e (f (s.link e)) }

/-- A fabric port. -/
def State.port (s : State) (p : Nat) : Port := Map.get {} s.ports p

/-- Change a fabric port. -/
def State.modPort (s : State) (p : Nat) (f : Port → Port) : State :=
  { s with ports := Map.put {} s.ports p (f (s.port p)) }

/-- A hart. -/
def State.hart (s : State) (h : Nat) : Hart := Map.get {} s.host.harts h

/-- Change a hart. -/
def State.modHart (s : State) (h : Nat) (f : Hart → Hart) : State :=
  { s with host := { s.host with harts := Map.put {} s.host.harts h (f (s.hart h)) } }

/-- A mailbox: 0 OS, 1 EH, 2 MG. -/
def State.box (s : State) (b : Nat) : Mailbox := Map.get {} s.lantern.boxes b

/-- Change a mailbox. -/
def State.modBox (s : State) (b : Nat) (f : Mailbox → Mailbox) : State :=
  { s with lantern := { s.lantern with boxes := Map.put {} s.lantern.boxes b (f (s.box b)) } }

/-- Power state of a tile die. -/
def State.diePower (s : State) (d : Nat) : DiePower := Map.get {} s.power.dies d

/-- Change a die's power state. -/
def State.modDiePower (s : State) (d : Nat) (f : DiePower → DiePower) : State :=
  { s with power := { s.power with dies := Map.put {} s.power.dies d (f (s.diePower d)) } }

/-- A key ID. -/
def State.keySlot (s : State) (k : Nat) : KeySlot := Map.get {} s.sec.keys k

/-- Change a key ID. -/
def State.modKey (s : State) (k : Nat) (f : KeySlot → KeySlot) : State :=
  { s with sec := { s.sec with keys := Map.put {} s.sec.keys k (f (s.keySlot k)) } }

/-- A work queue of TDd. -/
def State.wq (s : State) (d q : Nat) : Wq := Map.get {} (s.die d).wqs q

/-- Change a work queue. -/
def State.modWq (s : State) (d q : Nat) (f : Wq → Wq) : State :=
  s.modDie d (fun x => { x with wqs := Map.put {} x.wqs q (f (s.wq d q)) })

/-- A collective engine. -/
def State.ce (s : State) (d e : Nat) : Ce := Map.get {} (s.die d).ces e

/-- Change a collective engine. -/
def State.modCe (s : State) (d e : Nat) (f : Ce → Ce) : State :=
  s.modDie d (fun x => { x with ces := Map.put {} x.ces e (f (s.ce d e)) })

/-- Set what the latest access returned. -/
def State.reply (s : State) (r : Reply) : State := { s with host := { s.host with reply := r } }

/-- A log ring. -/
def State.log (s : State) (l : Nat) : LogRing := Map.get {} s.svc.logs l

/-- Change the job, if there is one. -/
def State.modJob (s : State) (f : Job → Job) : State :=
  { s with lantern := { s.lantern with job := s.lantern.job.map f } }

/-- State of the job by Table 06-13; 0 when there is none. -/
def State.jobState (s : State) : Nat := match s.lantern.job with | some j => j.state.toNat | none => 0

/-- The state of a job as it reads (R201): an aborted or failed job keeps its former state until its writes are performed or abandoned. -/
def Job.shown (j : Job) : BitVec 8 := if j.settling then j.stopFrom else j.state

/-- A job exists in state 0 to 4 (the state rule of Table 15-6). -/
def State.jobBlocks (s : State) : Bool := match s.lantern.job with | some j => decide (j.shown.toNat ≤ 4) | none => false

/-- Is any work queue enabled? -/
def State.queueEnabled (s : State) : Bool := s.dies.any (fun e => e.2.wqs.any (fun w => w.2.enable))

/-! ## Power domains (R30, Table 01-11) -/

/-- The power domains of Table 01-11; PE0 and PE1 share PD_PCIE, whose condition in M-PILOT differs between them. PD_TILE and PD_NOC stand for
those of the four dies, which have one condition. -/
inductive Domain where
  | aon | lnt | pe0 | pe1 | cpu | unc | tile | noc | d2d | fab | hbm | lp | dbg
  deriving DecidableEq, Repr

/-- The conditions that Table 01-11 names. -/
inductive DomainState where
  | on | perTile | doze | gated | lowPower | selfRefresh | off
  deriving DecidableEq, Repr

/-- Memory of a tier in M-PILOT: in self-refresh, or off after a failed start from M-OFF (R397). -/
def State.pilotMemory (s : State) (c : Nat) : DomainState := if (s.ctrl c).selfRefresh then .selfRefresh else .off

/-- Condition of a domain by the module state (Table 01-11). -/
def State.domain (s : State) (x : Domain) : DomainState :=
  match s.power.state with
  | .off => .off
  | .active =>
    match x with
    | .tile => .perTile
    | .lp => if s.lnVariant then .off else .on
    | .dbg => if s.sec.session then .on else .off
    | _ => .on
  | .idle =>
    match x with
    | .tile => .doze
    | .noc => .gated
    | .d2d => .lowPower
    | .fab => .lowPower
    | .hbm => .selfRefresh
    | .lp => if s.lnVariant then .off else .selfRefresh
    | .dbg => if s.sec.session then .on else .off
    | _ => .on
  | .pilot =>
    match x with
    | .aon => .on
    | .lnt => .on
    | .pe0 => .on
    | .hbm => s.pilotMemory 0
    | .lp => if s.lnVariant then .off else s.pilotMemory 12
    | .dbg => if s.sec.session then .on else .off
    | _ => .off

/-- Is a domain powered? -/
def State.domainOn (s : State) (x : Domain) : Bool := decide (s.domain x ≠ .off)

/-- The next free value of width w: a value the spec leaves open. -/
def State.free (s : State) (w : Nat) : BitVec w × State :=
  (Config.freeValue w s.freeCount, { s with freeCount := s.freeCount + 1 })

/-! ## Interrupts (R317, R318, R325) -/

/-- An MSI-X table entry's mask bit. PRESUMED (PCIe): an entry is masked at reset. -/
def State.msixMasked (s : State) (v : Nat) : Bool :=
  bit (leNat (bytesAt (Map.get (zeros 12 ++ [1, 0, 0, 0]) s.host.msixTable v) 12 4)) 0

/-- Identity pending in the S-level file of a hart. -/
def State.imsicPend (s : State) (h ident : Nat) : State :=
  let l := Map.get [] s.host.imsicS h
  if l.contains ident then s else { s with host := { s.host with imsicS := Map.put [] s.host.imsicS h (l ++ [ident]) } }

/-- An M-level identity becomes pending. -/
def State.imsicPendM (s : State) (h ident : Nat) : State :=
  let l := Map.get [] s.host.imsicM h
  if l.contains ident then s else { s with host := { s.host with imsicM := Map.put [] s.host.imsicM h (l ++ [ident]) } }

/-- A domain of the APLIC: the S-level child, or the root. -/
def Host_.aplic (h : Host_) (child : Bool) : Aplic := if child then h.aplicS else h.aplicM

/-- Change a domain of the APLIC. -/
def State.modAplic (s : State) (child : Bool) (f : Aplic → Aplic) : State :=
  { s with host := if child then { s.host with aplicS := f s.host.aplicS } else { s.host with aplicM := f s.host.aplicM } }

/-- Send the MSI that a target word names: hart index in bits 31 to 18, identity in bits 10 to 0 (PRESUMED, RISC-V AIA). -/
def State.aplicMsi (s : State) (child : Bool) (target : Nat) : State :=
  let h := slice target 31 18
  let i := slice target 10 0
  if 96 ≤ h ∨ i = 0 then s else if child then s.imsicPend h i else s.imsicPendM h i

/-- A pending source that is enabled, in a domain that is, goes out as an MSI and is no longer pending (R317: MSI delivery mode only; PRESUMED, RISC-V
AIA). -/
def State.aplicSend (s : State) (child : Bool) (n : Nat) : State :=
  let a := s.host.aplic child
  if a.ie && a.enabled.getLsbD n && a.pending.getLsbD n then
    (s.modAplic child (fun a => { a with pending := a.pending &&& ~~~BitVec.ofNat 64 (2 ^ n) })).aplicMsi child (Map.get 0 a.target n).toNat
  else s

/-- Does a domain's source go to its child, and is it active there (PRESUMED, RISC-V AIA)? -/
def Host_.sourceDomain (h : Host_) (n : Nat) : Bool := bit (Map.get 0 h.aplicM.source n).toNat 10

/-- A source becomes pending in the domain that has it, when it is active there. -/
def State.aplicPend (s : State) (child : Bool) (n : Nat) : State :=
  if n = 0 ∨ 64 ≤ n ∨ (Map.get 0 (s.host.aplic child).source n).toNat % 8 = 0 ∨ bit (Map.get 0 (s.host.aplic child).source n).toNat 10 then s
  else (s.modAplic child (fun a => { a with pending := a.pending ||| BitVec.ofNat 64 (2 ^ n) })).aplicSend child n

/-- A wired source of Table 14-4 is raised: its input is seen high, and a source that detects a rising edge or a high level becomes pending in its
domain. -/
def State.raiseWired (s : State) (n : Nat) : State :=
  let s := { s with host := { s.host with wired := s.host.wired ||| BitVec.ofNat 64 (2 ^ n) } }
  let child := s.host.sourceDomain n
  let mode := (Map.get 0 (s.host.aplic child).source n).toNat % 8
  if mode = 4 ∨ mode = 6 then s.aplicPend child n else s

/-- Send PE0 vector v: steered to an IMSIC when INT_STEER_v says so (R318); else sent on PE0 while MSI-X Enable is 1, or kept
pending in the PBA while its entry is masked (PRESUMED, PCIe); with MSI-X Enable 0 it is lost (R325). -/
def State.sendMsix (s : State) (v : Nat) : State :=
  let st := (Map.get 0 s.host.intSteer v).toNat
  if bit st 0 then
    if 96 ≤ slice st 7 1 then { s with access := s.access ++ [⟨6, v, 16 * slice st 7 1, 2⟩] }
    else if slice st 18 8 = 0 then s
    else s.imsicPend (slice st 7 1) (slice st 18 8)
  else if !s.host.msixEnable then s
  else if s.msixMasked v then { s with host := { s.host with msixPba := Map.put false s.host.msixPba v true } }
  else { s with host := { s.host with msixSent := s.host.msixSent ++ [v] } }

/-! ## Events and logs (R334, R350, R411, R412) -/

/-- Capacity of a log (Table 18-9). -/
def logSize (l : Nat) : Nat := match l with | 0 => 16384 | 1 => 1024 | _ => 4096

/-- An event record of Table 15-9 with severity, source byte, flags and arguments. -/
def eventRecord (time code sev src flags : Nat) (args : List Byte) : List Byte :=
  leBytes 2 code ++ leBytes 1 sev ++ leBytes 1 src ++ leBytes 1 flags ++ zeros 3 ++ leBytes 8 time ++ bytesAt args 0 16

/-- Append to a log ring: the oldest entry goes when the ring is full, and the next entry then carries flag bit 0 (R411). -/
def LogRing.append (r : LogRing) (size boot time : Nat) (event detail : List Byte) : LogRing :=
  let flagged := if r.lost then event.set 4 (event.getD 4 0 ||| 1) else event
  let e : LogEntry := ⟨r.next, boot, time, flagged, bytesAt detail 0 16⟩
  let full := decide (size ≤ r.entries.length)
  { next := r.next + 1, lost := full, entries := (if full then r.entries.drop 1 else r.entries) ++ [e] }

/-- Append an entry to log l. -/
def State.logAdd (s : State) (l : Nat) (event detail : List Byte) : State :=
  { s with svc := { s.svc with
      logs := Map.put {} s.svc.logs l ((s.log l).append (logSize l) s.svc.boots s.timeNs event detail) } }

/-- A log entry that is no event: an event record of code 0 carrying the arguments. -/
def State.logNote (s : State) (l : Nat) (args : List Byte) : State := s.logAdd l (eventRecord s.timeNs 0 0 0 0 args) []

/-- Continuation entries of a reset entry: six line addresses each at bytes 16 to 63 (Table 18-10). -/
def State.logLines : Nat → State → List Nat → State
  | 0, s, _ => s
  | n + 1, s, l =>
    if l.isEmpty then s
    else
      let b := bytesAt ((l.take 6).map (fun x => leBytes 8 (128 * x))).flatten 0 48
      State.logLines n (s.logAdd 1 (b.take 32) (b.drop 32)) (l.drop 6)

/-- A reset-log entry of the given cause with the lines a drain discarded (R199, Table 18-10): their count, the first 64 addresses. -/
def State.logReset (s : State) (cause : Nat) (lines : List Nat) : State :=
  let s := s.logAdd 1 (eventRecord s.timeNs 0 0 0 0 [])
    (leBytes 1 cause ++ zeros 3 ++ leBytes 4 lines.length ++ leBytes 8 (128 * lines.headD 0))
  State.logLines 11 s ((lines.take 64).drop 1)

/-- Is the module in M-PILOT? -/
def State.inPilot (s : State) : Bool := decide (s.power.state = .pilot)

/-- Append a record to the event ring of a register mailbox (R334), with its notification. -/
def State.ringAppend (s : State) (b code : Nat) (rec : Nat → List Byte) : State :=
  let m := s.box b
  if !m.evtMask.getLsbD (code / 4096) then s
  else if (m.evtHead - m.evtTail).toNat = 256 then
    s.modBox b (fun m => { m with evtLost := BitVec.ofNat 32 (satAdd 32 m.evtLost.toNat 1), lostFlag := true })
  else
    let s := s.modBox b (fun m => { m with
      ring := Map.put [] m.ring (m.evtHead.toNat % 256) (rec (b2n m.lostFlag)), evtHead := m.evtHead + 1, lostFlag := false })
    if b = 0 then s.raiseWired 2
    else if bit m.irq.toNat 23 then s.sendMsix (slice m.irq.toNat 21 11) else s

/-- Header of a message (Table 15-3). -/
def header (version flags command tag status length pilot handle : Nat) : List Byte :=
  leBytes 1 version ++ leBytes 1 flags ++ leBytes 2 command ++ leBytes 2 tag ++ leBytes 2 status ++ leBytes 2 length ++
    leBytes 2 pilot ++ leBytes 4 handle

/-- The highest Yesia version of the running firmware (Table 18-6, byte 0x015); min_version stands below it. -/
def State.yesiaMax (s : State) : Nat := if s.svc.running.isEmpty then 1 else (bytesAt s.svc.running 0x15 1).headD 0 |>.toNat

/-- The lowest Yesia version served; the ROM responder serves version 1 (DESIGN CHOICE: the spec gives it none). -/
def State.yesiaMin (s : State) : Nat := if s.svc.running.isEmpty then 1 else (bytesAt s.svc.running 0x14 1).headD 0 |>.toNat

/-- Sources of the MG mailbox that are connected: I3C once it has a dynamic address, and open DTLS associations. -/
def State.mgSources (s : State) : List Source :=
  (if s.pins.i3cAddr.isSome then [Source.i3c] else []) ++
    ((List.finRange 4).filter (fun k => s.lantern.dtlsOpen.getLsbD k.val)).map Source.dtls

/-- Pilot field of a response (R338). -/
def State.pilotField (s : State) : Nat := if s.inPilot then s.power.pilot.toNat else 0

/-- The log that an event's content belongs in beside the error log (Table 18-9). -/
def eventLog (code : Nat) : Option Nat :=
  match code with
  | 0x2001 => some 2
  | 0x2002 => some 2
  | 0x2003 => some 2
  | 0x3002 => some 2
  | 0x4001 => some 2
  | 0x7001 => some 3
  | 0x7002 => some 3
  | 0x8002 => some 3
  | _ => none

/-- Raise an event (R350): delivered to every mailbox whose mask enables its class, in M-PILOT to EH and MG; severity 2 or 3
also enters the error log (severity is a free value of Config: Table 15-10 gives none), repairs and fences the repair log, key and
debug events and firmware steps the security log (Table 18-9). -/
def State.event (s : State) (code src : Nat) (args : List Byte) : State :=
  let sev := (Config.severity code).toNat
  let rec_ := fun fl => eventRecord s.timeNs code sev src fl args
  let s := { s with svc := { s.svc with
      logs := if 2 ≤ sev then Map.put {} s.svc.logs 0 ((s.log 0).append (logSize 0) s.svc.boots s.timeNs (rec_ 0) [])
              else s.svc.logs } }
  let s := match eventLog code with | some l => s.logAdd l (rec_ 0) [] | none => s
  let s := if s.inPilot then s else s.ringAppend 0 code rec_
  let s := s.ringAppend 1 code rec_
  let msg := header s.yesiaMax 2 0 0xFFFF 0 32 s.pilotField 0 ++ rec_ 0
  let ks := s.mgSources
  s.modBox 2 (fun m => { m with
    sentMg := m.sentMg ++ (ks.filter (fun k => decide (k ≠ .i3c))).map (fun k => (k, msg)),
    i3cOut := m.i3cOut ++ (ks.filter (fun k => decide (k = .i3c))).map (fun k => ⟨k, msg, false⟩) })

/-- An event whose source is TDd, which also raises its APLIC source (Table 14-4). -/
def State.dieEvent (s : State) (d unit code : Nat) (args : List Byte) : State :=
  (s.event code (d + 8 * unit) args).raiseWired (9 + d)

/-- An event of the HD. -/
def State.hdEvent (s : State) (code : Nat) (args : List Byte) : State :=
  s.event code (4 + 8 * (Config.sourceUnit code).toNat) args

/-! ## The access log (R25, R195, R230, R231, R236) -/

/-- Memory type of an access by its address and agent (Table 08-3, R180): 0 Normal, 1 Normal-NC, 2 Device. A core's Normal-NC access to a tier is
told by its path instead. -/
def typeOf (addr agent : Nat) : Nat :=
  if addr < 0x060000000000 then 0
  else if 0x080000000000 ≤ addr ∧ addr < 0x080040000000 then (if agent % 16 = 0 then 1 else 0)
  else 2

/-- Log an access with its address, agent and memory type; the kinds 0 (unmapped) and 2 (abandoned or discarded store) also enter the error log.
Kinds: 0 unmapped, 1 read of a fenced line, 2 store abandoned or discarded, 3 repair window, 4 device load timeout,
5 PE1 access refused, 6 steered vector without a hart. -/
def State.logAccess (s : State) (kind addr agent : Nat) (mtype : Nat := typeOf addr agent) : State :=
  let s := { s with access := s.access ++ [⟨kind, addr, agent, mtype⟩] }
  if kind = 0 ∨ kind = 2 ∨ kind = 4 then s.logNote 0 (leBytes 8 addr ++ leBytes 2 agent ++ leBytes 1 mtype) else s

/-- The event of an abandoned or discarded store (0x2004), with its log entry. -/
def State.storeLost (s : State) (addr agent : Nat) (mtype : Nat := typeOf addr agent) : State :=
  (s.logAccess 2 addr agent mtype).hdEvent 0x2004 (leBytes 8 addr ++ leBytes 2 agent)

/-- A store that is lost without its agent being told at once stays pending for a hart or for the kernel of a tile (R195, R196, R231). -/
def State.storePend (s : State) (addr agent : Nat) : State :=
  let i := agent / 16
  match agent % 16 with
  | 0 => s.modHart i (fun x => { x with pendErr := some (match x.pendErr with | some a => min a addr | none => addr) })
  | 1 => s.modTile (i / 128) (i % 128) (fun k => if k.kernel.isSome then { k with barErr := k.barErr ++ [addr] } else k)
  | _ => s

/-! ## Responses (R331, R333, R335, R338) -/

/-- Mailbox of a source. -/
def boxOf (k : Source) : Nat := match k with | .os => 0 | .eh => 1 | .i3c => 2 | .dtls _ => 2

/-- A response notification of a register mailbox (Table 15-1). -/
def State.rspNotify (s : State) (b : Nat) : State :=
  let m := s.box b
  if b = 0 then s.raiseWired 1
  else if bit m.irq.toNat 22 then s.sendMsix (slice m.irq.toNat 10 0) else s

/-- A response of the MG mailbox goes out, which delivers it and ends its request's life (R329). -/
def Mailbox.sendOut (m : Mailbox) (x : Response) : Mailbox :=
  { m with
    sentMg := m.sentMg ++ [(x.src, x.msg)],
    outstanding := if x.counts then m.outstanding.filter (fun o => decide (o ≠ (x.src, fieldAt x.msg 4 2))) else m.outstanding }

/-- The I3C target delivers its oldest message to the tray controller, once it has a dynamic address (R330, R425). -/
def State.i3cDeliver (s : State) : State :=
  match (s.box 2).i3cOut with
  | [] => s
  | x :: r => if s.pins.i3cAddr.isNone then s else s.modBox 2 (fun m => ({ m with i3cOut := r } : Mailbox).sendOut x)

/-- Place a response in a mailbox's response path: the response buffer when it is free, else the queue (R333); on DTLS it is sent at once, on I3C it
waits for delivery. -/
def State.post (s : State) (x : Response) (atHead : Bool) : State :=
  let b := boxOf x.src
  if x.src = .i3c then s.modBox 2 (fun m => { m with i3cOut := m.i3cOut ++ [x] })
  else if b = 2 then s.modBox 2 (fun m => m.sendOut x)
  else if (s.box b).rsp.isSome then
    s.modBox b (fun m => { m with rspQueue := (if atHead then x :: m.rspQueue else m.rspQueue ++ [x]) })
  else (s.modBox b (fun m => { m with rsp := some x })).rspNotify b

/-- The response message to a request. -/
def State.rspMsg (s : State) (cmd : Nat) (r : Request) (tag status : Nat) (payload : List Byte) : List Byte :=
  header r.version.toNat 1 cmd tag status payload.length s.pilotField r.handle.toNat ++ payload

/-- The response to a request, discarded when the request is no longer outstanding (R325, R331); that of DEV_HALT goes to the head of the
queue (R333). -/
def State.respond (s : State) (cmd : Nat) (r : Request) (status : Nat) (payload : List Byte) : State :=
  if (s.box (boxOf r.src)).outstanding.contains (r.src, r.tag.toNat) then
    s.post ⟨r.src, s.rspMsg cmd r r.tag.toNat status payload, true⟩ (decide (cmd = 0x0103))
  else s

end Sys2Proof.Machine
end

