-- ==== Sys2Proof/Machine/Wake.lean ====
section
/-! DEFINITION. The brake setting (R360 to R362), tile stores through a power state (Table 04-6), self-refresh, and the wake from M-IDLE that a request
at a home, a doorbell or a packet brings about (R376). -/
namespace Sys2Proof.Machine

/-! ## Brake settings (R360, R362) -/

/-- PB in W. -/
def Power.pb (w : Power) : Nat := max (w.cap * w.level / 100) 1000

/-- The brake setting of Table 16-6. On JN8-3K4-LN the figures of JN8-3K4-LF are used (DEDUCED: "up to 40 W lower" gives no others). -/
def Power.brakeSet (w : Power) : Nat := if 2160 ≤ w.pb then 0 else if 1580 ≤ w.pb then 1 else if 1280 ≤ w.pb then 2 else 3

/-- The held code that PWR_STATUS reads: that of an under-voltage while it lasts (R354), else the brake's (R363). -/
def Power.heldCode (w : Power) : Nat := if w.underVolt then 3 else w.held.toNat

/-- The cap that the limits of R359 hold: a new one applies 1 ms after its response. -/
def Power.limit (w : Power) (time : Nat) : Nat := if time < w.capFrom then w.capOld else w.cap

/-- Tile ratio code of a brake setting (Tables 16-2 and 16-6). -/
def brakeTile (set : Nat) : Nat := match set with | 0 => 2 | 1 => 3 | 2 => 4 | _ => 5

/-- CPU ratio code of a brake setting. -/
def brakeCpuCode (set : Nat) : Nat := match set with | 0 => 2 | 1 => 2 | 2 => 3 | _ => 4

/-- Event 0x6001 and wired source 7. -/
def State.brakeEvent (s : State) (asserted held : Nat) : State :=
  (s.hdEvent 0x6001 (leBytes 1 asserted ++ leBytes 1 held)).raiseWired 7

/-- The brake setting is applied, with the held code of its event. -/
def State.brakeOn (s : State) (held : Nat) : State :=
  { s with power := { s.power with
    brake := true, brakeRatio := brakeTile s.power.brakeSet, cpuBrake := brakeCpuCode s.power.brakeSet, releasing := false,
    held := BitVec.ofNat 3 held } }.brakeEvent 1 held

/-! ## Tiles and memory through a power state -/

/-- A tile enters a state and loses what Table 04-6 says. -/
def Tile.enter (k : Tile) (p : TilePower) : Tile :=
  match p with
  | .doze => { k with power := .doze, plates := [], plateBad := [], oc := [], ocBad := [] }
  | .off => { k with power := .off, plates := [], plateBad := [], oc := [], ocBad := [], ts := [], tsBad := [] }
  | _ => { k with power := p }

/-- Put every present tile into a state. -/
def State.tilesEnter (s : State) (p : TilePower) : State :=
  { s with tiles := (s.tiles.map (fun e => (e.1, if e.2.power = .off then e.2 else e.2.enter p))).filter (fun e => decide (e.2 ≠ {})) }

/-- Set self-refresh of every controller. -/
def State.selfRefresh (s : State) (on : Bool) : State := (List.range 28).foldl (fun s c => s.modCtrl c (fun m => { m with selfRefresh := on })) s

/-- Wake from M-IDLE (R376, Table 16-10): tiles run, memory leaves self-refresh; a brake asserted meanwhile takes effect (R361). -/
def State.wake (s : State) : State :=
  if s.power.state ≠ .idle then s
  else
    let s := ({ s with power := { s.power with state := .active } }.tilesEnter .run).selfRefresh false
    if s.power.brakeIn && s.power.brakeRecorded then { s with power := { s.power with brakeRecorded := false } }.brakeOn 0 else s

end Sys2Proof.Machine
end

