-- ==== Sys2Proof/Machine/Mem.lean ====
section
/-! DEFINITION. The memory pool as its agents reach it: address map (R22 to R28), placement (R225), keys (R383, R385), fenced lines
(R229 to R232), the die cache (R216 to R220), the tables of copies and directory entries. -/
namespace Sys2Proof.Machine

/-! ## Address map -/

/-- First address of a controller's range (Table 01-7). -/
def ctrlBase (c : Nat) : Nat := if c < 12 then c * 2 ^ 36 else 0x040000000000 + (c - 12) * 2 ^ 37

/-- Channels of a controller (R224, R240). -/
def ctrlChans (c : Nat) : Nat := if c < 12 then 32 else 4

/-- Bytes one channel serves (R23, R240). -/
def chanBytes (c : Nat) : Nat := if c < 12 then 2 ^ 31 else 2 ^ 35

/-- Channels in service: m of R225. -/
def State.chansServed (s : State) (c : Nat) : Nat := ctrlChans c - popcount (ctrlChans c) (s.ctrl c).retired.toNat

/-- Served bytes of a range (R3, R23, R239, R240). -/
def State.served (s : State) (c : Nat) : Nat :=
  if decide (12 ≤ c) && s.lnVariant then 0 else s.chansServed c * chanBytes c

/-- What an address names (Table 01-6). -/
inductive Place where
  | mem (c : Nat)
  | ts (d t off : Nat)
  | dev
  | none
  deriving DecidableEq, Repr

/-- Decode a physical address (R22, R23, R25, R28). -/
def State.place (s : State) (a : Nat) : Place :=
  if a < 0x00C000000000 then
    let c := a / 2 ^ 36
    if a - ctrlBase c < s.served c then .mem c else .none
  else if a < 0x040000000000 then .none
  else if a < 0x060000000000 then
    let c := 12 + (a - 0x040000000000) / 2 ^ 37
    if a - ctrlBase c < s.served c then .mem c else .none
  else if a < 0x080000000000 then .none
  else if a < 0x080040000000 then
    let i := (a - 0x080000000000) / 2 ^ 21
    if i % 128 < (s.die (i / 128)).count.toNat then .ts (i / 128) (i % 128) (a % 2 ^ 21) else .none
  else if a < 0x0F0000000000 then .none
  else if a < 0x0F0050000000 then .dev
  else if a < 0x0F0080000000 then .none
  else if a < 0x0F0091000000 then (if a < 0x0F008C000000 ∨ 0x0F0090000000 ≤ a then .dev else .none)
  else .none

/-- Address of a tile store (Table 01-6). -/
def tsBase (d t : Nat) : Nat := 0x080000000000 + (128 * d + t) * 2 ^ 21

/-- The j-th served physical channel, ascending (R225, R433). -/
def State.physChan (s : State) (c j : Nat) : Nat :=
  ((List.range (ctrlChans c)).filter (fun i => !(s.ctrl c).retired.getLsbD i)).getD j 0

/-- Where a byte lies in a controller: row, half of the row, byte of the granule. -/
structure Placed where
  row : RowAddr
  half : Nat
  byte : Nat
  deriving DecidableEq, Repr

/-- place of R225 (R240 for a package). -/
def State.placed (s : State) (c off : Nat) : Placed :=
  let m := s.chansServed c
  let gi := off / 512
  let q := gi / m
  let j := (gi + q) % m
  ⟨⟨s.physChan c j, slice q 0 0, slice q 4 1, if c < 12 then slice q 21 6 else slice q 25 6⟩, slice q 5 5, slice off 8 0⟩

/-- The row of a byte. -/
def State.rowOf (s : State) (c off : Nat) : RowAddr := (s.placed c off).row

/-- The lines of a row: four for each half, the inverse of place. -/
def State.rowLines (s : State) (c : Nat) (r : RowAddr) : List Nat :=
  let m := s.chansServed c
  match (List.range m).find? (fun j => decide (s.physChan c j = r.ch)) with
  | none => []
  | some j => ((List.range 2).map (fun half =>
      let q := r.pc + 2 * r.bank + 32 * half + 64 * r.row
      let gi := q * m + (j + m - q % m) % m
      (List.range 4).map (fun i => ctrlBase c / 128 + 4 * gi + i))).flatten

/-- Row of a line of controller c. -/
def State.lineRow (s : State) (c line : Nat) : RowAddr := s.rowOf c (line * 128 - ctrlBase c)

/-! ## Keys -/

/-- Who holds which key IDs (R385). core follows R313: the operating system's and the job's. -/
inductive Holder where
  | os | job | core | bar2 | pe1 | anyone
  deriving DecidableEq, Repr

/-- Does the holder hold key ID k? State codes of Table 17-4: 1 os, 2 job, 3 keep. -/
def State.holds (s : State) (h : Holder) (k : Nat) : Bool :=
  let x := s.keySlot k
  let live := decide (x.state = 1) || decide (x.state = 2) || decide (x.state = 3)
  match h with
  | .os => decide (x.state = 1) || decide (x.state = 3)
  | .job => decide (x.state = 2)
  | .core => live
  | .bar2 => live && x.bar2
  | .pe1 => live && x.pe1
  | .anyone => true

/-- The tag of a line written now under key k. A key ID that is free or being destroyed has no key; its tag is that of no written line. -/
def State.tagNow (s : State) (k : Nat) : LineTag :=
  ⟨k, (s.keySlot k).gen.toNat + (if (s.keySlot k).state = 0 ∨ (s.keySlot k).state = 5 then 2 ^ 24 else 0)⟩

/-- One byte as it reads under key k (R228, R246): as written when the line carries the key's present generation, or when nothing
has written it since power came (0 then, DESIGN CHOICE); else an unintelligible byte. -/
def State.byteAs (s : State) (k a : Nat) : Byte :=
  let b := Map.get 0 s.pool.cells a
  let tag := Map.get {} s.pool.tags (a / 128)
  let now := s.tagNow k
  if tag = now then b
  else if tag = {} && decide (s.pool.tested = 0) then b
  else if tag = {} then Config.unintelligible a b (65 + 128 * s.pool.tested) (now.key + 128 * now.gen)
  else Config.unintelligible a b (tag.key + 128 * tag.gen) (now.key + 128 * now.gen)

/-- A line of a stack or package as it reads under key k. -/
def State.rawLine (s : State) (k line : Nat) : List Byte := (List.range 128).map (fun i => s.byteAs k (line * 128 + i))

/-- Write bytes into cells from address a. -/
def putCells (m : Map Byte) (a : Nat) (l : List Byte) : Map Byte :=
  match l with
  | [] => m
  | b :: r => putCells (Map.put 0 m a b) (a + 1) r

/-! ## Fenced lines -/

/-- Slot of the fenced-line list that holds a line. -/
def MemCtrl.fenceSlot (m : MemCtrl) (line : Nat) : Option Nat :=
  (m.fence.find? (fun e => e.2.valid && decide (e.2.line = line))).map (·.1)

/-- Is the line's channel fenced (R232)? -/
def State.chanFenced (s : State) (c line : Nat) : Bool := (s.ctrl c).chanFenced.getLsbD (s.lineRow c line).ch

/-- Does a read of the line answer as fenced (R229, R232)? -/
def State.isFenced (s : State) (c line : Nat) : Bool := ((s.ctrl c).fenceSlot line).isSome || s.chanFenced c line

/-- Full-line write at a stack or package (R231): the list entry goes. -/
def State.rawWrite (s : State) (c k line : Nat) (data : List Byte) : State :=
  let s := s.modCtrl c (fun m => match m.fenceSlot line with
    | some i => { m with fence := Map.put {} m.fence i {} }
    | none => m)
  { s with pool := { s.pool with
      cells := putCells s.pool.cells (line * 128) (bytesAt data 0 128), tags := Map.put {} s.pool.tags line (s.tagNow k) } }

/-! ## The die cache -/

/-- Directory and die-cache slice of a near-tier line (R206). -/
def dcSlice (line : Nat) : Nat :=
  (List.range 8).foldl (fun a i => a ^^^ (line / 2 ^ (5 * i) % 32)) 0

/-- Index of way 0 of a line's set: ((slice × 1536) + set) × 16 (R216). -/
def dcSet (line : Nat) : Nat := (dcSlice line * 1536 + line / 32 % 1536) * 16

/-- Way of a line in its set, whatever its key. -/
def DieCache.find (dc : DieCache) (line : Nat) : Option Nat :=
  (List.range 16).find? (fun w => let l := Map.get {} dc.lines (dcSet line + w); l.valid && decide (l.line = line))

/-- Ages one up for the ways of a mask (R217). -/
def ageUp (mask : Nat) (ages : List Nat) : List Nat :=
  (ages.zip (List.range 16)).map (fun p => if bit mask p.2 then min (p.1 + 1) 3 else p.1)

/-- victim of R217, with fuel: the way and the ages after the search. -/
def dcVictim (mask : Nat) : Nat → List Nat → Nat × List Nat
  | 0, ages => (0, ages)
  | n + 1, ages =>
    match (List.range 16).find? (fun w => bit mask w && decide (ages.getD w 0 = 3)) with
    | some w => (w, ages)
    | none => dcVictim mask n (ageUp mask ages)

/-- Put a die-cache line. -/
def State.dcPut (s : State) (d i : Nat) (l : DcLine) : State :=
  s.modDie d (fun x => { x with dc := { x.dc with lines := Map.put {} x.dc.lines i l } })

/-- Side buffer of a slice. -/
def State.sideOf (s : State) (d line : Nat) : List SideLine := Map.get [] (s.die d).dc.side (dcSlice line)

/-- Set the side buffer of a slice. -/
def State.setSide (s : State) (d line : Nat) (l : List SideLine) : State :=
  s.modDie d (fun x => { x with dc := { x.dc with side := Map.put [] x.dc.side (dcSlice line) l } })

/-- Drop a line from the side buffer, under whatever key (R220). -/
def State.dropSide (s : State) (d line : Nat) : State :=
  s.setSide d line ((s.sideOf d line).filter (fun e => decide (e.line ≠ line)))

/-- Kept regions that hold a discarded line are torn (R199, R247). -/
def State.tear (s : State) (lines : List Nat) : State :=
  let mark (r : Region) : Region :=
    if r.state = 0 ∧ lines.any (fun l => decide (r.base ≤ 128 * l) && decide (128 * l < r.base + r.size)) then { r with state := 1 } else r
  { s with sec := { s.sec with regions := s.sec.regions.map mark, record := s.sec.record.map mark } }

/-- A write that the memory discards (R231): logged with its event, and a kept region it lies in is torn (R247). -/
def State.discard (s : State) (addr agent : Nat) (mtype : Nat := typeOf addr agent) : State :=
  (s.storeLost addr agent mtype).tear [addr / 128]

/-- Write a modified die-cache line back: discarded and logged in a fenced channel (R231, R232). -/
def State.dcWriteBack (s : State) (c : Nat) (l : DcLine) : State :=
  if !l.dirty then s
  else if s.chanFenced c l.line then s.discard (l.line * 128) (2 + 16 * (256 * (c / 3) + 132))
  else (s.dropSide (c / 3) l.line).rawWrite c l.key l.line l.data

/-- Controller of a near-tier line. -/
def ctrlOfLine (line : Nat) : Nat := line * 128 / 2 ^ 36

/-- Slice of a line: tile die and slice of the near tier, 4 and home slice of the capacity tier (R206). -/
def homeSlice (line : Nat) : Nat × Nat :=
  if line < 12 * 2 ^ 29 then (ctrlOfLine line / 3, dcSlice line) else (4, line % 24)

/-- Take a line out of the die cache, writing it back when modified. -/
def State.dcEvict (s : State) (d i : Nat) : State :=
  let l := Map.get {} (s.die d).dc.lines i
  if l.valid then (s.dcWriteBack (ctrlOfLine l.line) l).dcPut d i {} else s

/-- Fill mask of a class (R218). -/
def State.dcMask (s : State) (d cls : Nat) : Nat := slice (s.die d).dc.waymask.toNat (16 * cls + 15) (16 * cls)

/-- Fill a line into the die cache under a way mask with an age (R217). An invalid way of the mask is taken before a victim is
searched (PRESUMED: R217 gives no rule for invalid ways). -/
def State.dcFill (s : State) (d mask line key age : Nat) (dirty : Bool) (data : List Byte) : State :=
  let base := dcSet line
  let ways := (List.range 16).map (fun w => Map.get {} (s.die d).dc.lines (base + w))
  let new : DcLine := ⟨true, line, key, dirty, age, data⟩
  match (List.range 16).find? (fun w => bit mask w && !(ways.getD w {}).valid) with
  | some w => s.dcPut d (base + w) new
  | none =>
    let (w, ages) := dcVictim mask 4 (ways.map (·.age))
    let s := (List.range 16).foldl (fun s i => s.dcPut d (base + i) { (ways.getD i {}) with age := ages.getD i 0 }) s
    (s.dcEvict d (base + w)).dcPut d (base + w) new

/-- Count a hit or a miss of a class (R218). -/
def State.dcCount (s : State) (d cls : Nat) (hit : Bool) : State :=
  let up (m : Map DWord) := Map.put 0 m cls (BitVec.ofNat 64 (satAdd 64 (Map.get 0 m cls).toNat 1))
  s.modDie d (fun x => { x with dc :=
    (if hit then { x.dc with hits := up x.dc.hits } else { x.dc with misses := up x.dc.misses }) })

/-- A request as the home sees it: agent code, class (Table 09-8), holder, key ID, streaming flag. -/
structure Acc where
  agent : Nat
  cls : Nat
  own : Holder
  key : Nat
  stream : Bool := false
  deriving DecidableEq, Repr

/-- Make sure no die-cache line of this address stands under another key (R211). -/
def State.dcRekey (s : State) (d line key : Nat) : State :=
  match (s.die d).dc.find line with
  | some w => if (Map.get {} (s.die d).dc.lines (dcSet line + w)).key = key then s else s.dcEvict d (dcSet line + w)
  | none => s

/-- Read a line at its home (R209, R212, R216 to R220): none when it is fenced. -/
def State.homeRead (s : State) (acc : Acc) (c line : Nat) : Option (List Byte) × State :=
  if 12 ≤ c then (if s.isFenced c line then (none, s) else (some (s.rawLine acc.key line), s))
  else
    let d := c / 3
    let bypass := acc.stream && (s.die d).dc.streamBypass
    let s := s.dcRekey d line acc.key
    match (s.die d).dc.find line with
    | some w =>
      let i := dcSet line + w
      let l := Map.get {} (s.die d).dc.lines i
      let s := s.dcCount d acc.cls true
      (some l.data, if bypass then s else s.dcPut d i { l with age := 0 })
    | none =>
      let s := s.dcCount d acc.cls false
      let mask := s.dcMask d acc.cls
      if s.isFenced c line then (none, s)
      else
      match (s.sideOf d line).find? (fun e => decide (e.line = line) && decide (e.key = acc.key)) with
      | some e =>
        let s := s.dropSide d line
        let s := s.modDie d (fun x => { x with dc := { x.dc with pfUsed := BitVec.ofNat 32 (satAdd 32 x.dc.pfUsed.toNat 1) } })
        (some e.data, if mask = 0 then s else s.dcFill d mask line acc.key 0 false e.data)
      | none =>
        let data := s.rawLine acc.key line
        if bypass ∨ mask = 0 then (some data, s)
        else (some data, s.dcFill d mask line acc.key (if acc.stream then 3 else 1) false data)

/-- Overwrite the bytes of a line that a mask selects. -/
def mergeLine (old new : List Byte) (mask : Nat) : List Byte :=
  (List.range 128).map (fun i => if bit mask i then new.getD i 0 else old.getD i 0)

/-- All bytes of a line. -/
def fullMask : Nat := 2 ^ 128 - 1

/-- Write a line at its home (R209, R216 to R219, R231, R232): false when the write is discarded. -/
def State.homeWrite (s : State) (acc : Acc) (c line mask : Nat) (data : List Byte) : Bool × State :=
  let full := decide (mask = fullMask)
  if 12 ≤ c then
    if s.chanFenced c line || (!full && s.isFenced c line) then (false, s)
    else (true, s.rawWrite c acc.key line (if full then data else mergeLine (s.rawLine acc.key line) data mask))
  else
    let d := c / 3
    let bypass := acc.stream && (s.die d).dc.streamBypass
    let s := s.dcRekey d line acc.key
    match (s.die d).dc.find line with
    | some w =>
      let i := dcSet line + w
      let l := Map.get {} (s.die d).dc.lines i
      let s := (s.dcCount d acc.cls true).dropSide d line
      (true, s.dcPut d i { l with data := mergeLine l.data data mask, dirty := true, age := if bypass then 3 else 0 })
    | none =>
      if s.chanFenced c line || (!full && s.isFenced c line) then (false, s)
      else if s.isFenced c line then (true, (s.dropSide d line).rawWrite c acc.key line data)
      else
        let s := s.dcCount d acc.cls false
        let side := (s.sideOf d line).find? (fun e => decide (e.line = line) && decide (e.key = acc.key))
        let old := match side with | some e => e.data | none => s.rawLine acc.key line
        let new := if full then bytesAt data 0 128 else mergeLine old data mask
        let s := s.dropSide d line
        let m := s.dcMask d acc.cls
        if bypass ∨ m = 0 then (true, s.rawWrite c acc.key line new)
        else (true, s.dcFill d m line acc.key (if acc.stream then 3 else 1) true new)

/-! ## Copies in caching agents -/

/-- Key of a line of a caching agent in the agents table. -/
def agentKey (a line : Nat) : Nat := a * 2 ^ 41 + line

/-- A line of a caching agent. -/
def State.agentLine (s : State) (a line : Nat) : AgentLine := Map.get {} s.pool.agents (agentKey a line)

/-- Put a line of a caching agent. -/
def State.putAgent (s : State) (a line : Nat) (l : AgentLine) : State :=
  { s with pool := { s.pool with agents := Map.put {} s.pool.agents (agentKey a line) l } }

/-- A directory entry. -/
def State.home (s : State) (line : Nat) : HomeLine := Map.get {} s.pool.homes line

/-- Put a directory entry. -/
def State.putHome (s : State) (line : Nat) (h : HomeLine) : State :=
  { s with pool := { s.pool with homes := Map.put {} s.pool.homes line h } }

/-- Reservations on a written line are lost (R194). -/
def State.breakReservations (s : State) (line : Nat) : State :=
  { s with host := { s.host with harts := (s.host.harts.map (fun e =>
      (e.1, if e.2.reservation = some line then { e.2 with reservation := none } else e.2))).filter (fun e => decide (e.2 ≠ {})) } }

end Sys2Proof.Machine
end

