-- ==== Sys2Proof/Machine/Bundles.lean ====
section
/-! DEFINITION. The bundles between the dies as their senders and receivers work (11_die_links): service, paths (R260), units and messages (R253, R254),
flits, credits, sequence, striping and replay (R252, R255, R256). -/
namespace Sys2Proof.Machine

/-! ## Bundles -/

/-- Link modules of a bundle end: 6 on HB and on the HD's ends, 12 on NB0 and NB1 (Table 11-1). -/
def endModules (e : Nat) : Nat := if 12 ≤ e then 6 else if e % 3 = 0 then 6 else 12

/-- A link module. -/
def LinkEnd_.module (l : LinkEnd_) (m : Nat) : LinkModule := Map.get {} l.modules m

/-- Change a link module. -/
def LinkEnd_.modModule (l : LinkEnd_) (m : Nat) (f : LinkModule → LinkModule) : LinkEnd_ :=
  { l with modules := Map.put {} l.modules m (f (l.module m)) }

/-- Is a module in service? -/
def LinkModule.serves (m : LinkModule) : Bool := decide (m.st ≠ .retired) && !m.checking && !m.retraining

/-- Is every module of the end retired (R259)? -/
def LinkEnd_.down (l : LinkEnd_) (e : Nat) : Bool := (List.range (endModules e)).all (fun m => decide ((l.module m).st = .retired))

/-- Is a bundle up for traffic? -/
def State.bundleUp (s : State) (e : Nat) : Bool := !(s.link e).down e && !(s.link e).handover

/-- Node of a bundle end: 0 to 3 tile dies, 4 the HD. -/
def endNode (e : Nat) : Nat := if e < 12 then e / 3 else 4

/-- The other end of a bundle. -/
def partnerEnd (e : Nat) : Nat :=
  if 12 ≤ e then 3 * (e - 12)
  else match e % 3 with | 0 => 12 + e / 3 | 1 => 3 * ((e / 3 + 1) % 4) + 2 | _ => 3 * ((e / 3 + 3) % 4) + 1

/-- The end by which a node reaches an adjacent one. -/
def endToward (a b : Nat) : Nat :=
  if a = 4 then 12 + b else if b = 4 then 3 * a else if b = (a + 1) % 4 then 3 * a + 1 else 3 * a + 2

/-! ## Paths (R260) -/

/-- Is the bundle from one node to an adjacent one in service? Nodes: 0 to 3 tile dies, 4 the HD. -/
def State.hop (s : State) (a b : Nat) : Bool :=
  if b = 4 then s.bundleUp (3 * a) && s.bundleUp (12 + a)
  else if a = 4 then s.bundleUp (3 * b) && s.bundleUp (12 + b)
  else if b = (a + 1) % 4 then s.bundleUp (3 * a + 1) && s.bundleUp (3 * b + 2)
  else s.bundleUp (3 * a + 2) && s.bundleUp (3 * b + 1)

/-- Is every hop of a path in service? -/
def State.pathUp (s : State) : List Nat → Bool
  | a :: b :: r => s.hop a b && State.pathUp s (b :: r)
  | _ => true

/-- Candidate paths between two dies in the order of Table 11-7; odd: the line has L[0] = 1. Split routing needs feature bit 2, HD
forwarding feature bit 3 (R263). -/
def pathChoices (features a b : Nat) (odd : Bool) : List (List Nat) :=
  let viaHd := if bit features 3 then [[a, 4, b]] else []
  if a = b then [[a]]
  else if a = 4 then [[4, b], [4, (b + 1) % 4, b], [4, (b + 3) % 4, b]]
  else if b = 4 then [[a, 4], [a, (a + 1) % 4, 4], [a, (a + 3) % 4, 4]]
  else if (a + 2) % 4 = b then
    let p := [a, (a + 1) % 4, b]
    let q := [a, (a + 3) % 4, b]
    (if odd && bit features 2 then [q, p] else if bit features 2 then [p, q] else [p]) ++ viaHd
  else [a, b] :: viaHd

/-- The path in use between two dies. -/
def State.diePath (s : State) (a b : Nat) (odd : Bool) : Option (List Nat) :=
  (pathChoices s.fabric.commonFeatures.toNat a b odd).find? s.pathUp

/-! ## Messages (Tables 11-4, 11-5) -/

/-- The header of a message. -/
def LinkMsg.header (m : LinkMsg) : Nat :=
  m.op % 256 + 2 ^ 8 * (m.body.length % 32) + 2 ^ 13 * (m.cls % 4) + 2 ^ 16 * (m.tag % 65536) + 2 ^ 32 * (m.key % 64) + 2 ^ 38 * (m.src % 1024) +
    2 ^ 48 * (m.sdie % 8) + 2 ^ 51 * (m.ddie % 8) + 2 ^ 54 * (m.dst % 1024)

/-- A message from its units, the header first. -/
def linkMsgOf (chan h : Nat) (body : List Nat) : LinkMsg :=
  { chan := chan, op := slice h 7 0, cls := slice h 14 13, tag := slice h 31 16, key := slice h 37 32, src := slice h 47 38, sdie := slice h 50 48,
    ddie := slice h 53 51, dst := slice h 63 54, body := body }

/-- The units of a message as its sender queues them. -/
def LinkMsg.units (m : LinkMsg) : List LinkUnit :=
  let l := (m.header :: m.body).map (fun v => (⟨v, none⟩ : LinkUnit))
  l.dropLast ++ (l.getLast?.toList.map (fun u => { u with last := some m }))

/-- Bytes as units, little-endian. -/
def unitsOf (n : Nat) (l : List Byte) : List Nat := (List.range n).map (fun i => fieldAt l (8 * i) 8)

/-- Units as bytes. -/
def unitBytes (l : List Nat) : List Byte := (l.map (leBytes 8)).flatten

/-- The unit that stands for an agent (Table 08-8) on its die, as (node, unit). DESIGN CHOICE: the spec numbers no units; on a tile die a descriptor unit
has its own code, tile group t is 256 + t; on the HD the caching agents are 0 to 12, hart h is 16 + h, PE0 is 128 and up, PE1 256 and the
Lantern 257. -/
def agentUnit (agent : Nat) : Nat × Nat :=
  let i := agent / 16
  match agent % 16 with
  | 0 => (4, 16 + i % 96)
  | 1 => (i / 128 % 4, 256 + i % 128)
  | 2 => (i / 256 % 4, i % 256)
  | 3 => (4, 128 + i % 4)
  | 4 => (4, 256)
  | _ => (4, 257)

/-- The agent code of a unit. -/
def unitAgentCode (node u : Nat) : Nat :=
  if node < 4 then (if u < 256 then 2 + 16 * (256 * node + u) else 1 + 16 * (128 * node + (u - 256)))
  else if u < 16 then (if u < 12 then 16 * (8 * u) else 0)
  else if u < 112 then 16 * (u - 16)
  else if u < 256 then 3 + 16 * (u - 128)
  else if u = 256 then 4
  else 5

/-! ## The sender (R253 to R256) -/

/-- The modules that flits may take, in their fixed rotation: a half-width module has one turn for every two of a full-width one. -/
def LinkEnd_.rotation (l : LinkEnd_) (e : Nat) : List Nat :=
  let up := (List.range (endModules e)).filter (fun m => (l.module m).serves)
  up ++ up.filter (fun m => decide ((l.module m).st = .full))

/-- Can the end send on a channel: a unit waits, a credit is held, and the replay buffer has room? -/
def LinkEnd_.ready (l : LinkEnd_) (c : Nat) : Bool :=
  !(Map.get [] l.outq c).isEmpty && decide (0 < Map.get 0 l.credits c) && decide (l.replay.length < 2048)

/-- The next channel to send by the priorities of Table 11-5: interrupt, coherence, then memory, with one of 16 turns for debug. -/
def LinkEnd_.nextChan (l : LinkEnd_) : Option Nat :=
  if l.ready 2 then some 2
  else if l.ready 1 then some 1
  else if l.ready 0 && l.ready 3 then some (if l.turn % 16 = 15 then 3 else 0)
  else if l.ready 0 then some 0
  else if l.ready 3 then some 3
  else none

/-- A flit (Table 11-3). -/
def d2dFlit (chan seq : Nat) (payload : List Byte) : List Byte :=
  let body := leBytes 4 (chan + 8 * seq) ++ bytesAt payload 0 56
  body ++ leBytes 4 (crc32c body)

/-- Put a flit on the next module of the rotation. -/
def LinkEnd_.emit (l : LinkEnd_) (e : Nat) (flit : List Byte) : LinkEnd_ × Nat :=
  let r := l.rotation e
  let m := r.getD (l.rot % max 1 r.length) 0
  ({ l with rot := l.rot + 1, sent := l.sent ++ [(m, flit)] }, m)

/-- Send one flit of a channel: up to seven of its units, padded with units of zeros; it spends a credit and enters the replay buffer. -/
def LinkEnd_.sendFlit (l : LinkEnd_) (e c : Nat) : LinkEnd_ :=
  let q := Map.get [] l.outq c
  let seq := l.txNext.toNat
  let flit := d2dFlit c seq (unitBytes ((q.take 7).map (·.value)))
  let r := l.emit e flit
  { r.1 with
    txNext := l.txNext + 1, outq := Map.put [] l.outq c (q.drop 7), credits := Map.put 0 l.credits c (Map.get 0 l.credits c - 1),
    turn := if c = 0 ∨ c = 3 then l.turn + 1 else l.turn, replay := l.replay ++ [⟨seq, r.2, flit⟩],
    unacked := l.unacked ++ ((q.take 7).filterMap (·.last)).map (fun m => (seq, m)) }

/-- Send what can be sent: flits to be sent again first; with fuel. Nothing moves during a handover, or with no module in service. -/
def LinkEnd_.pump (e : Nat) : Nat → LinkEnd_ → LinkEnd_
  | 0, l => l
  | n + 1, l =>
    if l.handover || (l.rotation e).isEmpty then l
    else
      match l.resend with
      | f :: r => LinkEnd_.pump e n ({ l with resend := r }.emit e f).1
      | [] => match l.nextChan with | some c => LinkEnd_.pump e n (l.sendFlit e c) | none => l

/-- Send what an end can send now. -/
def State.linkPump (s : State) (e : Nat) : State :=
  s.modLink e (fun l => LinkEnd_.pump e (l.resend.length + (l.outq.foldl (fun n q => n + q.2.length) 0)) l)

/-- Queue a message at the end of a node on the first hop of its path: of the line's path for the memory and coherence channels (R260), of the path
through TD(d+1) for the others. Without a path it is not sent. -/
def State.linkSend (s : State) (node : Nat) (odd : Bool) (m : LinkMsg) : State :=
  match s.diePath node m.ddie odd with
  | some (_ :: b :: _) =>
    let e := endToward node b
    (s.modLink e (fun l => { l with outq := Map.put [] l.outq m.chan (Map.get [] l.outq m.chan ++ m.units) })).linkPump e
  | _ => s

/-! ## The receiver (R254 to R256) -/

/-- CRC-32C of a 64-byte flit holds (R252). -/
def d2dOk (f : List Byte) : Bool := decide (f.length = 64) && decide (crc32c (f.take 60) = fieldAt f 60 4)

/-- Take the units of a flit: the messages they complete, and the units of an unfinished one. A unit of zeros in the place of a header pads the
rest. -/
def takeUnits (chan : Nat) : List Nat → List Nat → List LinkMsg → List LinkMsg × List Nat
  | [], part, out => (out, part)
  | u :: r, part, out =>
    if part.isEmpty && decide (u = 0) then (out, [])
    else
      let now := part ++ [u]
      let h := now.headD 0
      if slice h 12 8 + 1 ≤ now.length then takeUnits chan r [] (out ++ [linkMsgOf chan h (now.drop 1)]) else takeUnits chan r now out

/-- Deliver flits in sequence while the next one is held, with fuel; the messages they complete. -/
def LinkEnd_.deliver : Nat → LinkEnd_ → List LinkMsg → LinkEnd_ × List LinkMsg
  | 0, l, out => (l, out)
  | n + 1, l, out =>
    match l.held.find? (fun e => decide (e.1 = l.rxNext.toNat)) with
    | none => (l, out)
    | some e =>
      let chan := slice (fieldAt e.2 0 4) 2 0
      let l := { l with held := Map.del l.held e.1, rxNext := l.rxNext + 1, owesAck := true }
      if chan < 4 then
        let r := takeUnits chan (unitsOf 7 (bytesAt e.2 4 56)) (Map.get [] l.rxPart chan) []
        LinkEnd_.deliver n { l with
          rxPart := Map.put [] l.rxPart chan r.2, owedCredits := Map.modify 0 l.owedCredits chan (· + 1) } (out ++ r.1)
      else LinkEnd_.deliver n l out

/-- The payload of a link-control flit (Table 11-6) takes effect: acknowledged flits leave the replay buffer, a nak replays from its
sequence number, credits come back. -/
def LinkEnd_.control (l : LinkEnd_) (p : Nat) : LinkEnd_ :=
  let ack := slice p 11 0
  let due (q : Nat) : Bool := decide ((q + 4096 - ack) % 4096 < 2048) && decide (q ≠ ack)
  let replay := l.replay.filter (fun f => due f.seq)
  let again := if bit p 12 then replay.dropWhile (fun f => decide (f.seq ≠ slice p 24 13)) else []
  let credits := (List.range 4).foldl (fun m c => Map.modify 0 m c (· + slice p (34 + 10 * c) (25 + 10 * c))) l.credits
  { l with
    replay := replay, unacked := l.unacked.filter (fun x => due x.1), credits := credits, resend := l.resend ++ again.map (·.flit),
    cntReplayed := BitVec.ofNat 32 (satAdd 32 l.cntReplayed.toNat again.length) }

/-- The link-control flit an end sends: last sequence delivered, nak of the first missing one, credits owed. -/
def LinkEnd_.controlFlit (l : LinkEnd_) : List Byte :=
  let crd (c : Nat) := min (Map.get 0 l.owedCredits c) 1023
  let p := (l.rxNext - 1).toNat + 2 ^ 12 * b2n l.nak + 2 ^ 13 * l.rxNext.toNat + 2 ^ 25 * crd 0 + 2 ^ 35 * crd 1 + 2 ^ 45 * crd 2 + 2 ^ 55 * crd 3
  d2dFlit 7 0 (leBytes 56 p)

end Sys2Proof.Machine
end

