-- ==== Sys2Proof/Machine/Flags.lean ====
section
/-! DEFINITION. The flag and operand computations that several units share: floating-point instructions with their options and the
flags of R52, integer instructions (Table 05-3), atomic operations (R125), comparisons. Codes in, codes and flags out. -/
namespace Sys2Proof.Machine

/-- Options of a floating-point instruction (R116): rounding, saturate, flushes. -/
structure FpOpts where
  mode : Rnd := .rne
  sat : Bool := false
  ftzIn : Bool := false
  ftzOut : Bool := false
  deriving DecidableEq, Repr

/-- A floating-point instruction of cls 0x02 to 0x04 on codes of one format (R44, R51): 0 add, 1 mul, 2 fma, 3 min, 4 max, 5 abs, 6 neg. -/
def fpOp (f : Fmt) (o : FpOpts) (op a b c : Nat) : Nat × NumFlags :=
  let va := f.decodeFtz o.ftzIn a
  let vb := f.decodeFtz o.ftzIn b
  let fin (v : Val) (g : NumFlags) : Nat × NumFlags :=
    let (x, h) := convert f ⟨o.mode, o.sat, o.ftzOut⟩ 0 v
    (x, g.join h)
  match op with
  | 0 => let (v, g) := Val.add va vb; fin v g
  | 1 => let (v, g) := Val.mul va vb; fin v g
  | 2 => let (v, g) := Val.fma va vb (f.decodeFtz o.ftzIn c); fin v g
  | 3 => fin (Val.min va vb) {}
  | 4 => fin (Val.max va vb) {}
  | 5 => fin va.abs {}
  | _ => fin va.neg {}

/-- How many one bits a 32-bit number has. -/
def popcount32 (x : Nat) : Nat := ((List.range 32).filter (fun i => x.testBit i)).length

/-- Leading zeros of a 32-bit number. -/
def clz32 (x : Nat) : Nat := if x % 2 ^ 32 = 0 then 32 else 31 - Nat.log2 (x % 2 ^ 32)

/-- An integer instruction on 32-bit words (Table 05-3, cls 0x00), the 64-bit forms excepted. -/
def intOp (op a b : Nat) : Nat :=
  let w := 2 ^ 32
  let sa := signed 32 a
  let sb := signed 32 b
  let sh := b % 32
  match op with
  | 0x00 => (a + b) % w
  | 0x01 => (a + w - b % w) % w
  | 0x02 => a * b % w
  | 0x03 => unsigned 32 (sa * sb / (w : Nat))
  | 0x04 => a * b / w
  | 0x05 => unsigned 32 (min sa sb)
  | 0x06 => unsigned 32 (max sa sb)
  | 0x07 => min a b
  | 0x08 => max a b
  | 0x09 => a &&& b
  | 0x0A => a ||| b
  | 0x0B => a ^^^ b
  | 0x0C => a * 2 ^ sh % w
  | 0x0D => a / 2 ^ sh
  | 0x0E => unsigned 32 (sa / (2 ^ sh : Nat))
  | 0x11 => popcount32 a
  | _ => clz32 a

/-- add64 (0x0F) and sub64 (0x10). -/
def intOp64 (op a b : Nat) : Nat := if op = 0x0F then (a + b) % 2 ^ 64 else (a + 2 ^ 64 - b % 2 ^ 64) % 2 ^ 64

/-- The relation 0 eq, 1 ne, 2 lt, 3 le on integers. -/
def intRel (k : Nat) (a b : Int) : Bool :=
  match k with | 0 => decide (a = b) | 1 => decide (a ≠ b) | 2 => decide (a < b) | _ => decide (a ≤ b)

/-- The relation 0 eq, 1 ne, 2 lt, 3 le on floating-point values (R51). -/
def fpRel (k : Nat) (a b : Val) : Bool :=
  match k with | 0 => Val.eq a b | 1 => !Val.eq a b | 2 => Val.lt a b | _ => Val.lt a b || Val.eq a b

/-- The value an atomic operation leaves (Table 05-3, cls 0x0B): w is 32 or 64. -/
def atomicValue (w op old x cmp : Nat) : Nat :=
  match op with
  | 0x0 => (old + x) % 2 ^ w
  | 0x1 => old &&& x
  | 0x2 => old ||| x
  | 0x3 => old ^^^ x
  | 0x4 => unsigned w (min (signed w old) (signed w x))
  | 0x5 => unsigned w (max (signed w old) (signed w x))
  | 0x6 => min old x
  | 0x7 => max old x
  | 0x8 => x
  | 0x9 => if old = cmp then x else old
  | 0xA => (convert .fp32 {} 0 (Val.min (Fmt.fp32.decode old) (Fmt.fp32.decode x))).1
  | _ => (convert .fp32 {} 0 (Val.max (Fmt.fp32.decode old) (Fmt.fp32.decode x))).1

end Sys2Proof.Machine
end

