-- ==== Sys2Proof/Machine/Home.lean ====
section
/-! DEFINITION. The directory protocol at the homes and in the caching agents (09_coherence_and_caches, R206 to R215), and the coherent reads and
writes of the units that cache nothing (R209, R210). The rows of Coherence.lean each deliver one message; a unit's access, which is one step,
comes after every transaction of its line that arrived before it (R208), so it first lets those end. -/
namespace Sys2Proof.Machine

/-! ## Requesters -/

/-- The agent codes of the members of a cluster and of the L3 have no entry of their own in Table 08-8: the cluster's first hart stands
for them (DESIGN CHOICE). -/
def cacheAgent (a : CacheId) : Nat := if a.val < 12 then 16 * (8 * a.val) else 0

/-- Class of an agent at the die cache (Table 09-8): tile groups, descriptor units, fabric ports serving other modules, and the rest. -/
def agentCls (agent : Nat) : Nat :=
  match agent % 16 with
  | 1 => 0
  | 2 => if 136 ≤ agent / 16 % 256 then 3 else 1
  | _ => 2

/-- Agent code of a requester. -/
def partyAgent (p : Party) : Nat := match p with | .cache a => cacheAgent a | .other r => r.agent.toNat

/-- Whose key IDs a request may use (R385), by its agent's class (Table 08-8). A device under PE1 uses the operating system's, by its DMA
range (R323); a host on PE1 as endpoint those granted to its window (R324). -/
def State.partyHolder (s : State) (p : Party) : Holder :=
  match p with
  | .cache _ => .core
  | .other r => match r.agent.toNat % 16 with | 0 => .core | 1 => .core | 2 => .core | 3 => .bar2 | 4 => (if s.host.pe1Root then .os else .pe1) | _ => .anyone

/-- The access a transaction makes at its home. -/
def HomeTxn.acc (t : HomeTxn) : Acc :=
  ⟨partyAgent t.from_, agentCls (partyAgent t.from_), .anyone, t.key, match t.from_ with | .other r => r.stream | .cache _ => false⟩

/-- Controller of a line of the near or capacity tier that is mapped. -/
def State.lineCtrl (s : State) (line : Nat) : Option Nat := match s.place (line * 128) with | .mem c => some c | _ => none

/-! ## Messages -/

/-- Unit of a line's home slice on its die (DESIGN CHOICE, as agentUnit). -/
def homeUnit (line : Nat) : Nat := (if (homeSlice line).1 < 4 then 384 else 260) + (homeSlice line).2

/-- Node and unit of a party. -/
def partyUnit (p : Party) : Nat × Nat := match p with | .cache a => (4, a.val) | .other r => agentUnit r.agent.toNat

/-- A coherence message as it travels on the bundles (Table 11-5): snoops and write-backs carry the line address, the others are known by their tag, the
low bits of the line's number (DESIGN CHOICE: a requester's tag is its own); an error is DATA without units (DESIGN CHOICE). -/
def CohMsg.link (m : CohMsg) (from_ key : Nat) : LinkMsg :=
  let toHome (chan op : Nat) (a : CacheId) (l : Nat) (body : List Nat) : LinkMsg :=
    { chan := chan, op := op, cls := 2, tag := l % 65536, key := key, src := a.val, sdie := from_, ddie := (homeSlice l).1, dst := homeUnit l, body := body }
  let toUnit (op : Nat) (u : Nat × Nat) (l : Nat) (body : List Nat) : LinkMsg :=
    { chan := 1, op := op, tag := l % 65536, key := key, src := homeUnit l, sdie := from_, ddie := u.1, dst := u.2, body := body }
  match m with
  | .snoop k a l _ => toUnit (match k with | .rd => 1 | .sh => 2 | .un => 3 | .inv => 4) (4, a.val) l [128 * l]
  | .data p l b _ err => toUnit 5 (partyUnit p) l (if err then [] else unitsOf 16 b)
  | .ack a l _ _ => toHome 1 6 a l []
  | .ackD a l b => toHome 1 7 a l (unitsOf 16 b)
  | .ndwb a l => toHome 1 8 a l []
  | .wb a l k b => { toHome 0 4 a l (128 * l :: unitsOf 16 b) with key := k }
  | .comp p l => toUnit 9 (partyUnit p) l []
  | .wbAck a l => toUnit 0x0A (4, a.val) l []
  | .wbConsumed a l => toUnit 0x0B (4, a.val) l []

/-- Line of a message. -/
def CohMsg.line (m : CohMsg) : Nat :=
  match m with
  | .snoop _ _ l _ => l | .data _ l _ _ _ => l | .ack _ l _ _ => l | .ackD _ l _ => l | .ndwb _ l => l | .wb _ l _ _ => l | .comp _ l => l
  | .wbAck _ l => l | .wbConsumed _ l => l

/-- Send a message from a node: it is under way, and off the die it travels on the bundles of its line's path (R260). -/
def State.coh (s : State) (from_ : Nat) (m : CohMsg) : State :=
  let k := m.link from_ (Map.get {} s.pool.homes m.line).key
  let s := { s with pool := { s.pool with msgs := s.pool.msgs ++ [m] } }
  if k.ddie = from_ then s else s.linkSend from_ (decide (m.line % 2 = 1)) k

/-- Send a message from the home of its line. -/
def State.cohHome (s : State) (m : CohMsg) : State := s.coh (homeSlice m.line).1 m

/-- Take the first message that a test accepts. -/
def State.takeMsg (s : State) (f : CohMsg → Bool) : Option (CohMsg × State) :=
  match s.pool.msgs.find? f with
  | some m => some (m, { s with pool := { s.pool with msgs := s.pool.msgs.erase m } })
  | none => none

/-- A set of agents as a mask. -/
def agentMask (l : List CacheId) : BitVec 13 := l.foldl (fun m a => m ||| BitVec.ofNat 13 (2 ^ a.val)) 0

/-- The agents of a mask. -/
def agentsOf (m : BitVec 13) : List CacheId := (List.finRange 13).filter (fun a => m.getLsbD a.val)

/-! ## Homes -/

/-- The holders that a directory entry names. -/
def HomeLine.holders (h : HomeLine) : List CacheId :=
  (List.finRange 13).filter (fun a => h.sharers.getLsbD a.val || decide (h.owner = some a))

/-- A directory entry without a holder. -/
def HomeLine.drop (h : HomeLine) (a : CacheId) : HomeLine :=
  let owner := if h.owner = some a then none else h.owner
  let sharers := h.sharers &&& ~~~agentMask [a]
  { h with
    owner := owner, sharers := sharers,
    dir := match owner with | some _ => h.dir | none => if sharers = 0 then .di else .ds }

/-- Data at the home for a transaction: from a consumed write-back or ACK_D, which is then the home value, else read there. -/
def State.homeValue (s : State) (c line : Nat) (h : HomeLine) (acc : Acc) : Option (List Byte) × State :=
  match h.snoopData with
  | some l => (some l, (s.homeWrite acc c line fullMask l).2)
  | none => s.homeRead acc c line

/-- The bytes an atomic operation leaves in a line, and the old value it returns (R125). -/
def atomApply (o : AtomOp) (l : List Byte) : List Byte × List Byte :=
  let n := if o.wide then 8 else 4
  let w := 8 * n
  let old := fieldAt l o.offset.toNat n
  let v := atomicValue w o.op.toNat old (o.operand.toNat % 2 ^ w) (o.compare.toNat % 2 ^ w)
  (patch l o.offset.toNat (leBytes n v), leBytes n old)

/-- A write at the home; one that is discarded is reported (R231). -/
def State.homePut (s : State) (acc : Acc) (c line mask : Nat) (l : List Byte) : State :=
  match s.homeWrite acc c line mask l with
  | (true, s) => s.breakReservations line
  | (false, s) => s.discard (line * 128) acc.agent

/-- A store of an agent at the home: one that is discarded also stays pending for its agent (R231). -/
def State.homeStore (s : State) (acc : Acc) (c line mask : Nat) (l : List Byte) : State :=
  match s.homeWrite acc c line mask l with
  | (true, s) => s.breakReservations line
  | (false, s) => (s.discard (line * 128) acc.agent (if acc.agent % 16 = 0 then 1 else 0)).storePend (line * 128) acc.agent

/-- Place the data of a write transaction (R208): the whole line, the merged bytes, or the result of an atomic operation, which is one write. -/
def State.placeWrite (s : State) (c line : Nat) (h : HomeLine) (t : HomeTxn) : State :=
  match t.req with
  | .wrFull => s.homeStore t.acc c line fullMask t.data
  | .wrPart =>
    match h.snoopData with
    | some l => s.homeStore t.acc c line fullMask (mergeLine l t.data t.mask)
    | none => s.homeStore t.acc c line t.mask t.data
  | .atom =>
    match (match h.snoopData with | some l => some l | none => (s.homeRead t.acc c line).1) with
    | some l =>
      let (new, old) := atomApply t.op l
      (s.homeStore t.acc c line fullMask new).cohHome (.data t.from_ line old .i false)
    | none => s.cohHome (.data t.from_ line [] .i true)
  | _ => s

/-- Is it a write transaction? -/
def HomeReq.writes (r : HomeReq) : Bool := match r with | .wrFull => true | .wrPart => true | .atom => true | _ => false

/-- End a transaction once every answer is in (R208, R209, Table 09-4): the directory's new state and what goes to the requester. The state of
an error DATA to a cache says what was asked: S for RD_S, M for RD_U. -/
def State.homeEnd (s : State) (c line : Nat) (h : HomeLine) (t : HomeTxn) : State :=
  let clean : HomeLine := { h with txn := none, waiting := 0, wbHeld := none, ndwb := none, snoopData := none, placed := false, fwd := false, dirty := false }
  let me (a : CacheId) : HomeLine := { clean with dir := .de, owner := some a, sharers := 0, key := t.key }
  match t.req, t.from_ with
  | .rdS, .cache a =>
    if h.fwd then
      let own := match h.owner with | some o => [o] | none => []
      if h.dirty then s.putHome line { clean with dir := .dOwn, sharers := h.sharers ||| agentMask [a] }
      else s.putHome line { clean with dir := .ds, owner := none, sharers := h.sharers ||| agentMask (a :: own) }
    else
      match s.homeValue c line h t.acc with
      | (none, s) => (s.putHome line clean).cohHome (.data t.from_ line [] .s true)
      | (some l, s) =>
        if h.sharers = 0 ∧ h.owner = none then (s.putHome line (me a)).cohHome (.data t.from_ line l .e false)
        else (s.putHome line { clean with sharers := h.sharers ||| agentMask [a] }).cohHome (.data t.from_ line l .s false)
  | .rdU, .cache a =>
    if h.fwd then s.putHome line (me a)
    else
      match s.homeValue c line h t.acc with
      | (none, s) => (s.putHome line { clean with dir := .di, owner := none, sharers := 0 }).cohHome (.data t.from_ line [] .m true)
      | (some l, s) => (s.putHome line (me a)).cohHome (.data t.from_ line l .m false)
  | .upg, .cache a =>
    let s := match h.snoopData with | some l => (s.homeWrite t.acc c line fullMask l).2 | none => s
    (s.putHome line (me a)).cohHome (.comp t.from_ line)
  | .rdSn, _ =>
    if h.fwd then s.putHome line clean
    else
      match s.homeValue c line h t.acc with
      | (none, s) => (s.putHome line clean).cohHome (.data t.from_ line [] .i true)
      | (some l, s) => (s.putHome line clean).cohHome (.data t.from_ line l .i false)
  | .backInv, _ =>
    let s := match h.snoopData with
      | some l => s.homePut { t.acc with key := h.key } c line fullMask l
      | none => s
    s.putHome line { clean with dir := .di, owner := none, sharers := 0 }
  | _, _ =>
    let s := if h.placed then s else s.placeWrite c line h t
    (s.putHome line { clean with dir := .di, owner := none, sharers := 0 }).cohHome (.comp t.from_ line)

/-- A transaction as the state makes of it: an UPG whose sender holds no copy any more, or meets DI or DE, is an RD_U (Table 09-4). -/
def HomeLine.effective (h : HomeLine) (t : HomeTxn) : HomeTxn :=
  match t.req, t.from_ with
  | .upg, .cache a => if h.holders.contains a && decide (h.dir ≠ .de) then t else { t with req := .rdU }
  | _, _ => t

/-- The snoops a transaction sends: to whom, which, and for whom the data are (none: the home). An RD_U of the owner itself takes the line
from it like any other (Table 09-4, DO). -/
def HomeLine.snoops (h : HomeLine) (t : HomeTxn) : List (CacheId × Snoop × Option Party) :=
  let me : Option CacheId := match t.from_ with | .cache a => some a | .other _ => none
  let own := (match h.owner with | some o => if me = some o ∧ t.req ≠ .rdU then [] else [o] | none => [])
  let sh := (agentsOf h.sharers).filter (fun a => decide (me ≠ some a) && decide (h.owner ≠ some a))
  let inv (l : List CacheId) := l.map (fun a => (a, Snoop.inv, (none : Option Party)))
  match t.req with
  | .rdS => own.map (fun o => (o, .sh, some t.from_))
  | .rdU => own.map (fun o => (o, .un, some t.from_)) ++ inv sh
  | .upg => inv (own ++ sh)
  | .rdSn => own.map (fun o => (o, .rd, some t.from_))
  | .wrFull => inv (own ++ sh)
  | _ => own.map (fun o => (o, .un, none)) ++ inv sh

/-- No operand data. -/
def txnOf (req : HomeReq) (p : Party) (key : Nat) : HomeTxn := ⟨req, p, key, [], 0, ⟨0, false, 0, 0, 0⟩⟩

/-- A line's back-invalidation by the home itself (R207, R211). -/
def HomeLine.backInv (h : HomeLine) : HomeTxn := txnOf .backInv (.other ⟨0, false⟩) h.key

/-- Start a transaction on a line without one. A request under another key first writes back and invalidates every copy (R211). A
write whose data need no owner places them at once (R208). -/
def State.homeStart (s : State) (c line : Nat) (t : HomeTxn) : State :=
  let h := s.home line
  let rekey := decide (h.dir ≠ .di) && decide (h.key ≠ t.key)
  let t' := if rekey then h.backInv else h.effective t
  let sn := h.snoops t'
  let needData := (match t'.req with | .wrPart => true | .atom => true | .backInv => true | _ => false) &&
    sn.any (fun e => decide (e.2.1 = .un))
  let h := { h with
    txn := some t', waiting := agentMask (sn.map (·.1)), queue := if rekey then t :: h.queue else h.queue }
  let s := sn.foldl (fun s e => s.cohHome (.snoop e.2.1 e.1 line e.2.2)) s
  if t'.req.writes && !needData then (s.placeWrite c line h t').putHome line { h with placed := true }
  else s.putHome line h

/-! ## Room in the directory (R207) -/

/-- Directory set of a line (Table 09-1): the die cache's slice and set function for the near tier (R206), the like for the HD's slices
(DESIGN CHOICE: no set function is given for them). -/
def dirSet (line : Nat) : (Nat × Nat) × Nat :=
  (homeSlice line, if line < 12 * 2 ^ 29 then line / 32 % 4096 else line / 24 % 4096)

/-- Ways of a directory set. -/
def dirWays (line : Nat) : Nat := if line < 12 * 2 ^ 29 then 12 else 16

/-- The entries of a line's directory set. -/
def State.dirPeers (s : State) (line : Nat) : List (Nat × HomeLine) :=
  s.pool.homes.filter (fun e => decide (e.2.dir ≠ .di) && decide (dirSet e.1 = dirSet line))

/-- Does a request need an entry in a set that has no room (R207)? -/
def State.dirFull (s : State) (line : Nat) (t : HomeTxn) : Bool :=
  let h := s.home line
  decide (h.dir = .di) && (match (h.effective t).req with | .rdS => true | .rdU => true | _ => false) &&
    decide (dirWays line ≤ (s.dirPeers line).length)

/-- A set conflict evicts an entry: which one is a free choice, as R207 names none. One eviction at a time serves a set; while every entry is
in a transaction, the request waits for one to end. -/
def State.dirEvict (s : State) (line : Nat) : State :=
  let peers := s.dirPeers line
  let idle := peers.filter (fun e => e.2.txn.isNone)
  if idle.isEmpty || peers.any (fun e => match e.2.txn with | some t => decide (t.req = .backInv) | none => false) then s
  else
    let (v, s) := s.free 4
    match idle[v.toNat % idle.length]? with
    | some e => match s.lineCtrl e.1 with | some c => s.homeStart c e.1 e.2.backInv | none => s
    | none => s

/-! ## Running a home -/

/-- Run a line as far as it goes: end its transaction when no answer is due, start the next, which waits while its set has no room; with fuel
for the queue. -/
def State.homeRun (line : Nat) : Nat → State → State
  | 0, s => s
  | n + 1, s =>
    match s.lineCtrl line with
    | none => s
    | some c =>
      let h := s.home line
      match h.txn with
      | some t =>
        if h.waiting ≠ 0 then s
        else State.homeRun line n (s.homeEnd c line h t)
      | none =>
        match h.queue with
        | [] => s
        | t :: r => if s.dirFull line t then s.dirEvict line else State.homeRun line n ((s.putHome line { h with queue := r }).homeStart c line t)

/-- Fuel for a line: each waiting request starts and ends, with a back-invalidation before it. -/
def State.homeFuel (s : State) (line : Nat) : Nat := 4 * (s.home line).queue.length + 4

/-- The lines of a set that can go on: a transaction without answers due, or a request that waits. -/
def State.dirReady (s : State) (line : Nat) : List Nat :=
  (s.pool.homes.filter (fun e =>
    (match e.2.txn with | some _ => decide (e.2.waiting = 0) | none => !e.2.queue.isEmpty) && decide (dirSet e.1 = dirSet line))).map (·.1)

/-- Run a line, then the lines of its set that waited for room. -/
def State.homeSet (s : State) (line : Nat) : State :=
  let s := State.homeRun line (s.homeFuel line) s
  (s.dirReady line).foldl (fun s l => State.homeRun l (s.homeFuel l) s) s

/-- Transactions that a slice has accepted (R208). -/
def State.sliceLoad (s : State) (line : Nat) : Nat :=
  s.pool.homes.foldl (fun n e => if homeSlice e.1 = homeSlice line then n + e.2.queue.length + b2n e.2.txn.isSome else n) 0

/-- Transactions that a slice accepts at a time (R208). -/
def sliceLimit : Nat := 256

/-- A request enters its line's queue. -/
def State.homeEnqueue (s : State) (line : Nat) (t : HomeTxn) : State :=
  let h := s.home line
  (s.putHome line { h with queue := h.queue ++ [t] }).homeSet line

/-- The requests that were held back enter as their slices have room, in order; with fuel for their number. -/
def State.letIn : Nat → State → State
  | 0, s => s
  | n + 1, s =>
    match s.pool.heldBack.find? (fun e => decide (s.sliceLoad e.1 < sliceLimit)) with
    | none => s
    | some e => State.letIn n ({ s with pool := { s.pool with heldBack := s.pool.heldBack.erase e } }.homeEnqueue e.1 e.2)

/-- Run a line to the end of what it can do now, with what that lets in. -/
def State.homeGo (s : State) (line : Nat) : State :=
  let s := s.homeSet line
  State.letIn s.pool.heldBack.length s

/-- A request reaches its slice: queued at its line, or held back while the slice is full or others of it are held back (R208). -/
def State.homeArrive (s : State) (line : Nat) (t : HomeTxn) : State :=
  if decide (sliceLimit ≤ s.sliceLoad line) || s.pool.heldBack.any (fun e => decide (homeSlice e.1 = homeSlice line)) then
    { s with pool := { s.pool with heldBack := s.pool.heldBack ++ [(line, t)] } }
  else s.homeEnqueue line t

/-- Does an unfinished write of this key stand placed at the home, so that it serves RD_SN with the new data (R208)? -/
def HomeLine.serves (h : HomeLine) (key : Nat) : Bool :=
  h.placed && (match h.txn with | some t => decide (t.key = key) | none => false)

/-! ## Agents (R213, R214) -/

/-- An agent loses a line, and its cores their reservations on it (R194). -/
def State.lineLost (s : State) (a : CacheId) (line : Nat) : State :=
  let s := s.putAgent a line {}
  (List.range 8).foldl (fun s i =>
    let h := 8 * a.val + i
    if (s.hart h).reservation = some line then s.modHart h (fun x => { x with reservation := none }) else s) s

/-- Answer one snoop (Table 09-5). -/
def State.snoopAnswer (s : State) (a : CacheId) (line : Nat) (k : Snoop) (for_ : Option Party) : State :=
  let l := s.agentLine a line
  let forward (s : State) (dirty : Bool) (st : CacheState) : State :=
    match for_ with
    | some p => (s.coh 4 (.data p line l.data st false)).coh 4 (.ack a line true dirty)
    | none => s.coh 4 (.ackD a line l.data)
  match l.st, k with
  | .wbp, _ => s.coh 4 (.ndwb a line)
  | .i, _ => s.coh 4 (.ack a line false false)
  | .s, _ => (s.lineLost a line).coh 4 (.ack a line false false)
  | _, .inv => (s.lineLost a line).coh 4 (.ack a line false false)
  | _, .un => forward (s.lineLost a line) false .m
  | .m, .sh => forward (s.putAgent a line { l with st := .o }) true .s
  | .o, .sh => forward s true .s
  | _, .sh => forward (s.putAgent a line { l with st := .s }) false .s
  | .e, .rd => forward s false .i
  | _, .rd => forward s true .i

/-- Is DATA or COMP for an agent's line still under way? A snoop that follows it is met after it (DEDUCED: Table 09-5 answers from the
state that the earlier transaction gave). -/
def State.grantDue (s : State) (a : CacheId) (line : Nat) : Bool :=
  s.pool.msgs.any (fun m => match m with
    | .data p l _ _ err => decide (p = .cache a) && decide (l = line) && !err
    | .comp p l => decide (p = .cache a) && decide (l = line)
    | _ => false)

/-- A snoop arrives: queued while the line is held, else answered. -/
def State.snoopArrives (s : State) (a : CacheId) (line : Nat) (k : Snoop) : State :=
  if s.grantDue a line then s
  else match s.takeMsg (fun m => match m with | .snoop k' a' l' _ => decide (k' = k) && decide (a' = a) && decide (l' = line) | _ => false) with
  | some (.snoop _ _ _ f, s) =>
    let l := s.agentLine a line
    if l.hold then s.putAgent a line { l with snoops := l.snoops ++ [(k, f)] } else s.snoopAnswer a line k f
  | _ => s

/-- The hold ends and the waiting snoops are answered in arrival order. -/
def State.holdEnds (s : State) (a : CacheId) (line : Nat) : State :=
  let l := s.agentLine a line
  l.snoops.foldl (fun s e => s.snoopAnswer a line e.1 e.2) (s.putAgent a line { l with hold := false, snoops := [] })

/-- The first core access that waits for a line in a cache, taken. -/
def State.takeMiss (s : State) (a : CacheId) (line : Nat) : Option CoreAccess × State :=
  match s.pool.misses.find? (fun m => decide (m.cache = a) && decide (m.line = line)) with
  | some m => (some m.core, { s with pool := { s.pool with misses := s.pool.misses.erase m } })
  | none => (none, s)

/-- A core's access is performed on its cluster's copy: a store makes E M and ends reservations on the line, a reserved load takes one, a
conditional store needs its own and loses it (R194). -/
def State.corePerform (s : State) (a : CacheId) (line : Nat) (x : CoreAccess) : State :=
  let l := s.agentLine a line
  let own := decide ((s.hart x.hart.val).reservation = some line)
  let written (s : State) : State :=
    (if l.st = .e then s.putAgent a line { l with st := .m } else s).breakReservations line
  match x.kind with
  | .lr => s.modHart x.hart.val (fun h => { h with reservation := some line })
  | .sc => (if own then written s else s).modHart x.hart.val (fun h => { h with reservation := none })
  | .store => written s
  | .amo => written s
  | _ => s

/-- What a core's access on its cluster's copy returns: the bytes read, or a conditional store's 0 for success and 1 for failure (R194). -/
def State.coreReply (s : State) (a : CacheId) (line : Nat) (x : CoreAccess) : Reply :=
  match x.kind with
  | .sc => .bytes [if (s.hart x.hart.val).reservation = some line then 0 else 1]
  | .store => .done
  | .prefetch => .done
  | _ => .bytes (bytesAt (s.agentLine a line).data x.offset.toNat (2 ^ x.size.toNat))

/-- DATA installs a line in a cache in the state granted, held when it won it (R214). -/
def State.dataArrives (s : State) (a : CacheId) (line : Nat) : State :=
  match s.takeMsg (fun m => match m with | .data p' l' _ _ err => decide (p' = .cache a) && decide (l' = line) && !err | _ => false) with
  | some (.data _ l b st _, s) =>
    let s := s.putAgent a l ⟨st, (s.home l).key, b, decide (st = .e) || decide (st = .m), []⟩
    match s.takeMiss a l with
    | (some x, s) => (s.reply (s.coreReply a l x)).corePerform a l x
    | (none, s) => s
  | _ => s

/-- COMP makes a cache's line M, and it is held (R214). -/
def State.compArrives (s : State) (a : CacheId) (line : Nat) : State :=
  match s.takeMsg (fun m => match m with | .comp p' l' => decide (p' = .cache a) && decide (l' = line) | _ => false) with
  | some (_, s) =>
    let l := s.agentLine a line
    let s := if l.st = .i then s else s.putAgent a line { l with st := .m, hold := true }
    match s.takeMiss a line with
    | (some x, s) => (s.reply (s.coreReply a line x)).corePerform a line x
    | (none, s) => s
  | none => s

/-- An agent evicts a modified line: the WB with its data leaves, the hold ends, queued snoops are answered as in WBP (R213, Table 09-6). -/
def State.evict (s : State) (a : CacheId) (line : Nat) (b : List Byte) : State :=
  let l := s.agentLine a line
  let s := (s.putAgent a line { l with st := .wbp, data := b, hold := false, snoops := [] }).coh 4 (.wb a line l.key b)
  l.snoops.foldl (fun s e => s.snoopAnswer a line e.1 e.2) s

/-! ## Answers and write-backs at the home (R215) -/

/-- A snoop answer counts: the agent is no longer waited for. -/
def HomeLine.answered (h : HomeLine) (a : CacheId) : HomeLine := { h with waiting := h.waiting &&& ~~~agentMask [a] }

/-- Is an answer of this agent due? -/
def HomeLine.awaits (h : HomeLine) (a : CacheId) : Bool := h.waiting.getLsbD a.val

/-- Go on after an answer: a write whose data were due places them when they are in. -/
def State.homeProceed (s : State) (line : Nat) : State :=
  match s.lineCtrl line with
  | none => s
  | some c =>
    let h := s.home line
    match h.txn with
    | some t =>
      let owner := match h.owner with | some o => h.awaits o | none => false
      if t.req.writes && !h.placed && !owner then
        (((s.placeWrite c line h t).putHome line { h with placed := true })).homeGo line
      else s.homeGo line
    | none => s.homeGo line

/-- ACK arrives: the owner sent the data on, or the agent had evicted the line clean and the home value serves (Table 09-7). -/
def State.ackArrives (s : State) (a : CacheId) (line : Nat) : State :=
  match s.takeMsg (fun m => match m with | .ack a' l' _ _ => decide (a' = a) && decide (l' = line) | _ => false) with
  | some (.ack _ l fwd dirty, s) =>
    let h := s.home l
    if !h.awaits a then s
    else
      let h := h.answered a
      let h := if fwd then { h with fwd := true, dirty := dirty } else if h.owner = some a then h.drop a else h
      (s.putHome l h).homeProceed l
  | _ => s

/-- ACK_D arrives: data for the home. -/
def State.ackDArrives (s : State) (a : CacheId) (line : Nat) : State :=
  match s.takeMsg (fun m => match m with | .ackD a' l' _ => decide (a' = a) && decide (l' = line) | _ => false) with
  | some (.ackD _ l b, s) =>
    let h := s.home l
    if !h.awaits a then s
    else (s.putHome l { (h.answered a) with snoopData := some b }).homeProceed l
  | _ => s

/-- The write-back that crossed a snoop serves as its data; the agent is no holder any more (Table 09-7). -/
def State.consumeWb (s : State) (line : Nat) (a : CacheId) (b : List Byte) : State :=
  let h := s.home line
  let keep : Bool := match h.txn with | some t => decide (t.req ≠ .wrFull) | none => false
  let h := { (((h.answered a).drop a)) with wbHeld := none, ndwb := none, snoopData := if keep then some b else none }
  ((s.putHome line h).cohHome (.wbConsumed a line)).homeProceed line

/-- Is the WB of an agent's line on its way? -/
def State.wbDue (s : State) (a : CacheId) (line : Nat) : Bool :=
  s.pool.msgs.any (fun m => match m with | .wb a' l' _ _ => decide (a' = a) && decide (l' = line) | _ => false)

/-- NDWB arrives (Table 09-7). One whose write-back was discarded with its key (R211) counts as an ACK: the home value serves. -/
def State.ndwbArrives (s : State) (a : CacheId) (line : Nat) : State :=
  match s.takeMsg (fun m => match m with | .ndwb a' l' => decide (a' = a) && decide (l' = line) | _ => false) with
  | some (_, s) =>
    let h := s.home line
    if !h.awaits a then s
    else
      match h.wbHeld with
      | some (o, b) =>
        if o = a then s.consumeWb line a b else s.putHome line { h with ndwb := some a }
      | none =>
        if s.wbDue a line then s.putHome line { h with ndwb := some a }
        else (s.putHome line ((h.answered a).drop a)).homeProceed line
  | none => s

/-- A WB arrives at its home (Table 09-7): written there, or held while a snoop to its agent is outstanding. -/
def State.wbArrives (s : State) (a : CacheId) (line : Nat) : State :=
  match s.takeMsg (fun m => match m with | .wb a' l' _ _ => decide (a' = a) && decide (l' = line) | _ => false) with
  | some (.wb _ n key b, s) =>
    match s.lineCtrl n with
    | none => s
    | some c =>
      let h := s.home n
      if h.awaits a then
        if h.ndwb = some a then s.consumeWb n a b else s.putHome n { h with wbHeld := some (a, b) }
      else
        let s := s.putHome n (h.drop a)
        ((s.homePut ⟨cacheAgent a, 2, .anyone, key, false⟩ c n fullMask b).cohHome (.wbAck a n)).homeGo n
  | _ => s

/-- WB_ACK or WB_CONSUMED arrives: the agent leaves WBP. -/
def State.wbAnswered (s : State) (a : CacheId) (line : Nat) (consumed : Bool) : State :=
  let m : CohMsg := if consumed then .wbConsumed a line else .wbAck a line
  match s.takeMsg (fun x => decide (x = m)) with
  | some (_, s) => if (s.agentLine a line).st = .wbp then s.putAgent a line {} else s
  | none => s

/-! ## Letting transactions end -/

/-- Does a message give a cache its line? -/
def CohMsg.grants (m : CohMsg) : Bool :=
  match m with | .data (.cache _) _ _ _ err => !err | .comp (.cache _) _ => true | _ => false

/-- Does a message go between caches and homes? DATA and COMP to the others, and errors, wait for their own rows. -/
def CohMsg.inner (m : CohMsg) : Bool := match m with | .data _ _ _ _ _ => false | .comp _ _ => false | _ => true

/-- A message arrives. -/
def State.arrive (s : State) (m : CohMsg) : State :=
  match m with
  | .data (.cache a) l _ _ _ => s.dataArrives a l
  | .comp (.cache a) l => s.compArrives a l
  | .snoop k a l _ => s.snoopArrives a l k
  | .ack a l _ _ => s.ackArrives a l
  | .ackD a l _ => s.ackDArrives a l
  | .ndwb a l => s.ndwbArrives a l
  | .wb a l _ _ => s.wbArrives a l
  | .wbAck a l => s.wbAnswered a l false
  | .wbConsumed a l => s.wbAnswered a l true
  | _ => s

/-- Let the transactions of the lines that p accepts end: messages arrive, grants first, and holds that snoops wait for expire; with fuel. -/
def State.settleGo (p : Nat → Bool) : Nat → State → State
  | 0, s => s
  | n + 1, s =>
    match s.pool.msgs.find? (fun m => m.grants && p m.line) with
    | some m => State.settleGo p n (s.arrive m)
    | none =>
      match s.pool.msgs.find? (fun m => m.inner && p m.line) with
      | some m => State.settleGo p n (s.arrive m)
      | none =>
        match s.pool.agents.find? (fun e => !e.2.snoops.isEmpty && p (e.1 % 2 ^ 41)) with
        | some e => State.settleGo p n (s.holdEnds (Fin.ofNat 13 (e.1 / 2 ^ 41)) (e.1 % 2 ^ 41))
        | none => s

/-- Enough fuel: a transaction sends at most 13 snoops, each with its answers and a write-back. -/
def State.settleFuel (s : State) : Nat :=
  64 * (s.pool.msgs.length + s.pool.heldBack.length + s.pool.homes.foldl (fun n e => n + e.2.queue.length + 1) 1)

/-- Let the transactions of some lines end; what the caches' cores get for it is not the answer of the access that waits. -/
def State.settle (s : State) (p : Nat → Bool) : State := (State.settleGo p s.settleFuel s).reply s.host.reply

/-- Let every transaction that an access to a line comes after end: those of its directory set, and of its whole slice when that is full. -/
def State.settleLine (s : State) (line : Nat) : State :=
  let full := decide (sliceLimit ≤ s.sliceLoad line)
  s.settle (fun l => decide (dirSet l = dirSet line) || (full && decide (homeSlice l = homeSlice line)))

/-- Let every transaction of the module end. -/
def State.settleAll (s : State) : State := s.settle (fun _ => true)

/-! ## Coherent accesses of the units that cache nothing -/

/-- The agents that hold a line. -/
def State.holders (s : State) (line : Nat) : List CacheId :=
  (List.finRange 13).filter (fun a => decide ((s.agentLine a line).st ≠ .i))

/-- Is this copy newer than the home's value? One in WBP is while its WB is under way or held at the home (R215). -/
def State.newer (s : State) (a : CacheId) (line : Nat) : Bool :=
  match (s.agentLine a line).st with
  | .m => true
  | .o => true
  | .wbp => s.wbDue a line || (match (s.home line).wbHeld with | some (o, _) => decide (o = a) | none => false)
  | _ => false

/-- The agent whose copy is newer than the home's value. -/
def State.dirtyHolder (s : State) (line : Nat) : Option CacheId := (List.finRange 13).find? (fun a => s.newer a line)

/-- Invalidate every copy of a line and its directory entry; the snoops that waited for a hold have been answered before (settleLine). -/
def State.dropCopies (s : State) (line : Nat) : State :=
  let s := (s.holders line).foldl (fun s a => s.lineLost a line) s
  let h := s.home line
  s.putHome line { h with dir := .di, owner := none, sharers := 0 }

/-- Copies under another key are written back under their own and dropped (R211). -/
def State.rekeyCopies (s : State) (c line key : Nat) : State :=
  if (s.holders line).all (fun a => decide ((s.agentLine a line).key = key)) then s
  else
    let s := match s.dirtyHolder line with
      | some a =>
        let l := s.agentLine a line
        (s.homeWrite ⟨0, 2, .anyone, l.key, false⟩ c line fullMask l.data).2
      | none => s
    s.dropCopies line

/-- A coherent read of a line by a non-caching agent (RD_SN: no state changes at the agents, R210). Beside a write that has placed its data it
is served with those (R208); else it comes after the line's earlier transactions. -/
def State.coherentRead (s : State) (acc : Acc) (c line : Nat) : Option (List Byte) × State :=
  if (s.home line).serves acc.key then s.homeRead acc c line
  else
    let s := (s.settleLine line).rekeyCopies c line acc.key
    match s.dirtyHolder line with
    | some a => (some (s.agentLine a line).data, s)
    | none => s.homeRead acc c line

/-- A coherent write of a line by a non-caching agent (WR_FULL, WR_PART): all copies are invalidated (R209). -/
def State.coherentWrite (s : State) (acc : Acc) (c line mask : Nat) (data : List Byte) : Bool × State :=
  let s := (s.settleLine line).rekeyCopies c line acc.key
  match s.dirtyHolder line with
  | some a =>
    let old := (s.agentLine a line).data
    let s := (s.dropCopies line).breakReservations line
    s.homeWrite acc c line fullMask (mergeLine old data mask)
  | none => ((s.dropCopies line).breakReservations line).homeWrite acc c line mask data

/-! ## Accesses by address -/

/-- Why an access was not served: unmapped or key (R25, R385), fenced (R230), uncorrectable SRAM word (R103). -/
inductive MemErr where
  | unmapped | fenced | sram
  deriving DecidableEq, Repr

/-- Restore the store of a tile in T-OFF (R26): its bytes read 0. -/
def State.restoreTs (s : State) (d t : Nat) : State :=
  if (s.tile d t).power = .off then s.modTile d t (fun x => { x with power := .doze, ts := [], tsBad := [] }) else s

/-- Does a range of an SRAM touch a word that reads as an error (R103)? -/
def badWord (bad : List Nat) (off n : Nat) : Bool := bad.any (fun w => decide (off < 8 * w + 8) && decide (8 * w < off + n))

/-- Words of a range that a write covers in full are good again. -/
def healWords (bad : List Nat) (off n : Nat) : List Nat :=
  bad.filter (fun w => !(decide (off ≤ 8 * w) && decide (8 * w + 8 ≤ off + n)))

/-- n bytes of an SRAM map. -/
def sramRead (m : Map Byte) (off n : Nat) : List Byte := (List.range n).map (fun i => Map.get 0 m (off + i))

/-- Read n bytes that lie in one line. -/
def State.readSpan (s : State) (acc : Acc) (a n : Nat) : Except (MemErr × Nat) (List Byte) × State :=
  if !s.holds acc.own acc.key then (.error (.unmapped, a), s.logAccess 0 a acc.agent)
  else
    match s.place a with
    | .mem c =>
      match s.coherentRead acc c (a / 128) with
      | (some l, s) => (.ok (bytesAt l (a % 128) n), s)
      | (none, s) => (.error (.fenced, a), s.logAccess 1 a acc.agent)
    | .ts d t off =>
      let s := s.restoreTs d t
      if badWord (s.tile d t).tsBad off n then (.error (.sram, a), s.logAccess 1 a acc.agent)
      else (.ok (sramRead (s.tile d t).ts off n), s)
    | _ => (.error (.unmapped, a), s.logAccess 0 a acc.agent)

/-- Write bytes that lie in one line. The event of a discarded store is raised here, and it stays pending for a core or a kernel (R231). -/
def State.writeSpan (s : State) (acc : Acc) (a : Nat) (data : List Byte) : Option (MemErr × Nat) × State :=
  if !s.holds acc.own acc.key then (some (.unmapped, a), s.logAccess 0 a acc.agent)
  else
    match s.place a with
    | .mem c =>
      let o := a % 128
      let mask := (2 ^ data.length - 1) * 2 ^ o
      match s.coherentWrite acc c (a / 128) mask (zeros o ++ data) with
      | (true, s) => (none, s)
      | (false, s) => (some (.fenced, a), (s.discard a acc.agent).storePend a acc.agent)
    | .ts d t off =>
      let s := s.restoreTs d t
      (none, (s.breakReservations (a / 128)).modTile d t (fun x =>
        { x with ts := putCells x.ts off data, tsBad := healWords x.tsBad off data.length }))
    | _ => (some (.unmapped, a), s.logAccess 0 a acc.agent)

/-- Read n bytes line by line, with fuel for the lines; the first error ends it. -/
def State.readGo (acc : Acc) : Nat → State → Nat → Nat → List Byte → Except (MemErr × Nat) (List Byte) × State
  | 0, s, _, _, l => (.ok l, s)
  | f + 1, s, a, n, l =>
    if n = 0 then (.ok l, s)
    else
      let k := min n (128 - a % 128)
      match s.readSpan acc a k with
      | (.ok x, s) => State.readGo acc f s (a + k) (n - k) (l ++ x)
      | (.error e, s) => (.error e, s)

/-- Read n bytes from physical address a. -/
def State.readMem (s : State) (acc : Acc) (a n : Nat) : Except (MemErr × Nat) (List Byte) × State :=
  State.readGo acc (n / 128 + 2) s a n []

/-- Write bytes line by line; the first discarded part ends it (R231). -/
def State.writeGo (acc : Acc) : Nat → State → Nat → List Byte → Option (MemErr × Nat) × State
  | 0, s, _, _ => (none, s)
  | f + 1, s, a, l =>
    if l.isEmpty then (none, s)
    else
      let k := 128 - a % 128
      match s.writeSpan acc a (l.take k) with
      | (none, s) => State.writeGo acc f s (a + k) (l.drop k)
      | (e, s) => (e, s)

/-- Write bytes from physical address a. -/
def State.writeMem (s : State) (acc : Acc) (a : Nat) (l : List Byte) : Option (MemErr × Nat) × State :=
  State.writeGo acc (l.length / 128 + 2) s a l

/-- A system-scope release (R186, R204): every write at a home is performed, and with it every invalidation that it caused; the window read-ahead
buffer holds no line that it could make stale. -/
def State.release (s : State) : State :=
  let s := s.settleAll
  { s with host := { s.host with readAhead := [] } }

/-- The Lantern's own access to memory. -/
def lanternAcc (k : Nat) : Acc := ⟨5, 2, .anyone, k, false⟩

end Sys2Proof.Machine
end

