-- ==== Sys2Proof/Machine/Philox.lean ====
section
/-! DEFINITION. Counter-based random bits (07_random_bits, R164 to R176). -/
namespace Sys2Proof

/-- One round of the generator on (x0, x1, x2, x3) under round keys k0, k1 (R164). -/
def philoxRound (k0 k1 : Nat) (x : Nat × Nat × Nat × Nat) : Nat × Nat × Nat × Nat :=
  let (x0, x1, x2, x3) := x
  let p := 0xD2511F53 * x0
  let q := 0xCD9E8D57 * x2
  ((q / 2 ^ 32) ^^^ x1 ^^^ k0, q % 2 ^ 32, (p / 2 ^ 32) ^^^ x3 ^^^ k1, p % 2 ^ 32)

/-- n further rounds, the key advancing before every round but the first (R164). -/
def philoxGo : Nat → Nat → Nat → Nat × Nat × Nat × Nat → Nat × Nat × Nat × Nat
  | 0, _, _, x => x
  | n + 1, k0, k1, x =>
    philoxGo n ((k0 + 0x9E3779B9) % 2 ^ 32) ((k1 + 0xBB67AE85) % 2 ^ 32) (philoxRound k0 k1 x)

/-- The draw of R164: four output words from a 64-bit seed and four counter words. -/
def philox (seed : Nat) (x : Nat × Nat × Nat × Nat) : Nat × Nat × Nat × Nat :=
  philoxGo 10 (seed % 2 ^ 32) (seed / 2 ^ 32 % 2 ^ 32) x

/-- The draw of a stream, purpose and draw group (R165, Table 07-1), word k in bits 32k+31:32k. -/
def draw (seed stream purpose dg : Nat) : Nat :=
  let (a, b, c, d) := philox seed (dg % 2 ^ 32, dg / 2 ^ 32 % 2 ^ 32, purpose % 2 ^ 32, stream % 2 ^ 32)
  a + 2 ^ 32 * b + 2 ^ 64 * c + 2 ^ 96 * d

/-- The element index of a random coordinate (R170). -/
def elemIndex (r c : Nat) : Nat := r % 2 ^ 32 * 2 ^ 32 + c % 2 ^ 32

/-- The 16-bit field of coordinate (r, c) (R170). -/
def field16 (seed stream purpose r c : Nat) : Nat :=
  let e := elemIndex r c
  draw seed stream purpose (e / 8) / 2 ^ (16 * (e % 8)) % 2 ^ 16

/-- The 32-bit field of coordinate (r, c) (R170). -/
def field32 (seed stream purpose r c : Nat) : Nat :=
  let e := elemIndex r c
  draw seed stream purpose (e / 4) / 2 ^ (32 * (e % 4)) % 2 ^ 32

/-- The purpose index of a descriptor's rounding draws: class 1, step = repetition index (R168).
DEDUCED: an index above 2^28 − 1 is taken modulo 2^28, the width of the step field. -/
def roundPurpose (rep : Nat) : Nat := 1 + 16 * (rep % 2 ^ 28)

/-- rand32 of R173: word F mod 4 of draw F >> 2. -/
def rand32 (seed stream purpose f : Nat) : Nat :=
  draw seed stream purpose (f / 4) / 2 ^ (32 * (f % 4)) % 2 ^ 32

/-- Word k of rand128 (R173). -/
def rand128 (seed stream purpose dg k : Nat) : Nat := draw seed stream purpose dg / 2 ^ (32 * k) % 2 ^ 32

end Sys2Proof
end

