-- ==== Sys2Proof/Machine/Desc.lean ====
section
/-! DEFINITION. Descriptors: field extraction, tensors and their addressing (06, R138 to R142, R434), and every decode check
(R79, R146, R147, R149, R303, R435, R436, R437). Statuses are the codes of Table 06-12. -/
namespace Sys2Proof

/-- Does a descriptor come from a work queue? -/
def DescSrc.isQueue (x : DescSrc) : Bool := match x with | .queue _ _ => true | _ => false

/-- Does a source belong to the schedule stream? -/
def DescSrc.isStream (x : DescSrc) : Bool := !x.isQueue

end Sys2Proof

namespace Sys2Proof.Machine

/-! ## Fields -/

/-- Field of k bytes at byte offset o of a descriptor. -/
abbrev fb (raw : List Byte) (o k : Nat) : Nat := fieldAt raw o k

/-- Signed field. -/
def fs (raw : List Byte) (o k : Nat) : Int := signed (8 * k) (fb raw o k)

/-- kind (Table 06-2). -/
def dKind (raw : List Byte) : Nat := fb raw 0 1

/-- long. -/
def dLong (raw : List Byte) : Bool := bit (fb raw 0 8) 8

/-- Slot offset in a stream. -/
def dOffset (raw : List Byte) : Nat := slice (fb raw 0 8) 39 16

/-- done_sem. -/
def dDone (raw : List Byte) : Nat := slice (fb raw 0 8) 55 40

/-- seq of a queue entry. -/
def dSeq (raw : List Byte) : Nat := slice (fb raw 0 8) 31 16

/-- valid of a queue entry. -/
def dValid (raw : List Byte) : Bool := bit (fb raw 0 8) 32

/-- cq. -/
def dCq (raw : List Byte) : Bool := bit (fb raw 0 8) 56

/-- irq. -/
def dIrq (raw : List Byte) : Bool := bit (fb raw 0 8) 57

/-- after. -/
def dAfter (raw : List Byte) : Bool := bit (fb raw 0 8) 58

/-- Bytes the descriptor occupies (R138). -/
def dSize (raw : List Byte) : Nat := if dLong raw then 128 else 64

/-- Target word: first tile and count (R139). -/
def dFirst (raw : List Byte) : Nat := slice (fb raw 8 8) 6 0

/-- tile_count. -/
def dCount (raw : List Byte) : Nat := slice (fb raw 8 8) 15 8

/-- The logical tiles a descriptor targets. -/
def dTiles (raw : List Byte) : List Nat := (List.range (dCount raw)).map (fun k => dFirst raw + k)

/-- Does Table 06-3 give this kind 128 bytes? -/
def kindLong (k : Nat) : Bool := decide (2 ≤ k) && decide (k ≤ 5)

/-- Header check of R138: the kind status, or the target status of a done_sem that names no semaphore. -/
def headerStatus (q : Bool) (raw : List Byte) : Nat :=
  let k := dKind raw
  let ch := fb raw 0x40 8
  let chBad := kindLong k && (decide (ch % 256 ≠ 0xFF) ||
    (if q then decide (ch / 256 % 256 ≠ 0) || decide (ch / 2 ^ 33 ≠ 0) else decide (ch / 256 ≠ 0)))
  if decide (0x0B < k) || (dLong raw != kindLong k) || chBad || (q && (decide (k = 1) || decide (k = 9) || decide (k = 0x0B))) then 1
  else if 4096 ≤ dDone raw ∧ dDone raw ≤ 0xFFFE then 0x10
  else 0

/-- Target-word check of R139. -/
def targetStatus (s : State) (d : Nat) (raw : List Byte) : Nat :=
  if decide (dCount raw = 0) || decide (128 < dCount raw) || decide ((s.die d).count.toNat < dFirst raw + dCount raw) then 0x10 else 0

/-! ## Tensors -/

/-- Product of a list. -/
def prod (l : List Nat) : Nat := l.foldl (· * ·) 1

/-- Tensor of a TENSOR descriptor (Table 06-4). A format code without a format reads as FP32: the check rejects it first. -/
def tensorOf (raw : List Byte) : Tensor :=
  let attr := fb raw 0x0B 1
  let ce := fb raw 0x18 8
  let rank := attr % 8
  { fmt := (Fmt.ofCode (fb raw 0x0A 1 % 32)).getD .fp32, rank := rank,
    space := match slice attr 4 3 with | 0 => .memory | 1 => .ts | _ => .oc,
    remote := bit attr 5, streaming := bit attr 6, scale := fb raw 0x0C 4, base := fb raw 0x10 8,
    ceil := slice ce 47 0, ceilDim := slice ce 50 48, ceilEmit := bit ce 51, ceilPresent := bit ce 52,
    mxScale := slice (fb raw 0x20 8) 47 0, mxStride := signed 40 (fb raw 0x28 8), iterStep := signed 48 (fb raw 0x30 8),
    key := fb raw 0x38 1 % 64, mxIterStep := signed 48 (fb raw 0x3A 6),
    size := (List.range (min rank 6)).map (fun i => fb raw (0x48 + 4 * i) 4),
    stride := (List.range (min rank 6 - 1)).map (fun i => signed 48 (fb raw (0x60 + 6 * i) 6)) }

/-- Size of dimension i; 1 at and above the rank. -/
def Tensor.dim (t : Tensor) (i : Nat) : Nat := t.size.getD i 1

/-- Element count. -/
def Tensor.count (t : Tensor) : Nat := prod t.size

/-- Bytes of one packed row (R34). -/
def Tensor.rowBytes (t : Tensor) : Nat := t.dim 0 * t.fmt.width / 8

/-- Number of rows. -/
def Tensor.rows (t : Tensor) : Nat := prod (t.size.drop 1)

/-- Packed size in bytes. -/
def Tensor.packed (t : Tensor) : Nat := t.rows * t.rowBytes

/-- Indices of dimensions 1 and up of row r, counted with dimension 1 innermost. -/
def rowIndex : List Nat → Nat → List Nat
  | [], _ => []
  | n :: ns, r => r % n :: rowIndex ns (r / n)

/-- Local base: bits 47:0 in memory space. -/
def Tensor.localBase (t : Tensor) : Nat := t.base % 2 ^ 48

/-- Dot product of indices and strides. -/
def dotStride (ix : List Nat) (st : List Int) : Int := (ix.zip st).foldl (fun a p => a + p.1 * p.2) 0

/-- Byte address of row r at repetition rep, with an extra step (R140, R145). -/
def Tensor.rowAddr (t : Tensor) (rep : Nat) (step : Int) (r : Nat) : Int :=
  (t.localBase : Int) + t.iterStep * rep + step + dotStride (rowIndex (t.size.drop 1) r) t.stride

/-- Byte address of the scale bytes of row r (R140, R145). -/
def Tensor.scaleAddr (t : Tensor) (rep : Nat) (step : Int) (r : Nat) : Int :=
  (t.mxScale : Int) + t.mxIterStep * rep + step + t.mxStride * r

/-- Byte range of the elements: low end and high end (exclusive). -/
def Tensor.extent (t : Tensor) (rep : Nat) (step : Int) : Int × Int :=
  let ext := ((t.size.drop 1).zip t.stride).map (fun p => ((p.1 : Int) - 1) * p.2)
  let b := (t.localBase : Int) + t.iterStep * rep + step
  (b + ext.foldl (fun a e => a + min e 0) 0, b + ext.foldl (fun a e => a + max e 0) 0 + t.rowBytes)

/-- Byte range of the scale array. -/
def Tensor.scaleExtent (t : Tensor) (rep : Nat) (step : Int) : Int × Int :=
  let e := ((t.rows : Int) - 1) * t.mxStride
  let b := (t.mxScale : Int) + t.mxIterStep * rep + step
  (b + min e 0, b + max e 0 + t.dim 0 / 32)

/-- Entries of the ceiling vector: indices of the non-reduced dimensions (R69). -/
def Tensor.ceilCount (t : Tensor) : Nat := prod (t.size.eraseIdx t.ceilDim)

/-- Does a byte range lie in 0 to n − 1? -/
def within (r : Int × Int) (n : Int) : Bool := decide (0 ≤ r.1) && decide (r.2 ≤ n)

/-- Extent check of R141 step 3 for TS and OC tensors. -/
def Tensor.fits (t : Tensor) (rep : Nat) : Bool :=
  let lim : Int := match t.space with | .ts => 0x200000 | _ => 0x40000
  match t.space with
  | .memory => true
  | _ => decide (t.base < 2 ^ 48) && within (t.extent rep 0) lim && (!t.fmt.isMx || within (t.scaleExtent rep 0) lim) &&
      (!(t.ceilEmit || t.ceilPresent) || within (t.ceil, t.ceil + 2 * t.ceilCount) lim)

/-- Do two byte ranges overlap? -/
def overlaps (a b : Int × Int) : Bool := decide (a.1 < b.2) && decide (b.1 < a.2)

/-- Byte ranges of a tensor: elements, scales, ceiling vector when it is written or read. -/
def Tensor.ranges (t : Tensor) (rep : Nat) (step mxStep : Int) : List (Int × Int) :=
  [t.extent rep step] ++ (if t.fmt.isMx then [t.scaleExtent rep mxStep] else []) ++
    (if t.ceilEmit then [((t.ceil : Int), (t.ceil : Int) + 2 * t.ceilCount)] else [])

/-- A tensor without its ceiling vector: the overlap rules name ceilings apart from tensors (Table 03-2), so the byte ranges of a tensor
are its elements and its scales there (DEDUCED). -/
def Tensor.bare (t : Tensor) : Tensor := { t with ceilEmit := false }

/-- Do two tensors lie in different spaces, or on different modules (R27)? -/
def Tensor.apart (a b : Tensor) : Bool :=
  decide (a.space ≠ b.space) || (decide (a.space = .memory) && (a.remote || b.remote) && decide (a.base / 2 ^ 48 ≠ b.base / 2 ^ 48))

/-- Do any ranges of two lists overlap? -/
def rangesOverlap (a b : List (Int × Int)) : Bool := a.any (fun x => b.any (overlaps x))

/-- The same tensor in the sense of R434 (index and ceil may differ). -/
def Tensor.same (a b : Tensor) : Bool :=
  decide (a.fmt = b.fmt) && decide (a.space = b.space) && decide (a.remote = b.remote) && decide (a.base = b.base) &&
    decide (a.scale = b.scale) && decide (a.size = b.size) && decide (a.stride = b.stride) &&
    decide (a.iterStep = b.iterStep) && decide (a.key = b.key) &&
    (!a.fmt.isMx || (decide (a.mxScale = b.mxScale) && decide (a.mxStride = b.mxStride) && decide (a.mxIterStep = b.mxIterStep)))

/-- What a decode check needs to know of the issuer: queue or stream, key holder, repetition index, tensors, whether a schedule
job runs on the die. -/
structure Issuer where
  queue : Bool
  own : Holder
  rep : Nat
  jobRuns : Bool
  tensors : Map (Option Tensor)
  deriving DecidableEq, Repr

/-- A valid tensor-table entry; none for 0xFFFF and invalid entries (R142). -/
def Issuer.tensor (i : Issuer) (k : Nat) : Option Tensor := if 4096 ≤ k then none else Map.get none i.tensors k

/-- Checks of a TENSOR descriptor in the order of R141. -/
def tensorStatus (s : State) (iss : Issuer) (raw : List Byte) : Nat :=
  let t := tensorOf raw
  let attr := fb raw 0x0B 1
  let idx := fb raw 8 2
  let rank := attr % 8
  let highBad := (List.range 6).any (fun i => decide (rank ≤ i) && decide (fb raw (0x48 + 4 * i) 4 ≠ 0)) ||
    (List.range 5).any (fun i => decide (rank ≤ i + 1) && decide (fb raw (0x60 + 6 * i) 6 ≠ 0))
  let code := fb raw 0x0A 1 % 32
  let sub8 := match Fmt.ofCode code with | some f => decide (f.width < 8) || f.isMx | none => false
  if decide (4095 < idx) || (iss.queue && decide (idx < 3840) && iss.jobRuns) then 0x10
  else if decide (slice attr 4 3 = 3) || (bit attr 5 && decide (slice attr 4 3 ≠ 0)) then 0x11
  else if decide (rank = 0) || decide (6 < rank) || t.size.any (fun n => decide (n = 0)) || highBad ||
      (sub8 && decide (t.dim 0 % 32 ≠ 0)) || ((t.ceilEmit || t.ceilPresent) && decide (rank ≤ t.ceilDim)) ||
      ((Fmt.ofCode code).isSome && !t.fits iss.rep) then 8
  else if (Fmt.ofCode code).isNone || !scaleOk t.scale || (t.fmt.isWa && decide (t.scale ≠ 0x3F800000)) then 2
  else if !s.holds iss.own t.key then 0xD
  else 0

/-! ## Per-kind checks -/

/-- First nonzero status of a list. -/
def firstStatus : List Nat → Nat
  | [] => 0
  | 0 :: r => firstStatus r
  | n :: _ => n

/-- Status when a condition holds. -/
def rej (c : Bool) (status : Nat) : Nat := if c then status else 0

/-- Bytes of a panel of 64 rows of 32 elements, with its scale panel, rounded up to a ring slot (Table 04-2, R87). -/
def ringSlot (f : Fmt) : Nat :=
  let p := 64 * (32 * f.width / 8)
  if f.isMx then (p + 64 + 255) / 256 * 256 else p

/-- The fields of a MATMUL (Table 06-5). -/
structure MatmulFields where
  c : Nat
  d : Nat
  fa : Option Fmt
  fbm : Option Fmt
  ctl : Nat
  m : Nat
  n : Nat
  k : Nat
  k0 : Nat
  kTotal : Nat
  ringA : Nat
  ringB : Nat
  ceilA : Nat
  ceilB : Nat
  deriving DecidableEq, Repr

/-- Read the fields. m and n: 0 stands for 4,096 (R435). -/
def mmFields (raw : List Byte) : MatmulFields :=
  let z (x : Nat) : Nat := if x = 0 then 4096 else x
  { c := fb raw 0x10 2, d := fb raw 0x12 2, fa := Fmt.ofCode (fb raw 0x14 1), fbm := Fmt.ofCode (fb raw 0x15 1),
    ctl := fb raw 0x16 2, m := z (fb raw 0x20 2), n := z (fb raw 0x22 2), k := fb raw 0x24 4, k0 := fb raw 0x28 8 % 2 ^ 40,
    kTotal := fb raw 0x30 8 % 2 ^ 41, ringA := fb raw 0x38 4, ringB := fb raw 0x3C 4, ceilA := fb raw 0x48 8,
    ceilB := fb raw 0x50 8 }

/-- mode bit: window. -/
def MatmulFields.window (x : MatmulFields) : Bool := bit x.ctl 0

/-- acc_fmt, FP32 for the rejected code 3. -/
def MatmulFields.accFmt (x : MatmulFields) : Fmt := match slice x.ctl 2 1 with | 0 => .fp32 | 1 => .fp64 | _ => .int32

/-- Base of a ring in the OC. -/
def ringBase (r : Nat) : Nat := slice r 9 0 * 256

/-- Slot count of a ring. -/
def ringSlots (r : Nat) : Nat := slice r 16 10

/-- Is a ring legal for a format: 2 to 64 slots inside the OC? -/
def ringOk (f : Fmt) (base slots : Nat) : Bool :=
  decide (2 ≤ slots) && decide (slots ≤ 64) && decide (base + slots * ringSlot f ≤ 0x40000)

/-- Does a tensor cover m × n output positions (R435)? -/
def Tensor.covers (t : Tensor) (m n : Nat) : Bool :=
  decide (n ≤ t.dim 0) && (decide (m ≤ 1) || (decide (2 ≤ t.rank) && decide (m ≤ t.dim 1)))

/-- Byte ranges in the OC of the first m × n positions of a tensor. -/
def Tensor.cornerRanges (t : Tensor) (rep m : Nat) : List (Int × Int) :=
  let t2 := { t with size := [t.dim 0, min m (t.dim 1)], stride := t.stride.take 1 }
  if t.rank < 2 then t.ranges rep 0 0 else [t2.extent rep 0] ++ (t.ranges rep 0 0).drop 1

/-- OC range a ceiling field reads; none when absent or in memory. -/
def ceilRange (c cnt : Nat) : List (Int × Int) :=
  if slice c 49 48 = 2 then [((slice c 47 0 : Nat), (slice c 47 0 : Nat) + 2 * (cnt : Int))] else []

/-- The rows of Table 03-2, from the top (R79). Rows 1, 3 and 4 carry no mode condition, so they reject a window-mode operation too,
although R77 ignores acc_fmt and acc_rnd there (DEDUCED: notes/assumptions/91). -/
def table0302 (x : MatmulFields) (a : Fmt) (c : Option Tensor) (d : Tensor) (rep : Nat) : Nat :=
  let int := match a with | .int8 => true | .uint8 => true | _ => false
  let wa : Fmt := if a = .fp64 then .wa384 else .wa192
  let acc := x.accFmt
  let cBad (p : Fmt → Bool) : Bool := match c with | some t => p t.fmt | none => false
  let dR := d.bare.ranges rep 0 0
  let ringR (r : Nat) : Int × Int := ((ringBase r : Nat), (ringBase r : Nat) + (ringSlots r * ringSlot a : Nat))
  let cOver := match c with
    | some t => !t.same d && rangesOverlap dR (t.bare.ranges rep 0 0)
    | none => false
  firstStatus
    [rej (decide (slice x.ctl 4 3 = 2)) 4,
     rej (x.window && int) 4,
     rej ((int && decide (acc ≠ .int32)) || (!int && decide (acc = .int32))) 2,
     rej (decide (a = .fp64) && decide (acc = .fp32)) 2,
     rej ((!x.window && (d.fmt.isWa || cBad (fun f => f.isWa || decide (f ≠ acc)))) ||
       (x.window && (cBad (fun f => decide (f ≠ wa)) || (d.fmt.isWa && decide (d.fmt ≠ wa)) || d.fmt.isInt))) 2,
     rej (a.isMx && decide (x.k0 % 32 ≠ 0)) 2,
     rej (decide (slice x.ceilA 49 48 = 3) || decide (slice x.ceilB 49 48 = 3)) 5,
     rej (x.window && (decide (slice x.ceilA 49 48 = 0) || decide (slice x.ceilB 49 48 = 0))) 5,
     rej (x.window && (decide (x.kTotal = 0) || decide (2 ^ 40 < x.kTotal) || decide (x.kTotal < x.k))) 6,
     rej (rangesOverlap dR ([ringR x.ringA, ringR x.ringB] ++ ceilRange x.ceilA x.m ++ ceilRange x.ceilB x.n) || cOver) 7]

/-- SR conditions of R172 on a MATMUL: its destination, and the coordinates (i0 + i, j0 + j) of its m × n positions (R171). -/
def MatmulFields.srBad (x : MatmulFields) (td : Tensor) (i0 j0 : Nat) : Bool :=
  (td.size.drop 2).any (fun n => decide (n ≠ 1)) || decide (2 ^ 32 < i0 + x.m) || decide (2 ^ 32 < j0 + x.n)

/-- Checks of a MATMUL after the header, in the order of R435; the shape status of R172 comes last (DEDUCED). The
scales of A and B are checked with the formats (R42, DEDUCED). -/
def matmulStatus (s : State) (d : Nat) (iss : Issuer) (raw : List Byte) : Nat :=
  let x := mmFields raw
  let t0 := targetStatus s d raw
  if t0 ≠ 0 then t0
  else
    match x.fa, x.fbm with
    | some a, some b =>
      if !a.matrixOperand || !b.matrixOperand then 2
      else if a ≠ b then 3
      else if !scaleOk (fb raw 0x18 4) || !scaleOk (fb raw 0x1C 4) then 2
      else if decide (slice x.ctl 4 3 = 3) || decide (slice x.ctl 6 5 = 3) || decide (slice x.ctl 2 1 = 3) then 4
      else
        match iss.tensor x.d with
        | none => 0x10
        | some td =>
          let tc := if x.c = 0xFFFF then none else iss.tensor x.c
          if decide (x.c ≠ 0xFFFF) && tc.isNone then 0x10
          else if decide (td.space ≠ .oc) || (match tc with | some t => decide (t.space ≠ .oc) | none => false) then 0x11
          else if decide (4096 < x.m) || decide (4096 < x.n) || decide (x.k = 0) || decide (2 ^ 20 < x.k) ||
              !ringOk a (ringBase x.ringA) (ringSlots x.ringA) || !ringOk a (ringBase x.ringB) (ringSlots x.ringB) ||
              !td.covers x.m x.n || (match tc with | some t => !t.covers x.m x.n | none => false) ||
              (td.fmt.isMx && decide (x.n % 32 ≠ 0)) then 8
          else firstStatus [table0302 x a tc td iss.rep, rej (decide (slice x.ctl 6 5 = 2) && x.srBad td (fb raw 0x58 4) (fb raw 0x5C 4)) 8]
    | _, _ => 2

/-- Plate formats, coded as in R116. -/
def plateFmt (c : Nat) : Option Fmt :=
  match c with | 0 => some .fp32 | 1 => some .int32 | 2 => some .bf16 | 3 => some .fp16 | 4 => some .int16 | 5 => some .fp64 | _ => none

/-- SR conditions of R172 on a destination of given sizes and origin. -/
def srBad (sizes : List Nat) (origin : List Nat) : Bool :=
  (sizes.drop 2).any (fun n => decide (n ≠ 1)) || (origin.drop 2).any (fun n => decide (n ≠ 0)) ||
    decide (2 ^ 32 < origin.getD 0 0 + sizes.getD 0 1) || decide (2 ^ 32 < origin.getD 1 0 + sizes.getD 1 1)

/-- origin[0..5] at byte 0x48. -/
def originOf (raw : List Byte) : List Nat := (List.range 6).map (fun i => fb raw (0x48 + 4 * i) 4)

/-- Does a VLOOP's operation need a c operand: fused multiply-add 0x02, select 0x04, lookup 0x0D? (Table 05-3 numbering) -/
def vloopNeedsC (op : Nat) : Bool := decide (op = 2) || decide (op = 4) || decide (op = 0x0D)

/-- Must b name a valid entry? When imm is not used, whatever the operation (Table 06-17). -/
def vloopNeedsB (imm : Bool) : Bool := !imm

/-- Element-wise relation of an operand to d: same rank and sizes (R144). -/
def sizesEq (a b : Tensor) : Bool := decide (a.size = b.size)

/-- Checks of a VLOOP after the header (R436, Table 06-17). -/
def vloopStatus (s : State) (d : Nat) (iss : Issuer) (islandPlates : Nat → Nat) (raw : List Byte) : Nat :=
  let op := fb raw 0x10 1
  let pf := fb raw 0x11 1
  let ctl := fb raw 0x12 2
  let f := plateFmt (pf % 8)
  let w := (f.getD .fp32).width
  let reduce := slice ctl 8 7
  let rdim := slice ctl 11 9
  let imm := bit pf 6
  let plates := fb raw 0x24 4
  let a := iss.tensor (fb raw 0x18 2)
  let b := if vloopNeedsB imm then iss.tensor (fb raw 0x1A 2) else none
  let c := if vloopNeedsC op then iss.tensor (fb raw 0x1C 2) else none
  let dd := iss.tensor (fb raw 0x1E 2)
  let named := [a, b, c, dd].filterMap id
  let t0 := targetStatus s d raw
  if t0 ≠ 0 then t0
  else if decide (0x0D < op) || decide (3 < slice pf 5 3) || f.isNone || decide (1 < slice ctl 1 0) || decide (slice ctl 3 2 = 3) ||
      decide (reduce = 3) || decide (5 < rdim) || (decide (op = 0x0D) && decide (w < fb raw 0x20 1 + 8)) then 4
  else if a.isNone || dd.isNone || (vloopNeedsB imm && b.isNone) || (vloopNeedsC op && c.isNone) then 0x10
  else if named.any (fun t => decide (t.space ≠ .oc)) then 0x11
  else if named.any (fun t => t.fmt.isWa) then 2
  else if decide (popcount 32 plates < 4) || (dTiles raw).any (fun t => decide (plates &&& islandPlates t ≠ 0)) then 0x10
  else
    match a, dd with
    | some ta, some td =>
      let tableBad := decide (op = 0x0D) && (match c with | some t => decide (t.count ≠ 256) | none => true)
      let shapeBad := tableBad ||
        if reduce = 0 then
          (if op = 0x0D then !sizesEq ta td
           else !sizesEq ta td || (match b with | some t => !sizesEq t td | none => false) ||
             (match c with | some t => !sizesEq t td | none => false))
        else decide (ta.rank ≤ rdim) || decide (td.size ≠ ta.size.set rdim 1) ||
          (decide (reduce = 2) && (match b with | some t => !sizesEq t ta | none => true))
      if shapeBad then 8 else rej (decide (slice ctl 3 2 = 2) && srBad td.size (originOf raw)) 8
    | _, _ => 0x10

/-- Checks of a MOVE after the header (R437, Table 06-18). -/
def moveStatus (s : State) (d : Nat) (iss : Issuer) (raw : List Byte) : Nat :=
  let xf := fb raw 0x15 1
  let src := iss.tensor (fb raw 0x10 2)
  let dst := iss.tensor (fb raw 0x12 2)
  let t0 := targetStatus s d raw
  if t0 ≠ 0 then t0
  else if slice xf 4 3 = 3 then 4
  else
    match src, dst with
    | some a, some b =>
      let pack := bit xf 1
      let gather := bit xf 2
      let gcount := fb raw 0x2C 2
      let slots := slice (fb raw 0x16 1) 7 1
      let ss := signed 48 (fb raw 0x18 8)
      let ds := signed 48 (fb raw 0x20 8)
      let overlap (k : Nat) : Bool :=
        if gather || a.apart b then false
        else
          let st (x : Int) : Int := if a.space = .memory then x * k else 0
          rangesOverlap (a.bare.ranges iss.rep (st ss) (st (fs raw 0x34 6))) (b.bare.ranges iss.rep (st ds) (st (fs raw 0x3A 6)))
      firstStatus
        [rej ((pack && decide (b.space ≠ .oc)) || (gather && decide (a.space ≠ .memory))) 0x11,
         rej ((a.fmt.isWa || b.fmt.isWa) && decide (a.fmt ≠ b.fmt)) 2,
         rej ((pack && !ringOk b.fmt b.localBase slots) ||
           (gather && (decide (gcount = 0) || decide (256 < gcount) || decide (gcount * 128 < a.packed)))) 8,
         rej (decide (slice xf 4 3 = 2) && srBad b.size (originOf raw)) 8,
         rej ((a.remote && b.remote) || (List.range (dCount raw)).any overlap) 7]
    | _, _ => 0x10

/-- Is a format allowed for a reduction (Table 13-3)? -/
def redFmtOk (red : Nat) (f : Fmt) : Bool :=
  match red with
  | 0 => true
  | 1 => (match f with | .bf16 => true | .fp16 => true | .fp32 => true | .fp64 => true | .int32 => true | _ => false)
  | 4 => f.isWa
  | _ => (match f with
    | .e4m3 => true | .e5m2 => true | .bf16 => true | .fp16 => true | .fp32 => true | .fp64 => true
    | .int8 => true | .int16 => true | .int32 => true | .uint8 => true | _ => false)

/-- The fields of a COLL (Table 06-8). -/
structure CollFields where
  ce : Nat
  collId : Nat
  step : Nat
  nsteps : Nat
  op : Nat
  red : Nat
  algo : Nat
  fl : Nat
  fmt : Option Fmt
  n : Nat
  rank : Nat
  src : Nat
  dst : Nat
  bytes : Nat
  comm : Nat
  root : Nat
  deriving DecidableEq, Repr

/-- Read the fields. -/
def collFields (raw : List Byte) : CollFields :=
  { ce := fb raw 8 1 % 4, collId := fb raw 0x10 4, step := fb raw 0x14 2, nsteps := fb raw 0x16 2, op := fb raw 0x18 1,
    red := fb raw 0x19 1, algo := fb raw 0x1A 1, fl := fb raw 0x1B 1, fmt := Fmt.ofCode (fb raw 0x1C 1), n := fb raw 0x20 4,
    rank := fb raw 0x24 4, src := fb raw 0x28 2, dst := fb raw 0x2A 2, bytes := fb raw 0x2C 4, comm := fb raw 0x30 4,
    root := fb raw 0x34 4 }

/-- Does Table 13-2 give this member a src? -/
def CollFields.hasSrc (x : CollFields) : Bool := decide (x.op ≠ 4) && (decide (x.op ≠ 3) || decide (x.rank = x.root))

/-- Does it give it a dst? -/
def CollFields.hasDst (x : CollFields) : Bool := decide (x.op ≠ 4)

/-- T of R288: parts of one member's input; 0 when not whole. -/
def CollFields.parts (x : CollFields) (a b : Tensor) : Nat :=
  let per := if x.op = 0 then b.count else x.n * b.count
  if per = 0 then 0 else if a.count % per = 0 then a.count / per else 0

/-- Shape rule of Tables 13-2 and 13-5: true when bytes, T or the counts are wrong. -/
def CollFields.shapeBad (x : CollFields) (a b : Option Tensor) : Bool :=
  let w := (x.fmt.getD .fp32).width
  let cnt (t : Option Tensor) : Nat := match t with | some t => t.count | none => 0
  let bits := x.bytes * 8
  match x.op with
  | 4 => decide (x.bytes ≠ 1)
  | 3 => decide (bits ≠ cnt b * w) || (match a with | some t => decide (t.count ≠ cnt b) | none => false)
  | 2 => decide (bits ≠ cnt a * w) || decide (cnt b ≠ x.n * cnt a)
  | 5 => decide (bits * x.n ≠ cnt a * w) || decide (cnt b ≠ cnt a)
  | 6 => decide (bits ≠ cnt b * w)
  | 7 => decide (x.bytes ≠ 4 * x.n) || decide (cnt a ≠ x.n) || decide (cnt b ≠ x.n)
  | _ =>
    let need := if x.op = 0 then cnt b * w else x.n * cnt b * w
    match a, b with
    | some ta, some tb =>
      let tt := x.parts ta tb
      decide (bits ≠ need) || decide (tt = 0) || decide (128 < tt) || (decide (1 < tt) && decide (ta.size.getLastD 0 ≠ tt))
    | _, _ => true

/-- Is the format of a step wrong for its reduction, its operation or its tensors (Table 13-5)? -/
def collFmtBad (x : CollFields) (ts : List Tensor) : Bool :=
  match x.fmt with
  | some f => !redFmtOk x.red f || (decide (x.op = 7) && decide (f ≠ .int32)) || ts.any (fun t => decide (t.fmt ≠ f))
  | none => true

/-- Checks of a COLL after the header: R146, then Table 13-5 (R303). -/
def collStatus (iss : Issuer) (raw : List Byte) : Nat :=
  let x := collFields raw
  let a := if x.hasSrc then iss.tensor x.src else none
  let b := if x.hasDst then iss.tensor x.dst else none
  let ts := [a, b].filterMap id
  let merge := bit x.fl 2
  let op4 := decide (x.op = 2) || decide (x.op = 5) || decide (x.op = 6) || decide (x.op = 7)
  let overlap := match a, b with
    | some ta, some tb => !ta.apart tb && rangesOverlap (ta.bare.ranges iss.rep 0 0) (tb.bare.ranges iss.rep 0 0) &&
        !(ta.same tb && ((decide (x.op = 0) && decide (x.parts ta tb = 1)) || decide (x.op = 3)))
    | _, _ => false
  firstStatus
    [rej (decide (2 ^ 22 < x.bytes) || (decide (x.red = 4) && (match x.fmt with | some f => !f.isWa | none => true)) ||
       (decide (1 ≤ x.red) && decide (x.red ≤ 4) && op4)) 4,
     rej (decide (7 < x.op) || decide (4 < x.red) || decide (2 < x.algo) || decide (2 ≤ x.fl % 4)) 4,
     rej (((decide (x.op = 0) || decide (x.op = 1)) && decide (x.red = 0)) ||
       ((decide (x.op = 3) || decide (x.op = 4)) && decide (x.red ≠ 0))) 4,
     rej (decide (x.red = 1) && decide (x.algo ≠ 2)) 4,
     rej (merge && (decide (2 < x.op) || ts.length ≠ 2 || ts.any (fun t => !t.ceilPresent))) 4,
     rej (collFmtBad x ts || ts.any (fun t => decide (t.scale ≠ 0x3F800000))) 2,
     rej (decide (x.n = 0) || decide (x.n ≤ x.rank) || decide (x.n ≤ x.root) || (x.hasSrc && a.isNone) || (x.hasDst && b.isNone)) 0x10,
     rej (x.shapeBad a b) 8,
     rej (ts.any (fun t => decide (t.space ≠ .memory))) 0x11,
     rej overlap 7]

/-- Checks of a SEM_WAIT (R147). -/
def semWaitStatus (raw : List Byte) : Nat :=
  firstStatus [rej (decide (4095 < fb raw 8 2)) 0x10, rej (decide (1 < fb raw 0x0A 1)) 4]

/-- Checks of a SEM_SIGNAL (R147). -/
def semSignalStatus (raw : List Byte) : Nat :=
  firstStatus [rej (decide (4095 < fb raw 8 2)) 0x10,
    rej (decide (1 < fb raw 0x0A 1) || decide (slice (fb raw 0x0B 1) 2 1 = 3)) 4]

/-- Checks of a FRAME (R149): the mode status. -/
def frameStatus (raw : List Byte) : Nat :=
  let l := fb raw 8 4
  let r := fb raw 0x0C 4
  rej (decide (l = 0) || decide (2 ^ 24 < l) || decide (r = 0) || decide (2 ^ 24 < r)) 4

/-- Every decode check of a descriptor: the header, then its kind. An ISLAND of a queue must have window 0 (Table 06-3; the kind
status is DEDUCED); a groups field above 65,536 has no check in the spec and is accepted (DESIGN CHOICE: notes/assumptions/74). -/
def decodeStatus (s : State) (d : Nat) (iss : Issuer) (islandPlates : Nat → Nat) (raw : List Byte) : Nat :=
  let h := headerStatus iss.queue raw
  if h ≠ 0 then h
  else
    match dKind raw with
    | 1 => frameStatus raw
    | 2 => tensorStatus s iss raw
    | 3 => matmulStatus s d iss raw
    | 4 => vloopStatus s d iss islandPlates raw
    | 5 => moveStatus s d iss raw
    | 6 => collStatus iss raw
    | 7 => semWaitStatus raw
    | 8 => semSignalStatus raw
    | 10 => firstStatus [rej (iss.queue && decide (fb raw 0x18 4 ≠ 0)) 1, targetStatus s d raw]
    | _ => 0

end Sys2Proof.Machine
end

