-- ==== Sys2Proof/Machine/Tile.lean ====
section
/-! DEFINITION. What the units of a tile compute: tensor rows in the operand cache, conversions at loads and stores (R94), plate
operations (R95 to R97), vector loops (R99, R144), moves (R102, R145, R438), ceiling vectors (R68 to R70). -/
namespace Sys2Proof.Machine

/-! ## Bits of an SRAM -/

/-- Field of n bits at bit address a. -/
def getBits (m : Map Byte) (a n : Nat) : Nat :=
  leNat (sramRead m (a / 8) ((a % 8 + n + 7) / 8)) / 2 ^ (a % 8) % 2 ^ n

/-- Write a field of n bits at bit address a. -/
def putBits (m : Map Byte) (a n x : Nat) : Map Byte :=
  let k := (a % 8 + n + 7) / 8
  let old := leNat (sramRead m (a / 8) k)
  let lo := a % 8
  let cleared := old - (old / 2 ^ lo % 2 ^ n) * 2 ^ lo
  putCells m (a / 8) (leBytes k (cleared + (x % 2 ^ n) * 2 ^ lo))

/-- The w-bit codes of a packed row (R34). -/
def unpackRow (w n : Nat) (row : List Byte) : List Nat :=
  let x := leNat row
  (List.range n).map (fun i => x / 2 ^ (w * i) % 2 ^ w)

/-- Pack codes into k bytes. -/
def packRow (w k : Nat) (codes : List Nat) : List Byte :=
  leBytes k (codes.foldr (fun c a => c % 2 ^ w + 2 ^ w * a) 0)

/-! ## Tensor elements -/

/-- One row of a tensor as bytes: elements, and block scales for an MX format. -/
abbrev RowBytes := List Byte × List Byte

/-- Rows of a tensor that lies in an SRAM. -/
def sramRows (m : Map Byte) (t : Tensor) (rep : Nat) : List RowBytes :=
  (List.range t.rows).map (fun r => (sramRead m (t.rowAddr rep 0 r).toNat t.rowBytes,
    if t.fmt.isMx then sramRead m (t.scaleAddr rep 0 r).toNat (t.dim 0 / 32) else []))

/-- Write a tensor's rows into an SRAM. -/
def putRows (m : Map Byte) (t : Tensor) (rep : Nat) (rows : List RowBytes) : Map Byte :=
  ((List.range t.rows).zip rows).foldl (fun m p =>
    let m := putCells m (t.rowAddr rep 0 p.1).toNat p.2.1
    if t.fmt.isMx then putCells m (t.scaleAddr rep 0 p.1).toNat p.2.2 else m) m

/-- Per-tensor scale as a value (R42). -/
def scaleVal (c : Nat) : Val := Fmt.fp32.decode c

/-- Logical value of an element (R59): ftz_in on the code, block scale, per-tensor scale. -/
def elemVal (f : Fmt) (ftz : Bool) (blockScale : Option Nat) (scale code : Nat) : Val :=
  let v := f.decodeFtz ftz code
  let v := match blockScale with | some x => applyScale v (e8m0 x) | none => v
  if scale = 0x3F800000 then v else (Val.mul v (scaleVal scale)).1

/-- Codes of all elements in logical order. -/
def rowCodes (t : Tensor) (rows : List RowBytes) : List Nat :=
  (rows.map (fun r => unpackRow t.fmt.width (t.dim 0) r.1)).flatten

/-- Block-scale byte of element i of a row. -/
def blockScale (f : Fmt) (scales : List Byte) (i : Nat) : Option Nat :=
  if f.isMx then some (scales.getD (i / 32) 0).toNat else none

/-- Logical values of all elements in logical order. -/
def rowVals (t : Tensor) (ftz : Bool) (rows : List RowBytes) : List Val :=
  (rows.map (fun r => ((unpackRow t.fmt.width (t.dim 0) r.1).zip (List.range (t.dim 0))).map (fun p =>
    elemVal t.fmt ftz (blockScale t.fmt r.2 p.2) t.scale p.1))).flatten

/-- Draws for a row's n elements from column c0 of row r: the seed, stream and purpose of R171; zeros without SR. -/
def rowDraws (sr : Bool) (seed stream rep r c0 n : Nat) : List Nat :=
  if sr then (List.range n).map (fun i => field16 seed stream (roundPurpose rep) r (c0 + i)) else List.replicate n 0

/-- Split a list into blocks of k, with fuel. -/
def chunks {α : Type} (k : Nat) : Nat → List α → List (List α)
  | 0, _ => []
  | n + 1, l => if l.isEmpty then [] else l.take k :: chunks k n (l.drop k)

/-- Encode one row of exact values, SAT entries marked (R45, R41, R56): codes, scale bytes, flags. -/
def encodeRow (f : Fmt) (o : CvtOpts) (scale : Nat) (vs : List (Val × Bool)) (r16 : List Nat) : List Nat × List Nat × NumFlags :=
  let sD := scaleVal scale
  let div (v : Val) : Val := if scale = 0x3F800000 then v else Val.divPos v sD
  if f.isMx then
    let bs := (chunks 32 vs.length vs).zip (chunks 32 vs.length r16)
    let qs := bs.map (fun b => quantiseBlock f o (b.1.map (fun p => (div p.1, p.2))) b.2)
    ((qs.map (fun q => q.2.1)).flatten, qs.map (·.1), NumFlags.all (qs.map (fun q => q.2.2)))
  else
    let cs := (vs.zip r16).map (fun p => convertWin f o p.2 (if scale = 0x3F800000 then Val.ofInt 1 else sD) p.1)
    (cs.map (·.1), [], NumFlags.all (cs.map (·.2)))

/-- Rows of codes as bytes. -/
def codesToRow (t : Tensor) (codes scales : List Nat) : RowBytes :=
  (packRow t.fmt.width t.rowBytes codes, scales.map (BitVec.ofNat 8))

/-- A subnormal code becomes a zero of the same sign (ftz_out of a copy, R37, R94). -/
def flushCode (f : Fmt) (ftz : Bool) (c : Nat) : Nat :=
  match f.float? with
  | some p => if ftz && p.subnormal c then (if c.testBit (p.e + p.m) then p.signBit else 0) else c
  | none => c

/-! ## Ceiling vectors (R68 to R70) -/

/-- Entries over the elements given as logical values: one per index of the non-reduced dimensions. -/
def ceilEntries (sizes : List Nat) (dim : Nat) (vs : List Val) : List Int :=
  let lo := prod (sizes.take dim)
  let n := sizes.getD dim 1
  let hi := prod (sizes.drop (dim + 1))
  (List.range (lo * hi)).map (fun e =>
    ceilOf ((List.range n).map (fun k => vs.getD (e % lo + lo * (k + n * (e / lo))) .nan)))

/-- Entries as bytes. -/
def ceilBytes (l : List Int) : List Byte := (l.map (fun e => leBytes 2 (unsigned 16 e))).flatten

/-! ## Plate elements and operations -/

/-- Rounding mode of a 2-bit code. -/
def rndOf (c : Nat) : Rnd := match c with | 1 => .rtz | 2 => .sr | _ => .rne

/-- Load conversion of R94: an element of a memory format into a plate format. -/
def loadElem (pf mf : Fmt) (o : CvtOpts) (ftzIn : Bool) (bs : Option Nat) (scale code : Nat) : Nat × NumFlags :=
  if mf = pf ∧ scale = 0x3F800000 then (flushCode mf ftzIn code, {})
  else convert pf o 0 (elemVal mf ftzIn bs scale code)

/-- Store conversion of R94 of one row: plate codes into a tensor format. -/
def storeRow (pf : Fmt) (t : Tensor) (o : CvtOpts) (codes r16 : List Nat) : List Nat × List Nat × NumFlags :=
  if t.fmt = pf ∧ t.scale = 0x3F800000 then (codes.map (flushCode pf o.ftzOut), [], {})
  else encodeRow t.fmt o t.scale (codes.map (fun c => (pf.decode c, false))) r16

/-- Comparison by condition code 0 eq, 1 ne, 2 lt, 3 le (R51). -/
def compareVal (cond : Nat) (a b : Val) : Bool :=
  match cond with
  | 0 => Val.eq a b
  | 1 => !Val.eq a b
  | 2 => Val.lt a b
  | _ => Val.lt a b || Val.eq a b

/-- A native plate operation on codes of a plate format (Table 04-4); the numbering of cls 0x0C, without lookup. -/
def plateElem (f : Fmt) (op cond : Nat) (rnd : Rnd) (a b c : Nat) : Nat × NumFlags :=
  let w := f.width
  let va := f.decode a
  let vb := f.decode b
  let fin (r : Val × NumFlags) : Nat × NumFlags := let (x, g) := convert f ⟨rnd, false, false⟩ 0 r.1; (x, r.2.join g)
  match op with
  | 0 => if f.isInt then ((a + b) % 2 ^ w, {}) else fin (Val.add va vb)
  | 1 => if f.isInt then (a * b % 2 ^ w, {}) else fin (Val.mul va vb)
  | 2 => if f.isInt then ((a * b + c) % 2 ^ w, {}) else fin (Val.fma va vb (f.decode c))
  | 3 => (if compareVal cond va vb then 2 ^ w - 1 else 0, {})
  | 4 => (if c ≠ 0 then a else b, {})
  | 5 => ((convert f {} 0 (Val.min va vb)).1, {})
  | 6 => ((convert f {} 0 (Val.max va vb)).1, {})
  | 7 => (a &&& b, {})
  | 8 => (a ||| b, {})
  | 9 => (a ^^^ b, {})
  | 0x0A => (a * 2 ^ (b % w) % 2 ^ w, {})
  | 0x0B => (a / 2 ^ (b % w), {})
  | _ => (unsigned w (signed w a / (2 ^ (b % w) : Nat)), {})

/-- Broadcast scalar of R96 in a plate format. -/
def scalarCode (f : Fmt) (imm : Nat) : Nat :=
  match f.width with
  | 32 => imm % 2 ^ 32
  | 16 => imm % 2 ^ 16
  | _ => (convert .fp64 {} 0 (Fmt.fp32.decode (imm % 2 ^ 32))).1

/-- Lookup index x := src[sh+7:sh] (R97). -/
def lookupIndex (sh code : Nat) : Nat := code / 2 ^ sh % 256

/-! ## Vector loops -/

/-- Load a tensor into plate codes in logical order (R94). -/
def loadTensor (pf : Fmt) (o : CvtOpts) (ftz : Bool) (t : Tensor) (rows : List RowBytes) : List Nat × NumFlags :=
  let es := (rows.map (fun r => ((unpackRow t.fmt.width (t.dim 0) r.1).zip (List.range (t.dim 0))).map (fun p =>
    loadElem pf t.fmt o ftz (blockScale t.fmt r.2 p.2) t.scale p.1))).flatten
  (es.map (·.1), NumFlags.all (es.map (·.2)))

/-- The element codes of d before the store (R144). l is how many elements the operation has. -/
def vloopCodes (pf : Fmt) (op cond sh : Nat) (rnd : Rnd) (as bs cs : List Nat) : List Nat × NumFlags :=
  if op = 0x0D then (as.map (fun x => cs.getD (lookupIndex sh x) 0), {})
  else
    let es := (as.zip (List.range as.length)).map (fun p => plateElem pf op cond rnd p.1 (bs.getD p.2 0) (cs.getD p.2 0))
    (es.map (·.1), NumFlags.all (es.map (·.2)))

/-- Reductions of R78 along a dimension: exact values in the accumulator format, one per index of d. -/
def vloopReduce (acc : Fmt) (rnd : Rnd) (sizes : List Nat) (dim : Nat) (ps : List Val) : List (Val × NumFlags) :=
  let lo := prod (sizes.take dim)
  let n := sizes.getD dim 1
  let hi := prod (sizes.drop (dim + 1))
  (List.range (lo * hi)).map (fun e =>
    reduceSeq acc rnd ((List.range n).map (fun k => ps.getD (e % lo + lo * (k + n * (e / lo))) .zero)))

/-- Store a list of elements given per row by a row encoder; bytes, ceiling values and flags. -/
def storeRows (t : Tensor) (enc : Nat → List Nat × List Nat × NumFlags) : List RowBytes × NumFlags :=
  let rs := (List.range t.rows).map enc
  (rs.map (fun r => codesToRow t r.1 r.2.1), NumFlags.all (rs.map (fun r => r.2.2)))

/-- A plate position (R99): the tensor rows it covers, its first column, its columns. -/
structure PlatePos where
  rows : List Nat
  col : Nat
  cols : Nat
  deriving DecidableEq, Repr

/-- The positions of a tensor in the order in which a loop visits them (R99): 16 rows by the plate width, row-major, within row-major
order of the outer indices. An MX destination takes 32 columns at a time, since each block is stored whole (R431). -/
def platePositions (t : Tensor) (width : Nat) : List PlatePos :=
  let h := t.dim 1
  ((List.range (t.rows / max 1 h)).map (fun o => ((List.range (cdiv h 16)).map (fun b => (List.range (cdiv (t.dim 0) width)).map (fun c =>
    { rows := (List.range (min 16 (h - 16 * b))).map (fun r => o * h + 16 * b + r), col := width * c,
      cols := min width (t.dim 0 - width * c) : PlatePos }))).flatten)).flatten

/-- Codes of the elements [col, col + n) of a row of an SRAM tensor, in plate format (R94). -/
def loadSeg (m : Map Byte) (pf : Fmt) (o : CvtOpts) (ftz : Bool) (t : Tensor) (rep r col n : Nat) : List (Nat × NumFlags) :=
  let w := t.fmt.width
  let bytes := sramRead m ((t.rowAddr rep 0 r).toNat + col * w / 8) (cdiv (n * w) 8)
  ((unpackRow w n bytes).zip (List.range n)).map (fun p =>
    loadElem pf t.fmt o ftz (if t.fmt.isMx then some (Map.get 0 m ((t.scaleAddr rep 0 r).toNat + (col + p.2) / 32)).toNat else none) t.scale p.1)

/-- Store the elements [col, col + n) of a row of an SRAM tensor. -/
def storeSeg (m : Map Byte) (t : Tensor) (rep r col : Nat) (codes scales : List Nat) : Map Byte :=
  let w := t.fmt.width
  let m := (codes.zip (List.range codes.length)).foldl (fun m p => putBits m (8 * (t.rowAddr rep 0 r).toNat + (col + p.2) * w) w p.1) m
  if t.fmt.isMx then putCells m ((t.scaleAddr rep 0 r).toNat + col / 32) (scales.map (BitVec.ofNat 8)) else m

/-- What an element-wise loop or a lookup carries from position to position: the OC, the flags, what it has stored of each row. -/
structure VloopRun where
  oc : Map Byte
  flags : NumFlags := {}
  stored : List (Nat × List Nat × List Nat) := []
  deriving DecidableEq, Repr

/-- Rows of d from what a loop stored, in the order of its visits. -/
def VloopRun.rows (v : VloopRun) (t : Tensor) : List RowBytes :=
  (List.range t.rows).map (fun r =>
    let mine := v.stored.filter (fun e => decide (e.1 = r))
    codesToRow t (mine.map (fun e => e.2.1)).flatten (mine.map (fun e => e.2.2)).flatten)

/-- What a VLOOP does to one tile's operand cache (R144): the new OC and the flags. An element-wise loop and a lookup go position by
position, each reading the OC as the positions before it left it (R99); a reduction stores once its sums are complete. -/
def vloopOc (oc : Map Byte) (raw : List Byte) (rep seed : Nat) (ta : Tensor) (tb tc : Option Tensor) (td : Tensor) :
    Map Byte × NumFlags :=
  let op := fb raw 0x10 1
  let pfb := fb raw 0x11 1
  let ctl := fb raw 0x12 2
  let pf := (plateFmt (pfb % 8)).getD .fp32
  let rnd := rndOf (slice ctl 1 0)
  let lo : CvtOpts := { mode := rnd }
  let ftz := bit ctl 5
  let so : CvtOpts := { mode := rndOf (slice ctl 3 2), sat := bit ctl 4, ftzOut := bit ctl 6 }
  let sr := decide (slice ctl 3 2 = 2)
  let reduce := slice ctl 8 7
  let org := originOf raw
  let n := td.dim 0
  let scalar := scalarCode pf (fb raw 0x14 4)
  let draws (r c0 k : Nat) := rowDraws sr seed (fb raw 0x28 4) rep (org.getD 1 0 + r % td.dim 1) (org.getD 0 0 + c0) k
  let emit (oc : Map Byte) (rows : List RowBytes) : Map Byte :=
    if td.ceilEmit then putCells oc td.ceil (ceilBytes (ceilEntries td.size td.ceilDim (rowVals td false rows))) else oc
  if reduce = 0 then
    let (table, f0) : List Nat × NumFlags :=
      match op, tc with | 0x0D, some t => loadTensor pf lo ftz t (sramRows oc t rep) | _, _ => ([], {})
    let seg (oc : Map Byte) (t : Option Tensor) (p : PlatePos) (r : Nat) : List (Nat × NumFlags) :=
      match t with | some t => loadSeg oc pf lo ftz t rep r p.col p.cols | none => []
    let visit (v : VloopRun) (p : PlatePos) : VloopRun :=
      let done := p.rows.map (fun r =>
        let as := seg v.oc (some ta) p r
        let bs := if bit pfb 6 then List.replicate p.cols (scalar, ({} : NumFlags)) else seg v.oc tb p r
        let cs := if op = 0x0D then [] else seg v.oc tc p r
        let (es, fe) := vloopCodes pf op (slice pfb 5 3) (fb raw 0x20 1) rnd (as.map (·.1)) (bs.map (·.1))
          (if op = 0x0D then table else cs.map (·.1))
        let (codes, scales, fs) := storeRow pf td so es (draws r p.col p.cols)
        ((r, codes, scales), NumFlags.all ((as ++ bs ++ cs).map (fun (e : Nat × NumFlags) => e.2) ++ [fe, fs])))
      { oc := done.foldl (fun oc e => storeSeg oc td rep e.1.1 p.col e.1.2.1 e.1.2.2) v.oc,
        flags := v.flags.join (NumFlags.all (done.map (·.2))), stored := v.stored ++ done.map (·.1) }
    let width := if td.fmt.isMx then max 32 (512 / pf.width) else 512 / pf.width
    let v := (platePositions td width).foldl visit { oc := oc }
    (emit v.oc (v.rows td), f0.join v.flags)
  else
    let (as, f1) := loadTensor pf lo ftz ta (sramRows oc ta rep)
    let (bs, f2) : List Nat × NumFlags :=
      if bit pfb 6 then (List.replicate as.length scalar, {})
      else match tb with | some t => loadTensor pf lo ftz t (sramRows oc t rep) | none => ([], {})
    let acc : Fmt := if pf = .fp64 then .fp64 else .fp32
    let ps := if reduce = 1 then as.map (fun x => (pf.decode x, ({} : NumFlags)))
      else (as.zip bs).map (fun p => Val.mul (pf.decode p.1) (pf.decode p.2))
    let rs := vloopReduce acc rnd ta.size (slice ctl 11 9) (ps.map (·.1))
    -- R64: an accumulator stored in its own format without a scale is stored unchanged.
    let so := if td.fmt = acc ∧ td.scale = 0x3F800000 then { so with ftzOut := false } else so
    let (rows, fs) := storeRows td (fun r =>
      encodeRow td.fmt so td.scale (((rs.drop (r * n)).take n).map (fun v => (v.1, false))) (draws r 0 n))
    (emit (putRows oc td rep rows) rows, (((f1.join f2).join (NumFlags.all (ps.map (·.2)))).join (NumFlags.all (rs.map (·.2)))).join fs)

/-! ## Moves -/

/-- Fields of xform (Table 06-7). -/
structure Xform where
  transpose : Bool
  pack : Bool
  gather : Bool
  o : CvtOpts
  sr : Bool
  deriving DecidableEq, Repr

/-- Read them. -/
def xformOf (raw : List Byte) : Xform :=
  let x := fb raw 0x15 1
  ⟨bit x 0, bit x 1, bit x 2, ⟨rndOf (slice x 4 3), bit x 5, bit x 6⟩, decide (slice x 4 3 = 2)⟩

/-- Source element that goes to destination element l (R102, order 3): the innermost two dimensions change places. -/
def moveIndex (tr : Bool) (a b : Tensor) (l : Nat) : Nat :=
  if tr then
    let i0 := l % b.dim 0
    let i1 := l / b.dim 0 % b.dim 1
    let hi := l / (b.dim 0 * b.dim 1)
    i1 + a.dim 0 * (i0 + a.dim 1 * hi)
  else l

/-- The scale byte of destination block i of row r in a transposed copy (R37 passes the element bits, and the spec states no block scale
for elements that come from blocks of different scales): the source blocks' byte where they agree, else a free value. -/
def turnedScale (a b : Tensor) (scales : List Byte) (free r i : Nat) : Byte :=
  let at_ (e : Nat) : Byte := scales.getD (moveIndex true a b (r * b.dim 0 + 32 * i + e) / 32) 0
  if (List.range 32).all (fun e => decide (at_ e = at_ 0)) then at_ 0 else Config.freeValue 8 (free + r * (b.dim 0 / 32) + i)

/-- Free values that moveRows draws at most. -/
def moveFree (x : Xform) (a b : Tensor) : Nat := if a.count < b.count || (x.transpose && a.fmt.isMx) then 2 * b.count else 0

/-- Destination rows of a move from source rows (R145): a copy between equal formats and scales, which passes the element bits (R37),
else one conversion. A destination element without a source element takes a free value (the spec states none). -/
def moveRows (x : Xform) (raw : List Byte) (rep seed freeBase : Nat) (a b : Tensor) (rows : List RowBytes) : List RowBytes × NumFlags :=
  let n := b.dim 0
  let w := b.fmt.width
  let copy := decide (a.fmt = b.fmt) && decide (a.scale = b.scale)
  let codes := rowCodes a rows
  let vals := rowVals a false rows
  let total := a.count
  if copy then
    let scales := (rows.map (·.2)).flatten
    let k := n / 32
    ((List.range b.rows).map (fun r =>
      (packRow w b.rowBytes ((List.range n).map (fun i =>
        let j := moveIndex x.transpose a b (r * n + i)
        if j < total then flushCode b.fmt x.o.ftzOut (codes.getD j 0) else (Config.freeValue w (freeBase + r * n + i)).toNat)),
       if b.fmt.isMx then (List.range k).map (fun i =>
         if x.transpose then turnedScale a b scales (freeBase + b.count) r i else scales.getD (r * k + i) 0) else [])), {})
  else
    let org := originOf raw
    storeRows b (fun r =>
      let vs := (List.range n).map (fun i =>
        let j := moveIndex x.transpose a b (r * n + i)
        if j < total then (vals.getD j .zero, false)
        else (b.fmt.decode (Config.freeValue w (freeBase + r * n + i)).toNat, false))
      encodeRow b.fmt x.o b.scale vs
        (rowDraws x.sr seed (fb raw 0x30 4) rep (org.getD 1 0 + r % b.dim 1) (org.getD 0 0) n))

/-- The panels of a packed move in the order the ring takes them: row blocks of 64, then K steps of 32 (R85, R87). Positions outside
the tensor hold free bits (R86: they play no part). -/
def movePanels (b : Tensor) (freeBase : Nat) (rows : List RowBytes) : List (List Byte) :=
  let w := b.fmt.width
  let k := b.dim 0
  let size := 64 * (32 * w / 8)
  let codes := rows.map (fun r => (unpackRow w k r.1, r.2))
  let nk := cdiv k 32
  (List.range (cdiv b.rows 64 * nk)).map (fun p =>
    let rb := p / nk
    let kb := p % nk
    let spare := (Config.freeValue (8 * size) (freeBase + p)).toNat
    let elems := (List.range (64 * 32)).map (fun e =>
      let r := rb * 64 + e / 32
      let c := kb * 32 + e % 32
      if r < b.rows ∧ c < k then (codes.getD r ([], [])).1.getD c 0 else spare / 2 ^ (w * e) % 2 ^ w)
    let sc := if b.fmt.isMx then (List.range 64).map (fun i => (codes.getD (rb * 64 + i) ([], [])).2.getD kb 0) else []
    packRow w size elems ++ sc)

end Sys2Proof.Machine
end

