-- ==== Sys2Proof/Machine/Net.lean ====
section
/-! DEFINITION. Packets leaving the module: headers (Table 12-3), route choice (R275, Table 12-5), output arbitration (R277, Table 12-6), packing
into flits, credits and replay (R268, R269, R271). -/
namespace Sys2Proof

/-- Bytes of a packet header (Table 12-3). -/
def Packet.header (k : Packet) : List Byte :=
  leBytes 2 k.dst.toNat ++ leBytes 2 k.src.toNat ++ [k.op, k.ctl] ++ leBytes 2 k.len.toNat ++ leBytes 8 k.addr.toNat ++
    leBytes 2 k.tag.toNat ++ [k.key, k.sdie] ++ bytesAt k.arg 0 12

/-- Bytes of a packet. -/
def Packet.bytes (k : Packet) : List Byte := k.header ++ bytesAt k.data 0 k.len.toNat

/-- Traffic class of a packet. -/
def Packet.tc (k : Packet) : Nat := k.ctl.toNat % 4

/-- Target die of a packet: addr[49:48]. -/
def Packet.die (k : Packet) : Nat := slice k.addr.toNat 49 48

/-- Local address of a packet: addr[47:0]. -/
def Packet.local (k : Packet) : Nat := k.addr.toNat % 2 ^ 48

end Sys2Proof

namespace Sys2Proof.Machine

/-- A packet read from bytes. -/
def packetOf (l : List Byte) : Packet :=
  let n := fb l 6 2
  { dst := BitVec.ofNat 16 (fb l 0 2), src := BitVec.ofNat 16 (fb l 2 2), op := BitVec.ofNat 8 (fb l 4 1),
    ctl := BitVec.ofNat 8 (fb l 5 1), len := BitVec.ofNat 16 n, addr := BitVec.ofNat 64 (fb l 8 8),
    tag := BitVec.ofNat 16 (fb l 16 2), key := BitVec.ofNat 8 (fb l 18 1), sdie := BitVec.ofNat 8 (fb l 19 1),
    arg := bytesAt l 20 12, data := bytesAt l 32 n }

/-- Is the operation in Table 12-4? -/
def packetOpOk (op : Nat) : Bool :=
  (decide (1 ≤ op) && decide (op ≤ 8)) || decide (op = 0x0F) || (decide (0x10 ≤ op) && decide (op ≤ 0x13)) ||
    (decide (0x20 ≤ op) && decide (op ≤ 0x23))

/-- A packet from this module: ctl carries the class and 31 hops. -/
def State.packet (s : State) (d dst op tc addr tag key : Nat) (arg data : List Byte) : Packet :=
  { dst := BitVec.ofNat 16 dst, src := s.fabric.node, op := BitVec.ofNat 8 op, ctl := BitVec.ofNat 8 (tc + 4 * 31),
    len := BitVec.ofNat 16 data.length, addr := BitVec.ofNat 64 addr, tag := BitVec.ofNat 16 tag, key := BitVec.ofNat 8 key,
    sdie := BitVec.ofNat 8 d, arg := bytesAt arg 0 12, data := data }

/-- Is a module port up? -/
def State.portUp (s : State) (p : Nat) : Bool := decide ((s.port p).state = 2)

/-- Flits waiting in an output queue. -/
def Port.waiting (p : Port) : Nat :=
  p.outq.foldl (fun a k => a + cdiv (32 + k.len.toNat) 240) 0 + p.cut.foldl (fun a e => a + cdiv e.2.length 240) 0

/-- The local port a packet takes on plane d (Table 12-5); none when the route entry is not valid. -/
def State.choosePort (s : State) (d : Nat) (k : Packet) : Option Nat :=
  let e := (Map.get 0 (s.die d).routes k.dst.toNat).toNat
  let p := slice e 2 0
  let a := slice e 5 3
  let pOk := bit e 6
  let aOk := bit e 7
  let up (x : Nat) := s.portUp (6 * d + x)
  let pick (first second : Nat) (fOk sOk : Bool) : Option Nat :=
    if fOk && (up first || !(sOk && up second)) then some first else if sOk then some second else if fOk then some first else none
  if k.op = 7 ∧ k.tc = 1 then
    if (fb k.arg 0 4 + fb k.arg 4 2) % 2 = 0 then pick p a pOk aOk else pick a p aOk pOk
  else if k.tc = 2 ∧ pOk ∧ aOk ∧ up p ∧ up a ∧ (s.port (6 * d + a)).waiting < (s.port (6 * d + p)).waiting then some a
  else pick p a pOk aOk

/-- Put a packet in the output queue of module port p. -/
def State.enqueue (s : State) (p : Nat) (k : Packet) : State := s.modPort p (fun x => { x with outq := x.outq ++ [k] })

/-- Send a packet from die d: through plane d, or through the lowest-numbered plane that reaches the destination (R275); false when
no plane does. -/
def State.send (s : State) (d : Nat) (k : Packet) : Bool × State :=
  match ([d] ++ List.range 4).findSome? (fun x => (s.choosePort x k).map (fun p => 6 * x + p)) with
  | some p => (true, s.enqueue p k)
  | none => (false, s)

/-! ## Flits out of a port -/

/-- The class that is owed most credits; a header returns those (DESIGN CHOICE: the spec does not say which class a header serves). -/
def Port.owedClass (x : Port) : Nat :=
  (List.range 4).foldl (fun a c => if Map.get 0 x.owed a < Map.get 0 x.owed c then c else a) 0

/-- A flit (Table 12-1): the acknowledgement, nak and credits of the receiving side stand in every header. -/
def Port.flit (x : Port) (ftype tc seq : Nat) (payload : List Byte) : List Byte :=
  let o := x.owedClass
  let h := ftype + 2 ^ 4 * tc + 2 ^ 6 * (seq % 4096) + 2 ^ 18 * (x.rxNext - 1).toNat + 2 ^ 30 * b2n x.nak +
    2 ^ 32 * (Map.get 0 x.owed o % 4096) + 2 ^ 44 * o
  let body := leBytes 8 h ++ bytesAt payload 0 240 ++ zeros 4
  body ++ leBytes 4 (crc32c body)

/-- The receiving side after a flit has carried its acknowledgement, nak and credits. -/
def Port.told (x : Port) : Port :=
  { x with owed := Map.put 0 x.owed x.owedClass 0, nak := false, owesAck := false }

/-- Does a class have bytes to send, a credit, and room in the replay buffer (R269)? -/
def Port.ready (x : Port) (tc : Nat) : Bool :=
  (!(Map.get [] x.cut tc).isEmpty || x.outq.any (fun k => decide (k.tc = tc))) && decide (0 < Map.get 0 x.credits tc) &&
    decide (x.replay.length < 2048)

/-- J6 weight of a class: FAB_CFG.w0 to w3, 0 treated as 1. -/
def Port.weight (x : Port) (tc : Nat) : Nat := max 1 (slice x.cfg.toNat (13 + 6 * tc) (8 + 6 * tc))

/-- The class that sends next (Table 12-6). TC2's 1 flit in 32 comes before the order of the table (DESIGN CHOICE: the table does not rank the
two). -/
def Port.nextClass (x : Port) : Option Nat :=
  if x.j6 then
    let turns := (if 0 < x.rrLeft then [x.rrClass] else []) ++ (List.range 4).map (fun i => (x.rrClass + 1 + i) % 4)
    turns.find? x.ready
  else if x.ready 2 && decide (31 ≤ x.tc2Wait) then some 2
  else if x.ready 0 then some 0
  else if x.ready 3 && decide (x.tc3Gap = 0) then some 3
  else if x.ready 1 then some 1
  else if x.ready 2 then some 2
  else none

/-- Bytes for a flit: packets are appended until 240 bytes stand, what is left over stays begun. -/
def fillFlit : List Packet → List Byte → List Byte × List Packet
  | [], l => (l, [])
  | k :: r, l => if 240 ≤ l.length then (l, k :: r) else fillFlit r (l ++ k.bytes)

/-- Count a sent flit of class tc (none: of no class) for the turns of Table 12-6. -/
def Port.turned (x : Port) (tc : Option Nat) : Port :=
  { x with
    tc3Gap := if tc = some 3 then 63 else x.tc3Gap - 1,
    tc2Wait := if tc = some 2 ∨ !x.ready 2 then 0 else x.tc2Wait + 1,
    rrClass := tc.getD x.rrClass,
    rrLeft := match tc with
      | some c => (if c = x.rrClass ∧ 0 < x.rrLeft then x.rrLeft else x.weight c) - 1
      | none => x.rrLeft }

/-- Send a packet flit of a class: it spends a credit and enters the replay buffer. -/
def Port.sendFlit (x : Port) (tc : Nat) : Port :=
  let r := fillFlit (x.outq.filter (fun k => decide (k.tc = tc))) (Map.get [] x.cut tc)
  let flit := x.flit 0 tc x.txNext.toNat (r.1.take 240)
  let x := (x.turned (some tc)).told
  { x with
    outq := x.outq.filter (fun k => decide (k.tc ≠ tc)) ++ r.2, cut := Map.put [] x.cut tc (r.1.drop 240),
    credits := Map.put 0 x.credits tc (Map.get 0 x.credits tc - 1), replay := x.replay ++ [(x.txNext.toNat, flit)],
    txNext := x.txNext + 1, sent := x.sent ++ [flit] }

/-- What a port sends in its next flit: a flit to be replayed, with the header's acknowledgement made new; a packet flit; else an idle flit, which is
logged when it says something new to the partner. -/
def Port.slot (x : Port) : Port :=
  match x.resend with
  | (n, f) :: r =>
    let flit := x.flit (slice (fb f 0 8) 3 0) (slice (fb f 0 8) 5 4) n (bytesAt f 8 240)
    { (x.turned none).told with resend := r, sent := x.sent ++ [flit] }
  | [] =>
    match x.nextClass with
    | some c => x.sendFlit c
    | none =>
      let y := (x.turned none).told
      if x.owesAck || x.nak || !x.owed.isEmpty then { y with sent := x.sent ++ [x.flit 1 0 (x.txNext - 1).toNat []] } else y

/-- Flits that a port's stream has carried by a time: one in 1.28 ns at 8 lanes, in 2.56 at 4, in 5.12 at 2 (R265, R268). -/
def Port.slots (x : Port) (t : Nat) : Nat :=
  match x.width.toNat with | 3 => 100 * t / 128 | 2 => 100 * t / 256 | 1 => 100 * t / 512 | _ => 0

/-- A nanosecond of global time passes: every port that is up and whose next flit is due sends it; the I3C target delivers a message (DESIGN
CHOICE: the spec leaves the reader of the bus its own time). -/
def State.tick (s : State) : State :=
  let s' := (List.range 24).foldl (fun s p =>
    if s.portUp p && decide ((s.port p).slots s.timeNs < (s.port p).slots (s.timeNs + 1)) then s.modPort p Port.slot else s) s
  { s'.i3cDeliver with timeNs := s.timeNs + 1 }

/-- Send, whatever comes of it. -/
def State.sendAll (s : State) (d : Nat) (ks : List Packet) : State := ks.foldl (fun s k => (s.send d k).2) s

end Sys2Proof.Machine
end

