-- ==== Sys2Proof/Machine/Job.lean ====
section
/-! DEFINITION. The life of issued descriptors and of the job: slip accounting (R131, R134, R153), semaphores (R147, R148), how a
descriptor ends (R151, R152, R161, R162), job failure and completion (R149, R152, R201), collective aborts (R306, R307). -/
namespace Sys2Proof.Machine

/-! ## Slots and slip -/

/-- TCLK of a code in units of 100 MHz (Table 15-5). -/
def tclk (code : Nat) : Nat := match code with | 0 => 40 | 1 => 36 | 2 => 32 | 3 => 28 | 4 => 24 | _ => 16

/-- The epoch slot count of a die (R131): whole nominal slots of 256 cycles since the last fixed point. -/
def State.es (s : State) (d : Nat) : Nat :=
  let x := s.die d
  x.esBase + (s.timeNs - x.esTime) * tclk (s.diePower d).code / 2560

/-- Record a slip cause on a die (R9, R153): first cause, slot and die, the cause mask, and, for a new stretch or episode, the event
count; the first one raises event 0x1001. -/
def State.slipCause (s : State) (d cause : Nat) (counts : Bool) : State :=
  match s.lantern.job with
  | none => s
  | some j =>
    let es := s.es d
    let first := decide (j.slipEvents = 0)
    let s := s.modJob (fun j => { j with
      timingLost := true, slipCause := if first then BitVec.ofNat 8 cause else j.slipCause,
      slipDie := if first then BitVec.ofNat 8 d else j.slipDie, slipSlot := if first then BitVec.ofNat 64 es else j.slipSlot,
      slipEvents := if counts then BitVec.ofNat 32 (satAdd 32 j.slipEvents.toNat 1) else j.slipEvents,
      causeMask := j.causeMask ||| BitVec.ofNat 32 (2 ^ (cause - 1)) })
    if first then s.dieEvent d 0 0x1001 (leBytes 1 cause ++ leBytes 1 d ++ leBytes 8 es) else s

/-- One slip event of a cause. -/
def State.slipEvent (s : State) (d cause : Nat) : State := s.slipCause d cause true

/-- The slip of a die: what is recorded, and the distance of SC from ES while it is stretched or its clock is held back. It never
decreases (R134). -/
def State.slipOf (s : State) (d : Nat) : Nat :=
  let x := s.die d
  if x.stretch.isSome || x.clockHeld ≠ 0 then max x.slip (s.es d - x.sc) else x.slip

/-- Record a die's slip. -/
def State.recordSlip (s : State) (d : Nat) : State :=
  let slip := max (s.die d).slip (s.es d - (s.die d).sc)
  let s := s.modDie d (fun x => { x with slip := slip })
  s.modJob (fun j => { j with
    slipMax := BitVec.ofNat 64 (max j.slipMax.toNat slip), slipDies := Map.put 0 j.slipDies d (min slip (2 ^ 32 - 1)) })

/-- The divider cause that holds a die's clock back (Table 06-1): thermal 0x06, supply or brake 0x07. -/
def State.clockCauses (s : State) (d : Nat) : List Nat :=
  let p := s.diePower d
  let w := s.power
  (if p.thermal ≠ 0 ∨ p.deep then [6] else []) ++
    (if p.droop ∨ w.capRatio ≠ 0 ∨ w.capForced ∨ w.brakeRatio ≠ 0 ∨ w.underVolt then [7] else [])

/-- Bit of a cause in a mask. -/
def causeBit (c : Nat) : BitVec 8 := BitVec.ofNat 8 (2 ^ (c - 1))

/-- Note the causes that hold the clocks back while the job runs: called where one begins or ends, and at every slot. -/
def State.noteClock (s : State) (d : Nat) : State :=
  if s.jobState = 3 ∧ (s.die d).running then
    s.modDie d (fun x => { x with clockHeld := x.clockHeld ||| (s.clockCauses d).foldl (fun m c => m ||| causeBit c) 0 })
  else s

/-- The same on every die. -/
def State.noteClocks (s : State) : State := (List.range 4).foldl State.noteClock s

/-- Slip from a held-back clock (R134): while SC is behind ES after a cause, whether it still holds or not, one episode counts once and
each of its causes marks the mask; it ends when SC meets ES. -/
def State.clockSlip (s : State) (d : Nat) : State :=
  let s := s.noteClock d
  let x := s.die d
  if x.clockHeld = 0 then s
  else if x.sc < s.es d then
    let cs := [6, 7].filter (fun c => x.clockHeld &&& causeBit c ≠ 0)
    let s := match x.behind, cs with
      | false, c :: r => r.foldl (fun (s : State) c => s.slipCause d c false) (s.slipCause d c true)
      | _, _ => cs.foldl (fun (s : State) c => s.slipCause d c false) s
    (s.modDie d (fun x => { x with behind := true })).recordSlip d
  else (s.modDie d (fun x => { x with behind := false, clockHeld := 0 })).noteClock d

/-- The DSQ stretches with a cause (R134); a die that is stretched already stays so. -/
def State.stretchDie (s : State) (d cause : Nat) : State :=
  if (s.die d).stretch.isSome then s
  else (s.modDie d (fun x => { x with stretch := some cause })).slipEvent d cause

/-- SC resumes (R134). -/
def State.resumeDie (s : State) (d : Nat) : State :=
  (s.recordSlip d).modDie d (fun x => { x with stretch := none })

/-- Join numeric flags into the job's (R52). -/
def State.jobFlags (s : State) (f : NumFlags) : State := s.modJob (fun j => { j with flags := j.flags.join f })

/-! ## Semaphores -/

/-- Value of a semaphore. -/
def State.sem (s : State) (d k : Nat) : Word := Map.get 0 (s.die d).sems k

/-- Write a semaphore. -/
def State.setSem (s : State) (d k : Nat) (v : Word) : State := s.modDie d (fun x => { x with sems := Map.put 0 x.sems k v })

/-- An add (modulo 2^32) or a set, released at system scope (R147, R148). -/
def State.semUpdate (s : State) (d k : Nat) (set : Bool) (v : Nat) : State :=
  (s.setSem d k (if set then BitVec.ofNat 32 v else s.sem d k + BitVec.ofNat 32 v)).release

/-- The update of a done_sem field: none for 0xFFFF. -/
def State.doneSem (s : State) (d : Nat) (raw : List Byte) : State :=
  if dDone raw = 0xFFFF then s else s.semUpdate d (dDone raw) false 1

/-! ## Queue endings -/

/-- Ring size of a queue. -/
def Wq.size (w : Wq) : Nat := 2 ^ w.log2size.toNat

/-- Agent code of a descriptor unit (Table 08-8). -/
def unitAgent (d unit : Nat) : Nat := 2 + 16 * (256 * d + unit)

/-- A queue's own accesses to its rings. -/
def wqAcc (d : Nat) (w : Wq) : Acc := ⟨unitAgent d 132, 1, .os, w.key.toNat, false⟩

/-- Completion record and MSI-X of an entry that completed (R161). A record that cannot be written is lost (DEDUCED). -/
def State.wqRecord (s : State) (d q h : Nat) (raw : List Byte) (status : Nat) : State :=
  let w := s.wq d q
  let s := if w.cqEnable && dCq raw then
      ((s.writeMem (wqAcc d w) (w.cqBase.toNat + h % w.size * 16)
        (leBytes 2 (h % 65536) ++ leBytes 2 status ++ zeros 4 ++ leBytes 8 s.timeNs)).2).release
    else s
  if w.irqEnable && dIrq raw then s.sendMsix w.msix.toNat else s

/-- An entry that ends with a status other than ok stops its queue (R162). -/
def State.wqStop (s : State) (d q h status : Nat) : State :=
  (s.modWq d q (fun w => { w with
    state := 4, errStatus := BitVec.ofNat 16 status, errSeq := BitVec.ofNat 16 h })).dieEvent d q 0x3004
      (leBytes 1 q ++ leBytes 2 status ++ leBytes 2 (h % 65536))

/-! ## Stopping work -/

/-- Which sources a stop takes: streams only, or everything. -/
def stops (everything : Bool) (x : DescSrc) : Bool := everything || x.isStream

/-- A tile with the stopped work taken off its units: operations abandoned (R89), moves dropped, groups discarded. Filled ring slots stay
as they are (DESIGN CHOICE: notes/assumptions/95). -/
def Tile.stopWork (everything : Bool) (t : Tile) : Tile :=
  let k := t.kernel.isSome && (match t.kernel with | some k => stops everything k.src | none => false)
  { t with
    mxe := t.mxe.filter (fun o => !stops everything o.src), packs := t.packs.filter (fun o => !stops everything o.src),
    kernel := if k then none else t.kernel, slots := if k then [] else t.slots, l1 := if k then [] else t.l1,
    launches := t.launches.filter (fun o => !stops everything o.src) }

/-- A die with the stopped work dropped. -/
def Die.stopWork (everything : Bool) (x : Die) : Die :=
  { x with
    running := false, due := [], stretch := none, inflight := x.inflight.filter (fun o => !stops everything o.src),
    blocks := x.blocks.filter (fun o => !stops everything o.src), fenced := x.fenced.filter (fun o => !stops everything o.src),
    islands := x.islands.filter (fun o => !stops everything o.src), remote := x.remote.filter (fun o => !stops everything o.src),
    orphans := x.orphans ++ x.remote.filter (fun o => stops everything o.src && !o.done),
    ces := (x.ces.map (fun e => (e.1, { e.2 with
      steps := e.2.steps.filter (fun o => !stops everything o.src), waitRank := none, probing := none }))).filter
        (fun e => decide (e.2 ≠ {})) }

/-- Map over the tiles and dies, keeping the canonical form. -/
def State.mapWork (s : State) (f : Die → Die) (g : Tile → Tile) : State :=
  { s with
    dies := (s.dies.map (fun e => (e.1, f e.2))).filter (fun e => decide (e.2 ≠ {})),
    tiles := (s.tiles.map (fun e => (e.1, g e.2))).filter (fun e => decide (e.2 ≠ {})) }

/-- Descriptors in flight that a stop ends, fenced signals among them. -/
def State.inflightCount (s : State) (everything : Bool) : Nat :=
  s.dies.foldl (fun a e => a + (e.2.inflight.filter (fun o => stops everything o.src)).length +
    (e.2.fenced.filter (fun o => stops everything o.src)).length) 0

/-! ## Collective packets -/

/-- Fields of a rank-table entry (Table 13-1): node, die, CE. -/
def rankNode (e : Nat) : Nat := e % 65536

/-- Die of an entry. -/
def rankDie (e : Nat) : Nat := slice e 17 16

/-- CE of an entry. -/
def rankCe (e : Nat) : Nat := slice e 19 18

/-- A collective packet (Table 13-6): the target's CE number travels in key[1:0], the sender's in key[3:2] (DESIGN CHOICE: Table 13-6 names no field for
them, and a collective packet names no key ID). -/
def State.collPacket (s : State) (d : Nat) (entry : Nat) (x : CollFields) (op kind phase rank off : Nat) (data : List Byte) : Packet :=
  s.packet d (rankNode entry) op (if x.fl % 4 = 0 then 0 else 1)
    (off % 2 ^ 22 + rankDie entry * 2 ^ 48) 0 (rankCe entry + 4 * x.ce)
    (leBytes 4 x.collId ++ leBytes 2 x.step ++ leBytes 1 kind ++ leBytes 1 phase ++ leBytes 4 rank) data

/-- Is a member on this module? -/
def State.isLocal (s : State) (entry : Nat) : Bool := decide (rankNode entry = s.fabric.node.toNat)

/-- The check value of a step (R290). -/
def checkValue (raw : List Byte) (ranks : List Nat) : Nat :=
  let x := collFields raw
  crc32c (bytesAt raw 0x10 0x14 ++ (if x.op = 6 then zeros 4 else bytesAt raw 0x2C 4) ++ bytesAt raw 0x34 4 ++
    (ranks.map (leBytes 4)).flatten)

/-- The aborts a step sends to the ranks of its table on other modules (R307); one that is the first packet to its peer carries the check value
(R290). -/
def State.abortPackets (s : State) (d : Nat) (st : CollStep) (failed : Nat) : List Packet :=
  ((List.range st.ranks.length).filter (fun p => !s.isLocal (st.ranks.getD p 0))).map (fun p =>
    s.collPacket d (st.ranks.getD p 0) (collFields st.raw) 8 3 0 failed 0
      (if st.greeted.contains p then [] else leBytes 4 (checkValue st.raw st.ranks)))

/-- Every abort packet of the collectives with a step in flight or queued (R306): each names its own member. -/
def State.jobAborts (s : State) : List (Nat × Packet) :=
  (s.dies.map (fun e => (e.2.ces.map (fun c => (c.2.steps.map (fun st =>
    (s.abortPackets e.1 st (collFields st.raw).rank).map (fun k => (e.1, k)))).flatten)).flatten)).flatten

/-! ## Job endings -/

/-- Job state changed (event 0x0001). -/
def State.jobEvent (s : State) : State :=
  match s.lantern.job with
  | some j => s.hdEvent 0x0001 (leBytes 1 j.state.toNat ++ leBytes 4 j.handle ++ leBytes 2 j.failStatus.toNat)
  | none => s

/-- Tensor entries 0 to 3,839 become invalid (R142), the die caches are unlocked (R222), held queues go on (R163), and the flag of a
quiesce is cleared; an island whose window has not ended closes with the job (DEDUCED: notes/assumptions/99). -/
def Die.jobOver (x : Die) : Die :=
  { x with
    islands := x.islands.filter (fun i => i.src.isQueue), clockHeld := 0, behind := false,
    tensors := x.tensors.filter (fun e => decide (3840 ≤ e.1)), dc := { x.dc with locked := false }, quiesced := false,
    wqs := x.wqs.map (fun e => (e.1, if e.2.state = 5 then { e.2 with state := if e.2.head = e.2.tail then 1 else 2 } else e.2)) }

/-- Is a write of the job's stopped descriptors neither performed nor abandoned? -/
def State.jobWrites (s : State) : Bool := s.dies.any (fun e => e.2.orphans.any (fun q => decide (q.op = 3) && q.src.isStream))

/-- The job takes state n as its work has stopped, dropped descriptors of it having ended; it is read when the writes are settled. -/
def State.jobEnds (s : State) (n dropped : Nat) : State :=
  let wait := s.jobWrites
  let s := s.modJob (fun j => { j with
    state := BitVec.ofNat 8 n, stopFrom := j.shown, settling := wait,
    aborted := BitVec.ofNat 32 (satAdd 32 j.aborted.toNat dropped), resuming := false })
  if wait then s else s.jobEvent

/-- Slip of the dies that stand stretched or behind as their work stops (R9, R134). -/
def State.closeSlip (s : State) : State :=
  (List.range 4).foldl (fun s d =>
    let s := if s.jobState = 3 ∧ (s.die d).running then s.clockSlip d else s
    if (s.die d).stretch.isSome then s.recordSlip d else s) s

/-- The job leaves the running states: stream work stops and state n is read (R152, R201). -/
def State.jobStop (s : State) (n : Nat) : State :=
  let s := s.closeSlip
  let dropped := s.inflightCount false
  let s := s.jobAborts.foldl (fun s p => (s.send p.1 p.2).2) s
  (s.mapWork (fun x => (x.stopWork false).jobOver) (Tile.stopWork false)).jobEnds n dropped

/-- Has the running job failed, so that every DSQ stops at its next slot (R152)? -/
def State.jobFailing (s : State) : Bool :=
  match s.lantern.job with | some j => decide (j.failStatus ≠ 0) && (decide (j.state = 3) || decide (j.state = 4)) | none => false

/-- Does a die still issue in its present slot: a descriptor is due and the DSQ is not stretched? -/
def Die.issuing (x : Die) : Bool := x.running && decide (x.stretch = none) && !x.due.isEmpty

/-- A failing job stops when no die has a descriptor of its present slot left to issue. -/
def State.stopCheck (s : State) : State :=
  if s.jobFailing && (List.range 4).all (fun d => !(s.die d).issuing) then s.jobStop 6 else s

/-- A stream descriptor ends with a status other than ok: the job fails with the first one's record (R152). -/
def State.jobFail (s : State) (d pos status : Nat) : State :=
  match s.lantern.job with
  | some j =>
    if j.state = 3 ∨ j.state = 4 then
      (s.modJob (fun j => { j with
        failStatus := if j.failStatus = 0 then BitVec.ofNat 16 status else j.failStatus,
        failDie := if j.failStatus = 0 then BitVec.ofNat 8 d else j.failDie,
        failPos := if j.failStatus = 0 then BitVec.ofNat 64 pos else j.failPos,
        aborted := BitVec.ofNat 32 (satAdd 32 j.aborted.toNat 1) })).stopCheck
    else s
  | none => s

/-- Has every die ended its stream with nothing of it in flight (R149)? -/
def State.streamsDone (s : State) : Bool :=
  (List.range 4).all (fun d => let x := s.die d; (x.ended || x.stream.isEmpty) &&
    (x.inflight.filter (fun o => o.src.isStream)).isEmpty && (x.fenced.filter (fun f => f.src.isStream)).isEmpty)

/-- The job completes when every die's part has (R149, Table 15-11). -/
def State.jobCheck (s : State) : State :=
  if s.jobState = 3 ∧ s.streamsDone ∧ s.jobFailing = false then
    let s := s.closeSlip
    let s := s.mapWork (fun x => { x with running := false, due := [], stretch := none }.jobOver) (fun t => t)
    (s.modJob (fun j => { j with state := 5 })).jobEvent
  else s

/-! ## How a descriptor ends -/

/-- Take a descriptor off the in-flight list. -/
def State.retire (s : State) (d : Nat) (src : DescSrc) : State :=
  s.modDie d (fun x => { x with
    inflight := x.inflight.filter (fun o => decide (o.src ≠ src)), remote := x.remote.filter (fun o => decide (o.src ≠ src)),
    orphans := x.orphans ++ x.remote.filter (fun o => decide (o.src = src) && !o.done) })

/-- Send a signal to its scope (Table 06-9): this die, another die, or a remote module on TC1 (R148). In the packet the semaphore,
op and v stand in arg bytes 0–1, 2 and 4–7 (DESIGN CHOICE: Table 12-3 gives only "operation fields"). A remote signal's descriptor stays in flight until its acknowledgement or a negative
response (R272). -/
def State.signal (s : State) (d : Nat) (src : DescSrc) (raw : List Byte) : State :=
  let sem := fb raw 8 2
  let set := decide (fb raw 0x0A 1 = 1)
  let v := fb raw 0x0C 4
  match slice (fb raw 0x0B 1) 2 1 with
  | 0 => s.semUpdate d sem set v
  | 1 => s.semUpdate (fb raw 0x12 1 % 4) sem set v
  | _ =>
    let tag := (s.die d).nextTag
    let s := s.modDie d (fun x => { x with
      nextTag := tag + 1, signals := Map.ins x.signals tag.toNat src, inflight := x.inflight ++ [{ src := src, raw := raw }] })
    (s.send d (s.packet d (fb raw 0x10 2) 5 1 (fb raw 0x12 1 % 4 * 2 ^ 48) tag.toNat 0
      (leBytes 2 sem ++ leBytes 1 (b2n set) ++ leBytes 1 0 ++ leBytes 4 v) [])).2

/-- Does a signal go to another module (Table 06-9)? -/
def signalRemote (raw : List Byte) : Bool := decide (2 ≤ slice (fb raw 0x0B 1) 2 1)

/-- Fenced signals whose earlier descriptors have all completed take effect (R148), with fuel for the signals that wait for one another. -/
def State.fenceRun (d : Nat) : Nat → DescSrc → State → State
  | 0, _, s => s
  | n + 1, src, s =>
    let s := s.modDie d (fun x => { x with
      fenced := x.fenced.map (fun f => { f with waits := f.waits.filter (fun w => decide (w ≠ src)) }) })
    let ready := (s.die d).fenced.filter (fun f => f.waits.isEmpty)
    let s := s.modDie d (fun x => { x with fenced := x.fenced.filter (fun f => !f.waits.isEmpty) })
    ready.foldl (fun s f =>
      let s := s.signal d f.src f.raw
      if signalRemote f.raw then s
      else
        let s := s.doneSem d f.raw
        let s := match f.src with | .queue q h => s.wqRecord d q h f.raw 0 | .stream _ _ => s
        State.fenceRun d n f.src s) s

/-- A descriptor has completed: the fenced signals that waited for it alone take effect. -/
def State.fenceCheck (s : State) (d : Nat) (src : DescSrc) : State := State.fenceRun d ((s.die d).fenced.length + 1) src s

/-- A descriptor ends with a status (R148, R151, R152, R161, R162). -/
def State.finish (s : State) (d : Nat) (src : DescSrc) (raw : List Byte) (status : Nat) : State :=
  let s := s.retire d src
  match src with
  | .stream pos _ =>
    if status = 0 then (((s.doneSem d raw).release).fenceCheck d src).jobCheck else s.jobFail d pos status
  | .queue q h =>
    let s := if status = 0 then (s.doneSem d raw).release else s
    let s := s.wqRecord d q h raw status
    let s := if status = 0 then s else s.wqStop d q h status
    s.fenceCheck d src

end Sys2Proof.Machine
end

