-- ==== Sys2Proof/Machine/Kernel.lean ====
section
/-! DEFINITION. Kernels and groups of a tile as the die sequencer and the group engine share them: launch, start, close, fault
(R110, R111, R127), and what an issued descriptor touches in the operand cache (R91, R92). -/
namespace Sys2Proof.Machine

/-! ## Kernels -/

/-- Kernel launch fields of an ISLAND (Table 06-11). -/
def kernelOf (src : DescSrc) (queueKeys : Bool) (raw : List Byte) : Kernel :=
  { src := src, handle := fb raw 0x38 4, code := fb raw 0x10 4, groups := fb raw 0x14 4, args := fb raw 0x20 8 % 2 ^ 48,
    key := fb raw 0x1C 1 % 64, seedId := fb raw 0x34 4, ocBase := fb raw 0x28 4, ocSize := fb raw 0x2C 4, plates := fb raw 0x30 4,
    queueKeys := queueKeys }

/-- Number of resident group slots (R110). -/
def groupSlots : Nat := 24

/-- A slot of a tile. -/
def Tile.slot (t : Tile) (n : Nat) : Group := Map.get {} t.slots n

/-- Put a slot. -/
def Tile.putSlot (t : Tile) (n : Nat) (g : Group) : Tile := { t with slots := Map.put {} t.slots n g }

/-- The lowest-numbered free slot (DESIGN CHOICE: R110 does not say which free slot a group takes; notes/assumptions/74). -/
def Tile.freeSlot (t : Tile) : Option Nat := (List.range groupSlots).find? (fun n => decide ((t.slot n).st = .free))

/-- A group at its start: registers and predicates 0, all threads live, PLEN 16 rows and full width (R100, R111). -/
def freshGroup (k : Kernel) : Group :=
  { st := .running, group := k.next, handle := k.handle, pc := BitVec.ofNat 32 k.code, live := 0xFFFFFFFF, active := 0xFFFFFFFF }

/-- Start the next group of the open kernel in the lowest free slot. -/
def Tile.startGroup (t : Tile) : Tile :=
  match t.kernel, t.freeSlot with
  | some k, some n => if k.next < k.groups then { t.putSlot n (freshGroup k) with kernel := some { k with next := k.next + 1 } } else t
  | _, _ => t

/-- Open the first waiting launch on a tile without a kernel: L1 invalidated (R124), first group started (R110). A launch of 0 groups
has none to start and closes at once. -/
def Tile.openKernel (t : Tile) : Tile :=
  match t.kernel, t.launches with
  | none, k :: r =>
    let t := { t with launches := r, l1 := [], slots := [], barErr := [] }
    if k.groups = 0 then t else { t with kernel := some k }.startGroup
  | _, _ => t

/-- A resident group is over (exited or discarded): its slot is free, and the kernel closes when every group is over (R110). -/
def Tile.groupOver (t : Tile) (n : Nat) : Tile :=
  let t := t.putSlot n {}
  match t.kernel with
  | some k =>
    let k := { k with gone := k.gone + 1 }
    if k.groups ≤ k.gone ∧ t.slots.isEmpty then { t with kernel := none, l1 := [], barErr := [] } else { t with kernel := some k }
  | none => t

/-- Is the kernel of a source still open or waiting on a tile? -/
def Tile.hasKernel (t : Tile) (src : DescSrc) : Bool :=
  (match t.kernel with | some k => decide (k.src = src) | none => false) || t.launches.any (fun k => decide (k.src = src))

/-- Is a group of a source's kernel parked on the tile? -/
def Tile.hasParked (t : Tile) (src : DescSrc) : Bool :=
  (match t.kernel with | some k => decide (k.src = src) | none => false) && t.slots.any (fun g => decide (g.2.st = .parked))

/-- A group faults and parks with its context; the faulting instruction has no effect (R127). -/
def State.groupFault (s : State) (d t n code addr : Nat) : State :=
  let s := s.modTile d t (fun x => x.putSlot n { x.slot n with st := .parked, fault := BitVec.ofNat 8 code, faultAddr := BitVec.ofNat 64 addr })
  s.dieEvent d (t % 32) 0x3001 (leBytes 1 t ++ leBytes 1 n ++ leBytes 1 code ++ leBytes 8 addr)

/-! ## Islands -/

/-- Does an island cover a tile? -/
def Island.covers (i : Island) (t : Nat) : Bool := decide (i.first ≤ t) && decide (t < i.first + i.count)

/-- The tiles of an island. -/
def Island.tiles (i : Island) : List Nat := (List.range i.count).map (fun k => i.first + k)

/-- Plates granted to open islands on a tile. -/
def State.islandPlates (s : State) (d t : Nat) : Nat :=
  (s.die d).islands.foldl (fun a i => if i.covers t then a ||| fb i.raw 0x30 4 else a) 0

/-- Has every kernel of an island closed? -/
def State.islandClosed (s : State) (d : Nat) (i : Island) : Bool := i.tiles.all (fun t => !(s.tile d t).hasKernel i.src)

/-- Does a windowed island stand at the end of its window? -/
def Die.windowDue (x : Die) : Bool := x.islands.any (fun i => i.windowed && decide (i.endSc ≤ x.sc))

/-! ## Unit queues (R135) and operand-cache hazards (R91, R92) -/

/-- The unit a descriptor names (R135). -/
def unitOf (raw : List Byte) : Option Unit_ :=
  match dKind raw with
  | 3 => some .mxe
  | 4 => some .vxe
  | 5 => some (.tdm (fb raw 0x14 1 % 4))
  | 6 => some (.ce (fb raw 8 1 % 4))
  | 10 => some .gxe
  | _ => none

/-- Do two tile ranges meet? -/
def tilesMeet (a b : List Byte) : Bool :=
  decide (dFirst a < dFirst b + dCount b) && decide (dFirst b < dFirst a + dCount a)

/-- Do two descriptors queue on one unit? -/
def sameUnit (a b : List Byte) : Bool :=
  (unitOf a).isSome && decide (unitOf a = unitOf b) && (decide (dKind a = 6) || tilesMeet a b)

/-- Is a named unit's queue full? Each accepts up to 4 issued descriptors that have not completed (R135). -/
def State.queueFull (s : State) (d : Nat) (raw : List Byte) : Bool :=
  let mine := (s.die d).inflight.filter (fun o => sameUnit o.raw raw)
  match dKind raw with
  | 6 => decide (4 ≤ mine.length)
  | _ => (unitOf raw).isSome && (dTiles raw).any (fun t =>
      decide (4 ≤ (mine.filter (fun o => decide (dFirst o.raw ≤ t) && decide (t < dFirst o.raw + dCount o.raw))).length))

/-- Does the die run some unit that a descriptor names degraded (Table 04-7)? -/
def State.degradedUnit (s : State) (d : Nat) (raw : List Byte) : Bool :=
  decide (dKind raw ≠ 6) && (dTiles raw).any (fun t =>
    let u := Map.get {} (s.die d).units t
    match unitOf raw with
    | some .mxe => u.present && decide (u.mxeQ ≠ 15)
    | some .vxe => u.present && decide (u.vxeH ≠ 3)
    | some .gxe => u.gxeHalf
    | _ => false)

/-- Is some memory level saturated or a bank under row repair (R8, R221, R238): a die-cache slice, a stack's or a package's channel? -/
def State.memorySlow (s : State) : Bool :=
  s.dies.any (fun e => decide (e.2.dc.satMask ≠ 0)) || s.pool.ctrls.any (fun e => decide (e.2.satMask ≠ 0) || !e.2.repairing.isEmpty)

/-- Is a die link held up (R261): a module at half width, retired, retraining or in a lane check, a replay under way, a handover? -/
def LinkEnd_.slow (l : LinkEnd_) (e : Nat) : Bool :=
  (List.range (endModules e)).any (fun m => decide ((l.module m).st ≠ .full) || (l.module m).retraining || (l.module m).checking) ||
    l.nak || !l.resend.isEmpty || l.handover

/-- Is a fabric port of a die held up (R276): retraining, narrowed, replaying, or its packets on the alternate path? -/
def Port.slow (p : Port) : Bool :=
  decide (p.state = 3) || (decide (p.state = 2) && decide (p.width ≠ 3)) || p.nak || !p.resend.isEmpty

/-- Does a descriptor move data over die links: to a memory tensor, or a collective, or a kernel's accesses? -/
def InFlight.onMemory (o : InFlight) : Bool :=
  match dKind o.raw with
  | 5 => [o.a, o.d].any (fun t => match t with | some t => decide (t.space = .memory) | none => false)
  | 6 | 10 => true
  | 3 => let f := mmFields o.raw; decide (slice f.ceilA 49 48 = 1) || decide (slice f.ceilB 49 48 = 1)
  | _ => false

/-- Does it move data over the fabric? -/
def InFlight.onFabric (o : InFlight) : Bool :=
  dKind o.raw = 6 || [o.a, o.d].any (fun t => match t with | some t => t.remote | none => false)

/-- Is a collective engine late because of a peer or of its own level: it waits for a rank's credit, or is saturated? -/
def Ce.peerLate (c : Ce) : Bool := c.waitRank.isSome || decide (c.sat ≠ 0) || c.satEvent

/-- The stretch cause that a full unit queue reports (Table 06-1), by what holds up the descriptors in it. Which cause a late unit
reports where several hold is the model's choice: degraded, collective peer, link, memory, else queue full (notes/assumptions/72). -/
def State.fullCause (s : State) (d : Nat) (raw : List Byte) : Nat :=
  let mine := (s.die d).inflight.filter (fun o => sameUnit o.raw raw)
  if s.degradedUnit d raw then 3
  else if dKind raw = 6 ∧ (s.ce d (fb raw 8 1 % 4)).peerLate then 8
  else if (mine.any (·.onMemory) && s.links.any (fun e => e.2.slow e.1)) || (mine.any (·.onFabric) && s.ports.any (fun e => e.2.slow)) then 9
  else if mine.any (·.onMemory) && s.memorySlow then 0x0A
  else 5

/-- What a descriptor reads and writes in a tile's operand cache: plain ranges, panel rings read and written, plates. -/
structure OcUse where
  reads : List (Int × Int) := []
  writes : List (Int × Int) := []
  ringR : List (Int × Int) := []
  ringW : List (Int × Int) := []
  plates : Nat := 0
  deriving DecidableEq, Repr

/-- Ranges of an operand in the operand cache; a source's own ceiling vector is not read. -/
def ocReads (t : Option Tensor) (rep : Nat) : List (Int × Int) :=
  match t with
  | some t => if t.space = .oc then t.bare.ranges rep 0 0 else []
  | none => []

/-- Ranges of a destination. -/
def ocWrites (t : Option Tensor) (rep : Nat) : List (Int × Int) :=
  match t with
  | some t => if t.space = .oc then t.ranges rep 0 0 else []
  | none => []

/-- The use an issued descriptor makes of the operand cache (R91). -/
def InFlight.use (x : InFlight) : OcUse :=
  match dKind x.raw with
  | 3 =>
    let f := mmFields x.raw
    let ring (r : Nat) : Int × Int := ((ringBase r : Nat), (ringBase r : Nat) + ((ringSlots r * ringSlot (f.fa.getD .fp32) : Nat) : Int))
    { reads := (match x.c with | some t => t.bare.cornerRanges x.rep f.m | none => []) ++
        ceilRange f.ceilA f.m ++ ceilRange f.ceilB f.n,
      writes := (match x.d with | some t => t.cornerRanges x.rep f.m | none => []), ringR := [ring f.ringA, ring f.ringB] }
  | 4 => { reads := ocReads x.a x.rep ++ ocReads x.b x.rep ++ ocReads x.c x.rep, writes := ocWrites x.d x.rep, plates := fb x.raw 0x24 4 }
  | 5 =>
    let xf := fb x.raw 0x15 1
    let g := fb x.raw 0x28 4
    let list : List (Int × Int) := if bit xf 2 then [((g : Int), (g : Int) + 8 * (fb x.raw 0x2C 2 : Nat))] else []
    let rd := (if bit xf 2 then [] else ocReads x.a x.rep) ++ list
    if bit xf 1 then
      match x.d with
      | some t =>
        let b := t.localBase
        { reads := rd, ringW := [((b : Int), ((b + slice (fb x.raw 0x16 1) 7 1 * ringSlot t.fmt : Nat) : Int))],
          writes := if t.ceilEmit then [((t.ceil : Int), (t.ceil : Int) + 2 * t.ceilCount)] else [] }
      | none => { reads := rd }
    else { reads := rd, writes := ocWrites x.d x.rep }
  | _ => {}

/-- Must x wait for the older use y (R91)? Panel rings are exempt between the TDM and the MXE. -/
def OcUse.conflicts (x y : OcUse) : Bool :=
  rangesOverlap x.writes (y.reads ++ y.writes ++ y.ringR ++ y.ringW) || rangesOverlap x.reads (y.writes ++ y.ringW) ||
    rangesOverlap x.ringR y.writes || rangesOverlap x.ringW (y.reads ++ y.writes ++ y.ringW) || decide (x.plates &&& y.plates ≠ 0)

/-- Issued descriptors older than a source. -/
def Die.older (x : Die) (src : DescSrc) : List InFlight := x.inflight.takeWhile (fun o => decide (o.src ≠ src))

/-- Does an open island's grant cover what a descriptor touches (R92)? -/
def Island.blocks (i : Island) (x : InFlight) : Bool :=
  let u := x.use
  let b := fb i.raw 0x28 4
  let range : List (Int × Int) := if fb i.raw 0x2C 4 = 0 then [] else [((b : Int), ((b + fb i.raw 0x2C 4 : Nat) : Int))]
  tilesMeet i.raw x.raw &&
    (rangesOverlap range (u.reads ++ u.writes ++ u.ringR ++ u.ringW) || decide (u.plates &&& fb i.raw 0x30 4 ≠ 0))

/-- Is a MOVE still at work on its tiles: held, waiting for remote data, or with panels to pack? -/
def State.moveOpen (s : State) (d : Nat) (y : InFlight) : Bool :=
  y.held || decide (dKind y.raw = 5 ∧ (y.busy ≠ 0 ∨ (dTiles y.raw).any (fun t => (s.tile d t).packs.any (fun p => decide (p.src = y.src)))))

/-- Must a descriptor wait inside its unit (R91, R92): for an older conflicting one, behind an unfinished one of its own unit queue
(R102: the moves of a channel complete in issue order), or for an island opened before it? -/
def State.blocked (s : State) (d : Nat) (x : InFlight) : Bool :=
  let old := (s.die d).older x.src
  let younger (o : DescSrc) := (s.die d).inflight.any (fun y => decide (y.src = o)) && !old.any (fun y => decide (y.src = o))
  old.any (fun y => tilesMeet y.raw x.raw && decide (dKind y.raw ≠ 6) && decide (dKind y.raw ≠ 10) &&
      (x.use.conflicts y.use || (sameUnit y.raw x.raw && s.moveOpen d y))) ||
    (s.die d).islands.any (fun i => !younger i.src && i.blocks x)

/-- Change an in-flight descriptor. -/
def State.modFlight (s : State) (d : Nat) (src : DescSrc) (f : InFlight → InFlight) : State :=
  s.modDie d (fun x => { x with inflight := x.inflight.map (fun o => if o.src = src then f o else o) })

/-- Record the first status of an in-flight descriptor. -/
def State.flightStatus (s : State) (d : Nat) (src : DescSrc) (status : Nat) : State :=
  s.modFlight d src (fun o => if o.status = 0 then { o with status := status } else o)

/-- Join a descriptor's numeric flags into the job's: those of queue entries reach no job status (R52). -/
def State.descFlags (s : State) (src : DescSrc) (f : NumFlags) : State := if src.isStream then s.jobFlags f else s

/-- Status of a failed memory access (Table 06-12). -/
def memStatus (e : MemErr) : Nat := match e with | .unmapped => 9 | .fenced => 0x0B | .sram => 0x0A

/-- A computed byte address as a physical address: out-of-range sums stay out of the address map. -/
def physOf (a : Int) : Nat := (a % (2 ^ 64 : Nat)).toNat

end Sys2Proof.Machine
end

