-- ==== Sys2Proof/Machine/Effects.lean ====
section
/-! DEFINITION. What an issued MOVE or VLOOP does on its tiles (R102, R144, R145, R438), the panel rings (R87), one K step of the
matrix engine with its block drain (R58 to R77, R86, R88). -/
namespace Sys2Proof.Machine

/-! ## Rows of a tensor wherever it lies -/

/-- Does any range of an SRAM read as an error (R103)? -/
def sramBad (bad : List Nat) (rs : List (Int × Int)) : Bool := rs.any (fun r => badWord bad r.1.toNat (r.2 - r.1).toNat)

/-- Words fully covered by written ranges read well again. -/
def healRanges (bad : List Nat) (rs : List (Int × Int)) : List Nat :=
  rs.foldl (fun b r => healWords b r.1.toNat (r.2 - r.1).toNat) bad

/-- Byte ranges of every row. -/
def rowRanges (x : Tensor) (rep : Nat) : List (Int × Int) :=
  (List.range x.rows).map (fun r => (x.rowAddr rep 0 r, x.rowAddr rep 0 r + x.rowBytes)) ++
    (if x.fmt.isMx then (List.range x.rows).map (fun r => (x.scaleAddr rep 0 r, x.scaleAddr rep 0 r + x.dim 0 / 32)) else [])

/-- Byte ranges that a store of a tensor writes: its rows, its scales, the ceiling vector it emits. -/
def storedRanges (x : Tensor) (rep : Nat) : List (Int × Int) :=
  rowRanges x rep ++ (if x.ceilEmit then [((x.ceil : Int), (x.ceil : Int) + 2 * x.ceilCount)] else [])

/-- Read rows of a tensor in memory; the first access that fails gives the status. -/
def readRowsGo (acc : Acc) (x : Tensor) (rep : Nat) (step mxStep : Int) : List Nat → State → Except Nat (List RowBytes) × State
  | [], s => (.ok [], s)
  | r :: rs, s =>
    match s.readMem acc (physOf (x.rowAddr rep step r)) x.rowBytes with
    | (.error e, s) => (.error (memStatus e.1), s)
    | (.ok l, s) =>
      match (if x.fmt.isMx then s.readMem acc (physOf (x.scaleAddr rep mxStep r)) (x.dim 0 / 32) else (.ok [], s)) with
      | (.error e, s) => (.error (memStatus e.1), s)
      | (.ok m, s) =>
        match readRowsGo acc x rep step mxStep rs s with
        | (.ok k, s) => (.ok ((l, m) :: k), s)
        | (.error e, s) => (.error e, s)

/-- Read a local tensor on a tile. -/
def State.readRows (s : State) (acc : Acc) (d t : Nat) (x : Tensor) (rep : Nat) (step mxStep : Int) : Except Nat (List RowBytes) × State :=
  match x.space with
  | .memory => readRowsGo acc x rep step mxStep (List.range x.rows) s
  | .ts =>
    if sramBad (s.tile d t).tsBad (rowRanges x rep) then (.error 0x0A, s) else (.ok (sramRows (s.tile d t).ts x rep), s)
  | .oc =>
    if sramBad (s.tile d t).ocBad (rowRanges x rep) then (.error 0x0A, s) else (.ok (sramRows (s.tile d t).oc x rep), s)

/-- Write a list of byte strings to memory in turn; 0 or the status of the first that fails. -/
def writePieces (acc : Acc) : List (Nat × List Byte) → State → Nat × State
  | [], s => (0, s)
  | (a, l) :: r, s =>
    match s.writeMem acc a l with
    | (none, s) => writePieces acc r s
    | (some e, s) => (memStatus e.1, s)

/-- The pieces of a tensor's store in memory: rows, block scales, ceiling vector. -/
def memPieces (x : Tensor) (rep : Nat) (step mxStep : Int) (rows : List RowBytes) (ceil : List Byte) : List (Nat × List Byte) :=
  ((List.range x.rows).zip rows).map (fun p => (physOf (x.rowAddr rep step p.1), p.2.1)) ++
    (if x.fmt.isMx then ((List.range x.rows).zip rows).map (fun p => (physOf (x.scaleAddr rep mxStep p.1), p.2.2)) else []) ++
    (if x.ceilEmit then [(x.ceil, ceil)] else [])

/-- The ceiling vector of a stored tensor (R70). -/
def tensorCeil (x : Tensor) (rows : List RowBytes) : List Byte := ceilBytes (ceilEntries x.size x.ceilDim (rowVals x false rows))

/-- Write a local tensor on a tile, with its ceiling vector. -/
def State.writeRows (s : State) (acc : Acc) (d t : Nat) (x : Tensor) (rep : Nat) (step mxStep : Int) (rows : List RowBytes) : Nat × State :=
  let ceil := if x.ceilEmit then tensorCeil x rows else []
  let put (m : Map Byte) : Map Byte :=
    let m := putRows m x rep rows
    if x.ceilEmit then putCells m x.ceil ceil else m
  match x.space with
  | .memory => writePieces acc (memPieces x rep step mxStep rows ceil) s
  | .ts => (0, s.modTile d t (fun k => { k with ts := put k.ts, tsBad := healRanges k.tsBad (storedRanges x rep) }))
  | .oc => (0, s.modTile d t (fun k => { k with oc := put k.oc, ocBad := healRanges k.ocBad (storedRanges x rep) }))

/-! ## Panel rings (R87) -/

/-- Is pack p the next one of its channel and of its ring? -/
def packFirst (l : List PackMove) (c : Nat) : Option PackMove :=
  match l.find? (fun p => decide (p.chan = c)) with
  | some p => if (l.find? (fun q => q.ringB == p.ringB)) = some p then some p else none
  | none => none

/-- A ring that an empty move names with other parameters starts over (DESIGN CHOICE: R87 does not say where its first panel lands). -/
def Ring.named (r : Ring) (p : PackMove) : Ring :=
  if r.filled = r.released ∧ (r.base, r.slot, r.slots) ≠ (p.base, p.slot, p.slots) then ⟨p.base, p.slot, p.slots, 0, 0⟩ else r

/-- The next panel of a channel's first pack goes into its ring when a slot is released. -/
def Tile.fillOne (t : Tile) (c : Nat) : Tile :=
  match packFirst t.packs c with
  | some p =>
    let r := (if p.ringB then t.ringB else t.ringA).named p
    match p.panels with
    | panel :: rest =>
      if p.slots ≤ r.filled - r.released then t
      else
        let at_ := p.base + r.filled % p.slots * p.slot
        let t := { t with ocBad := healWords t.ocBad at_ panel.length }
        let oc := putCells t.oc at_ panel
        let r := { r with filled := r.filled + 1 }
        let packs := if rest.isEmpty then t.packs.filter (fun q => decide (q ≠ p))
          else t.packs.map (fun q => if q = p then { p with panels := rest } else q)
        if p.ringB then { t with oc := oc, packs := packs, ringB := r } else { t with oc := oc, packs := packs, ringA := r }
    | [] => { t with packs := t.packs.filter (fun q => decide (q ≠ p)) }
  | none => t

/-- Fill as many slots as are free, with fuel. -/
def Tile.fillAll (c : Nat) : Nat → Tile → Tile
  | 0, t => t
  | n + 1, t => Tile.fillAll c n (t.fillOne c)

/-! ## VLOOP -/

/-- Plates of a mask take bits that the spec does not state. -/
def State.scratchPlates (s : State) (d t mask : Nat) : State :=
  (maskBits 32 mask).foldl (fun s p =>
    let s := s.modTile d t (fun k => { k with
      plates := Map.put {} k.plates p ⟨[], some s.freeCount⟩, plateBad := k.plateBad.filter (fun w => decide (w / 128 ≠ p)) })
    { s with freeCount := s.freeCount + 1 }) s

/-- A VLOOP on one tile: 0 or a status. -/
def State.vloopTile (s : State) (d : Nat) (x : InFlight) (t : Nat) : Nat × State :=
  match x.a, x.d with
  | some ta, some td =>
    let k := s.tile d t
    if sramBad k.ocBad (([some ta, x.b, x.c].filterMap id).map (fun t => rowRanges t x.rep)).flatten then (0x0A, s)
    else
      let (oc, fl) := vloopOc k.oc x.raw x.rep (s.die d).seed.toNat ta x.b x.c td
      let s := s.modTile d t (fun k => { k with oc := oc, ocBad := healRanges k.ocBad (storedRanges td x.rep) })
      (0, (s.descFlags x.src fl).scratchPlates d t (fb x.raw 0x24 4))
  | _, _ => (0, s)

/-! ## MOVE -/

/-- The issuer a descriptor's accesses speak for: the job for a stream, the operating system for a queue entry, the job for an entry
that issues into an island (R163, R385). -/
def ownerOf (x : InFlight) : Holder := if x.src.isStream || x.jobKeys then .job else .os

/-- Access of a data mover for a tensor. -/
def tdmAcc (own : Holder) (d t : Nat) (x : Tensor) : Acc := ⟨unitAgent d t, 1, own, x.key, x.streaming⟩

/-- Is a job running or suspended, so that queues are held (R163)? -/
def State.jobHolds (s : State) : Bool := decide (s.jobState = 3) || decide (s.jobState = 4)

/-- Split a byte range into pieces of at most 1,024 bytes (R271), with fuel. -/
def splitRange : Nat → Nat → Nat → List (Nat × Nat)
  | 0, _, _ => []
  | f + 1, a, n => if n = 0 then [] else (a, min n 1024) :: splitRange f (a + 1024) (n - 1024)

/-- Pieces of a list of ranges. -/
def splitAll (l : List (Nat × Nat)) : List (Nat × Nat) := (l.map (fun p => splitRange (p.2 / 1024 + 1) p.1 p.2)).flatten

/-- Traffic class of remote reads and writes (Table 12-4). -/
def remoteTc (src : DescSrc) : Nat := if src.isStream then 0 else 2

/-- The target die of a remote access (Table 12-3): the die of a tile store, else of the home slice; 0 for the host die's (DESIGN CHOICE: the spec does
not say which die a memory access names). -/
def targetDie (a : Nat) : Nat :=
  let a := a % 2 ^ 48
  if 0x080000000000 ≤ a ∧ a < 0x080040000000 then (a - 0x080000000000) / 2 ^ 28 % 4 else if (homeSlice (a / 128)).1 < 4 then (homeSlice (a / 128)).1 else 0

/-- Send the remote reads of a tile, one per piece; off counts the bytes in the tile's stream. A read packet carries its byte count
in arg bytes 0 to 3 (DESIGN CHOICE: Table 12-3 gives "operation fields"). False when a packet has no route. -/
def sendReads (d t : Nat) (src : DescSrc) (node key : Nat) : List (Nat × Nat) → Nat → State → Bool × State
  | [], _, s => (true, s)
  | (a, n) :: r, off, s =>
    let tag := (s.die d).nextTag
    let (ok, s) := s.send d (s.packet d node 1 (remoteTc src) (a % 2 ^ 48 + targetDie a * 2 ^ 48) tag.toNat key (leBytes 4 n) [])
    let s := s.modDie d (fun x => { x with
      nextTag := tag + 1, remote := x.remote ++ [{ tag := tag.toNat, src := src, op := 1, tile := t, off := off, len := n }] })
    if ok then sendReads d t src node key r (off + n) s else (false, s)

/-- Send the remote writes of a tile. -/
def sendWrites (d t : Nat) (src : DescSrc) (node key : Nat) : List (Nat × List Byte) → State → Bool × State
  | [], s => (true, s)
  | (a, l) :: r, s =>
    let tag := (s.die d).nextTag
    let (ok, s) := s.send d (s.packet d node 3 (remoteTc src) (a % 2 ^ 48 + targetDie a * 2 ^ 48) tag.toNat key [] l)
    let s := s.modDie d (fun x => { x with
      nextTag := tag + 1, remote := x.remote ++ [{ tag := tag.toNat, src := src, op := 3, tile := t, off := a % 2 ^ 48, len := l.length }] })
    if ok then sendWrites d t src node key r s else (false, s)

/-- Byte strings cut to at most 1,024 bytes. -/
def cutPieces (l : List (Nat × List Byte)) : List (Nat × List Byte) :=
  (l.map (fun p => (splitRange (p.2.length / 1024 + 1) p.1 p.2.length).map (fun q => (q.1, (p.2.drop (q.1 - p.1)).take q.2)))).flatten

/-- The gather list of a tile: line addresses, none when an entry's node bits do not match (R438). Entries past OC offset 0x3_FFFF, which
no check rejects, read zero bytes (DESIGN CHOICE: notes/assumptions/92). -/
def gatherList (oc : Map Byte) (x : InFlight) (a : Tensor) : List (Option Nat) :=
  (List.range (fb x.raw 0x2C 2)).map (fun i =>
    let e := leNat (sramRead oc (fb x.raw 0x28 4 + 8 * i) 8)
    let node := if a.remote then a.base / 2 ^ 48 else 0
    if e / 2 ^ 48 = node then some (e % 2 ^ 48 / 128 * 128) else none)

/-- Read the listed lines in order. -/
def gatherLines (acc : Acc) : List (Option Nat) → State → Except Nat (List Byte) × State
  | [], s => (.ok [], s)
  | none :: _, s => (.error 9, s)
  | some a :: r, s =>
    match s.readMem acc a 128 with
    | (.error e, s) => (.error (memStatus e.1), s)
    | (.ok l, s) =>
      match gatherLines acc r s with
      | (.ok k, s) => (.ok (l ++ k), s)
      | (.error e, s) => (.error e, s)

/-- Rows of a tensor from a packed byte stream. -/
def rowsOfStream (x : Tensor) (l : List Byte) (scales : List (List Byte)) : List RowBytes :=
  (List.range x.rows).map (fun r => (bytesAt l (r * x.rowBytes) x.rowBytes, scales.getD r []))

/-- Block scales of a local source tensor in memory, row by row. -/
def readScales (acc : Acc) (x : Tensor) (rep : Nat) (mxStep : Int) : List Nat → State → Except Nat (List (List Byte)) × State
  | [], s => (.ok [], s)
  | r :: rs, s =>
    match s.readMem acc (physOf (x.scaleAddr rep mxStep r)) (x.dim 0 / 32) with
    | (.error e, s) => (.error (memStatus e.1), s)
    | (.ok l, s) =>
      match readScales acc x rep mxStep rs s with
      | (.ok k, s) => (.ok (l :: k), s)
      | (.error e, s) => (.error e, s)

/-- The source rows of a tile of a MOVE whose source is local. With gather the elements come from the lines and the block scales of an
MX source from its scale array (DESIGN CHOICE: R438 speaks of the elements only; notes/assumptions/92). -/
def State.moveSource (s : State) (own : Holder) (d : Nat) (x : InFlight) (a : Tensor) (t k : Nat) : Except Nat (List RowBytes) × State :=
  let step : Int := if a.space = .memory then signed 48 (fb x.raw 0x18 8) * k else 0
  let mxStep : Int := if a.space = .memory then fs x.raw 0x34 6 * k else 0
  let acc := tdmAcc own d t a
  if bit (fb x.raw 0x15 1) 2 then
    if sramBad (s.tile d t).ocBad x.use.reads then (.error 0x0A, s)
    else
      match gatherLines acc (gatherList (s.tile d t).oc x a) s with
      | (.error e, s) => (.error e, s)
      | (.ok l, s) =>
        match (if a.fmt.isMx then readScales acc a x.rep mxStep (List.range a.rows) s else (.ok [], s)) with
        | (.ok m, s) => (.ok (rowsOfStream a l m), s)
        | (.error e, s) => (.error e, s)
  else s.readRows acc d t a x.rep step mxStep

/-- Store a tile's source rows at the destination of a MOVE (Table 04-5): conversion, transpose, packing, ceiling vector. A packing MOVE
writes from its ring base as it stands: Table 06-18 has no check that it is a multiple of 256 (DESIGN CHOICE: notes/assumptions/74). -/
def State.moveStore (s : State) (own : Holder) (d : Nat) (x : InFlight) (a b : Tensor) (t k : Nat) (rows : List RowBytes) : Nat × State :=
  let xf := xformOf x.raw
  let (out, fl) := moveRows xf x.raw x.rep (s.die d).seed.toNat s.freeCount a b rows
  let s := { s with freeCount := s.freeCount + moveFree xf a b }
  let s := s.descFlags x.src fl
  let step : Int := if b.space = .memory then signed 48 (fb x.raw 0x20 8) * k else 0
  let mxStep : Int := if b.space = .memory then fs x.raw 0x3A 6 * k else 0
  if xf.pack then
    let panels := movePanels b s.freeCount out
    let s := { s with freeCount := s.freeCount + panels.length }
    let c := fb x.raw 0x14 1 % 4
    let p : PackMove := ⟨x.src, c, bit (fb x.raw 0x16 1) 0, b.localBase, ringSlot b.fmt, slice (fb x.raw 0x16 1) 7 1, panels⟩
    (0, s.modTile d t (fun q =>
      let v := tensorCeil b out
      let q := if b.ceilEmit then { q with oc := putCells q.oc b.ceil v, ocBad := healWords q.ocBad b.ceil v.length } else q
      Tile.fillAll c panels.length { q with packs := q.packs ++ [p] }))
  else if b.remote then
    let pieces := cutPieces (memPieces b x.rep step mxStep out (if b.ceilEmit then tensorCeil b out else []))
    let (ok, s) := sendWrites d t x.src (b.base / 2 ^ 48) b.key pieces s
    (if ok then 0 else 9, s)
  else s.writeRows (tdmAcc own d t b) d t b x.rep step mxStep out

/-- Byte ranges that a MOVE reads from a remote source on a tile: the rows or gathered lines, then the block scales; none when a
gather entry does not match. -/
def State.remoteRanges (s : State) (d : Nat) (x : InFlight) (a : Tensor) (t k : Nat) : Option (List (Nat × Nat)) :=
  let step : Int := signed 48 (fb x.raw 0x18 8) * k
  let mxStep : Int := fs x.raw 0x34 6 * k
  let scales := if a.fmt.isMx then (List.range a.rows).map (fun r => (physOf (a.scaleAddr x.rep mxStep r), a.dim 0 / 32)) else []
  if bit (fb x.raw 0x15 1) 2 then
    let l := gatherList (s.tile d t).oc x a
    if l.all (·.isSome) then some ((l.filterMap id).map (fun e => (e, 128)) ++ scales) else none
  else some ((List.range a.rows).map (fun r => (physOf (a.rowAddr x.rep step r), a.rowBytes)) ++ scales)

/-- Source rows of a tile from the answers to its remote reads. -/
def remoteRows (l : List RemoteReq) (x : InFlight) (a : Tensor) (t : Nat) : List RowBytes :=
  let bytes := (l.filter (fun q => decide (q.src = x.src) && decide (q.tile = t) && decide (q.op = 1))).foldl
    (fun acc q => acc ++ bytesAt q.data 0 q.len) []
  let n := if bit (fb x.raw 0x15 1) 2 then 128 * fb x.raw 0x2C 2 else a.packed
  let m := a.dim 0 / 32
  rowsOfStream a bytes (if a.fmt.isMx then (List.range a.rows).map (fun r => bytesAt bytes (n + r * m) m) else [])

/-- Start a MOVE on one tile: do it, or send its remote reads. -/
def State.moveTile (s : State) (own : Holder) (d : Nat) (x : InFlight) (t : Nat) : Nat × State :=
  let k := t - dFirst x.raw
  match x.a, x.d with
  | some a, some b =>
    if a.remote then
      if bit (fb x.raw 0x15 1) 2 && sramBad (s.tile d t).ocBad x.use.reads then (0x0A, s)
      else
        match s.remoteRanges d x a t k with
        | some l =>
          let (ok, s) := sendReads d t x.src (a.base / 2 ^ 48) a.key (splitAll l) 0 s
          (if ok then 0 else 9, s)
        | none => (9, s)
    else
      match s.moveSource own d x a t k with
      | (.error e, s) => (e, s)
      | (.ok rows, s) => s.moveStore own d x a b t k rows
  | _, _ => (0, s)

/-- Finish a MOVE with a remote source on one tile. -/
def State.moveFinish (s : State) (own : Holder) (d : Nat) (x : InFlight) (t : Nat) : Nat × State :=
  match x.a, x.d with
  | some a, some b => s.moveStore own d x a b t (t - dFirst x.raw) (remoteRows (s.die d).remote x a t)
  | _, _ => (0, s)

/-- Do something on each tile until one gives a status. -/
def onTiles (f : State → Nat → Nat × State) : List Nat → State → Nat × State
  | [], s => (0, s)
  | t :: r, s =>
    match f s t with
    | (0, s) => onTiles f r s
    | (e, s) => (e, s)

/-- The effect of an issued VLOOP or MOVE, applied once its hazards are clear. -/
def State.applyEffect (s : State) (d : Nat) (x : InFlight) : State :=
  let own := ownerOf x
  let (st, s) :=
    if dKind x.raw = 4 then onTiles (fun s t => s.vloopTile d x t) (dTiles x.raw) s
    else onTiles (fun s t => s.moveTile own d x t) (dTiles x.raw) s
  let waits := dKind x.raw = 5 && (match x.a with | some a => a.remote | none => false)
  (s.modFlight d x.src (fun o => { o with held := false, busy := if waits then 1 else 0 })).flightStatus d x.src st

/-! ## The matrix engine -/

/-- The format of a panel element and its row of 32 in a panel at an OC offset: codes and scale byte. -/
def panelRow (oc : Map Byte) (f : Fmt) (base r : Nat) : List Nat × Option Nat :=
  let b := 32 * f.width / 8
  (unpackRow f.width 32 (sramRead oc (base + r * b) b),
   if f.isMx then some (Map.get 0 oc (base + 64 * b + r)).toNat else none)

/-- Logical values of the first n elements of a panel row (R59). -/
def panelVals (oc : Map Byte) (f : Fmt) (ftz : Bool) (scale base n r : Nat) : List Val :=
  let p := panelRow oc f base r
  (p.1.take n).map (elemVal f ftz p.2 scale)

/-- Place of an operation: block row and column, and their sizes (R84). -/
structure BlockPos where
  bi : Nat
  bj : Nat
  rows : Nat
  cols : Nat
  deriving DecidableEq, Repr

/-- Row-major block order. -/
def blockPos (x : MatmulFields) (block : Nat) : BlockPos :=
  let nb := cdiv x.n 64
  let bi := block / nb
  let bj := block % nb
  ⟨bi, bj, min 64 (x.m - 64 * bi), min 64 (x.n - 64 * bj)⟩

/-- Bit address of element (i, j) of a tensor in the OC. -/
def elemBit (t : Tensor) (rep i j : Nat) : Nat := 8 * (t.rowAddr rep 0 i).toNat + j * t.fmt.width

/-- The positions of a block, row-major. -/
def BlockPos.all (p : BlockPos) : List (Nat × Nat) :=
  ((List.range p.rows).map (fun r => (List.range p.cols).map (fun c => (r, c)))).flatten

/-- C elements of a block as codes (R88). -/
def cCodes (oc : Map Byte) (t : Tensor) (rep : Nat) (p : BlockPos) : List Nat :=
  p.all.map (fun q => getBits oc (elemBit t rep (64 * p.bi + q.1) (64 * p.bj + q.2)) t.fmt.width)

/-- Does an operation run in integers? -/
def MatmulFields.isInt (x : MatmulFields) : Bool :=
  match x.fa with | some .int8 => true | some .uint8 => true | _ => false

/-- Window width of an operation (R73). -/
def MatmulFields.winW (x : MatmulFields) : Nat := if x.fa = some .fp64 then 384 else 192

/-- The n ceiling entries that an operation reads, from the OC or memory (R71); an error gives the status. Entries past OC offset
0x3_FFFF read zero bytes (DESIGN CHOICE: notes/assumptions/92). -/
def State.readCeil (s : State) (own : Holder) (d t key loc n : Nat) : Except Nat (List Int) × State :=
  let a := loc % 2 ^ 48
  let dec (l : List Byte) : List Int := (List.range n).map (fun i => signed 16 (fieldAt l (2 * i) 2))
  if slice loc 49 48 = 2 then
    if badWord (s.tile d t).ocBad a (2 * n) then (.error 0x0A, s) else (.ok (dec (sramRead (s.tile d t).oc a (2 * n))), s)
  else
    match s.readMem ⟨unitAgent d t, 1, own, key, false⟩ a (2 * n) with
    | (.ok l, s) => (.ok (dec l), s)
    | (.error e, s) => (.error (memStatus e.1), s)

/-- Start a block: C is read (R63, R67, R74, R88), and before the first block the ceiling vectors, once for the whole operation, so
that a write to them while it runs has no effect on it (R71). -/
def State.blockStart (s : State) (own : Holder) (d t : Nat) (o : MxeOp) (x : MatmulFields) : Except Nat MxeOp × State :=
  let p := blockPos x o.block
  let oc := (s.tile d t).oc
  let n := p.rows * p.cols
  let cBad := match o.cT with
    | some c => p.all.any (fun q => badWord (s.tile d t).ocBad (elemBit c o.rep (64 * p.bi + q.1) (64 * p.bj + q.2) / 8) (c.fmt.width / 8 + 1))
    | none => false
  if cBad then (.error 0x0A, s)
  else
    let o := match o.cT with
      | none => { o with vals := List.replicate n .zero, ints := List.replicate n 0 }
      | some c =>
        let codes := cCodes oc c o.rep p
        { o with
          vals := if x.isInt || x.window then [] else codes.map (elemVal c.fmt false none c.scale),
          ints := if x.isInt || x.window then codes.map (signed c.fmt.width) else [] }
    if x.window ∧ o.block = 0 then
      match s.readCeil own d t o.dT.key x.ceilA x.m with
      | (.error e, s) => (.error e, s)
      | (.ok ea, s) =>
        match s.readCeil own d t o.dT.key x.ceilB x.n with
        | (.error e, s) => (.error e, s)
        | (.ok eb, s) => (.ok { o with ceilA := ea, ceilB := eb }, s)
    else (.ok o, s)

/-- The ceilings an operation read for position (r, c) of a block, joined (R73). -/
def MxeOp.ceil (o : MxeOp) (x : MatmulFields) (p : BlockPos) (r c : Nat) : Int :=
  ceilC (o.ceilA.getD (64 * p.bi + r) 0) (o.ceilB.getD (64 * p.bj + c) 0) x.kTotal

/-- One K step of a block: the accumulators after it and the flags (R61 to R63, R67, R74, R86). -/
def blockStep (oc : Map Byte) (raw : List Byte) (x : MatmulFields) (o : MxeOp) (baseA baseB : Nat) : MxeOp × NumFlags :=
  let p := blockPos x o.block
  let f := x.fa.getD .fp32
  let kn := min 32 (x.k - 32 * o.kstep)
  let ftz := bit x.ctl 8
  if x.isInt then
    let as := (List.range p.rows).map (fun r => ((panelRow oc f baseA r).1.take kn))
    let bs := (List.range p.cols).map (fun c => ((panelRow oc f baseB c).1.take kn))
    ({ o with ints := (p.all.zip o.ints).map (fun q => intStep f q.2 (as.getD q.1.1 []) (bs.getD q.1.2 [])) }, {})
  else
    let as := (List.range p.rows).map (panelVals oc f ftz (fb raw 0x18 4) baseA kn)
    let bs := (List.range p.cols).map (panelVals oc f ftz (fb raw 0x1C 4) baseB kn)
    if x.window then
      let rs := (p.all.zip o.ints).map (fun q =>
        winStep x.winW (o.ceil x p q.1.1 q.1.2) x.kTotal q.2 (as.getD q.1.1 []) (bs.getD q.1.2 []))
      ({ o with ints := rs.map (·.1) }, NumFlags.all (rs.map (·.2)))
    else
      let rnd := rndOf (slice x.ctl 4 3)
      let rs := (p.all.zip o.vals).map (fun q => seqStep x.accFmt rnd (bit x.ctl 7) q.2 (as.getD q.1.1 []) (bs.getD q.1.2 []))
      ({ o with vals := rs.map (·.1) }, NumFlags.all (rs.map (·.2)))

/-- Codes and scale bytes of one row of a block as D stores it (R64, R67, R76). An accumulator that no K step rounded (C with a scale
and only zero products) may not fit acc_fmt; stored unchanged it is rounded to nearest even without saturation and sets no flag
(DESIGN CHOICE: notes/assumptions/93). -/
def drainRow (raw : List Byte) (x : MatmulFields) (o : MxeOp) (p : BlockPos) (seed r : Nat) : List Nat × List Nat × NumFlags :=
  let dT := o.dT
  let opts : CvtOpts := { mode := rndOf (slice x.ctl 6 5), sat := bit x.ctl 7, ftzOut := bit x.ctl 9 }
  let draws := rowDraws (decide (slice x.ctl 6 5 = 2)) seed (fb raw 0x60 4) o.rep (fb raw 0x58 4 + 64 * p.bi + r) (fb raw 0x5C 4 + 64 * p.bj) p.cols
  let rowInts := (o.ints.drop (r * p.cols)).take p.cols
  let rowVs := (o.vals.drop (r * p.cols)).take p.cols
  if x.isInt then
    let scale (v : Val) : Val := (Val.mul (Val.mul v (scaleVal (fb raw 0x18 4))).1 (scaleVal (fb raw 0x1C 4))).1
    encodeRow dT.fmt opts dT.scale (rowInts.map (fun i => (scale (Val.ofInt i), false))) draws
  else if x.window then
    if dT.fmt.isWa then (rowInts.map (unsigned dT.fmt.width), [], {})
    else
      encodeRow dT.fmt opts dT.scale ((rowInts.zip (List.range p.cols)).map (fun q =>
        winValue x.winW (o.ceil x p r q.2) q.1)) draws
  else if dT.fmt = x.accFmt ∧ dT.scale = 0x3F800000 then (rowVs.map (fun v => (convert dT.fmt {} 0 v).1), [], {})
  else encodeRow dT.fmt opts dT.scale (rowVs.map (fun v => (v, false))) draws

/-- Write a drained block into D (R88). -/
def drainBlock (oc : Map Byte) (raw : List Byte) (x : MatmulFields) (o : MxeOp) (seed : Nat) : Map Byte × NumFlags :=
  let p := blockPos x o.block
  (List.range p.rows).foldl (fun (a : Map Byte × NumFlags) r =>
    let (codes, scales, fl) := drainRow raw x o p seed r
    let i := 64 * p.bi + r
    let oc := (codes.zip (List.range codes.length)).foldl (fun oc q =>
      putBits oc (elemBit o.dT o.rep i (64 * p.bj + q.2)) o.dT.fmt.width q.1) a.1
    let oc := if o.dT.fmt.isMx then
        putCells oc ((o.dT.scaleAddr o.rep 0 i).toNat + 2 * p.bj) (scales.map (BitVec.ofNat 8))
      else oc
    (oc, a.2.join fl)) (oc, {})

/-- The entries of D's ceiling vector that a drained block emits (R70, R71, R88): those of its rows, its columns or its positions as the
reduced dimension is 0, 1 or higher, over the elements of D drained so far. -/
def blockCeil (oc : Map Byte) (x : MatmulFields) (o : MxeOp) : List (Nat × Int) :=
  let t := o.dT
  let p := blockPos x o.block
  let at_ (i j : Nat) : Val :=
    elemVal t.fmt false (if t.fmt.isMx then some (Map.get 0 oc ((t.scaleAddr o.rep 0 i).toNat + j / 32)).toNat else none) t.scale
      (getBits oc (elemBit t o.rep i j) t.fmt.width)
  let is := (List.range p.rows).map (fun r => 64 * p.bi + r)
  let js := (List.range p.cols).map (fun c => 64 * p.bj + c)
  match t.ceilDim with
  | 0 => is.map (fun i => (i, ceilOf ((List.range (64 * p.bj + p.cols)).map (at_ i))))
  | 1 => js.map (fun j => (j, ceilOf ((List.range (64 * p.bi + p.rows)).map (fun i => at_ i j))))
  | _ => (is.map (fun i => js.map (fun j => (j + t.dim 0 * i, ceilOf [at_ i j])))).flatten

/-- Write ceiling entries of D. -/
def putCeil (oc : Map Byte) (t : Tensor) (l : List (Nat × Int)) : Map Byte :=
  l.foldl (fun oc e => putCells oc (t.ceil + 2 * e.1) (leBytes 2 (unsigned 16 e.2))) oc

/-- Byte ranges that a drained block writes in full: the rows' elements, and the run of ceiling entries. -/
def drainRanges (x : MatmulFields) (o : MxeOp) (l : List (Nat × Int)) : List (Int × Int) :=
  let p := blockPos x o.block
  let w := o.dT.fmt.width
  (List.range p.rows).map (fun r =>
    let a := o.dT.rowAddr o.rep 0 (64 * p.bi + r) + ((64 * p.bj * w / 8 : Nat) : Int)
    (a, a + ((p.cols * w / 8 : Nat) : Int))) ++
  (match l.head?, l.getLast? with
   | some a, some b => if b.1 - a.1 + 1 = l.length then [(((o.dT.ceil + 2 * a.1 : Nat) : Int), ((o.dT.ceil + 2 * b.1 + 2 : Nat) : Int))] else []
   | _, _ => [])

/-- A tile is done with a descriptor: its in-flight count falls and the first status other than ok stays. -/
def State.tileDone (s : State) (d : Nat) (src : DescSrc) (status : Nat) : State :=
  s.modFlight d src (fun o => { o with busy := o.busy - 1, status := if o.status = 0 then status else o.status })

/-- The matrix engine takes its next K step (R86 to R88): panels present, no hazard in the way. -/
def State.kStep (s : State) (d t : Nat) : State :=
  let k := s.tile d t
  match k.mxe with
  | [] => s
  | o :: rest =>
    match (s.die d).inflight.find? (fun y => decide (y.src = o.src)) with
    | none => s
    | some y =>
      if k.ringA.filled ≤ k.ringA.released ∨ k.ringB.filled ≤ k.ringB.released ∨ s.blocked d y then s
      else
        let x := mmFields o.raw
        let f := x.fa.getD .fp32
        let place (r : Nat) (g : Ring) : Nat := ringBase r + g.released % max 1 (ringSlots r) * ringSlot f
        let baseA := place x.ringA k.ringA
        let baseB := place x.ringB k.ringB
        let size := 64 * (32 * f.width / 8) + (if f.isMx then 64 else 0)
        let own := ownerOf y
        let fail (s : State) (st : Nat) : State := (s.modTile d t (fun k => { k with mxe := rest })).tileDone d o.src st
        if badWord k.ocBad baseA size || badWord k.ocBad baseB size then fail s 0x0A
        else
          match (if o.kstep = 0 then s.blockStart own d t o x else (.ok o, s)) with
          | (.error e, s) => fail s e
          | (.ok o, s) =>
            let (o, fl) := blockStep (s.tile d t).oc o.raw x o baseA baseB
            let o := { o with kstep := o.kstep + 1 }
            let s := s.modTile d t (fun k => { k with
              ringA := { k.ringA with released := k.ringA.released + 1 }, ringB := { k.ringB with released := k.ringB.released + 1 } })
            let s := s.descFlags o.src fl
            if o.kstep < cdiv x.k 32 then s.modTile d t (fun k => { k with mxe := o :: rest })
            else
              let (oc, fl) := drainBlock (s.tile d t).oc o.raw x o (s.die d).seed.toNat
              let s := s.descFlags o.src fl
              let next : MxeOp := { o with block := o.block + 1, kstep := 0, vals := [], ints := [] }
              let entries := if o.dT.ceilEmit then blockCeil oc x o else []
              let last := decide (cdiv x.m 64 * cdiv x.n 64 ≤ next.block)
              let s := s.modTile d t (fun k => { k with
                oc := putCeil oc o.dT entries, ocBad := healRanges k.ocBad (drainRanges x o entries),
                mxe := if last then rest else next :: rest })
              if last then s.tileDone d o.src 0 else s

end Sys2Proof.Machine
end

