-- ==== Sys2Proof/Machine/CollPlan.lean ====
section
/-! DEFINITION. The exchange patterns of collective steps (R288, R292, R297, R298, Table 13-4): for each step the transfers of its members, round by
round. A participant is a member, or for a sum a leaf (member r holds leaves r × T to r × T + T − 1). All members derive the same list, but
for the direct exchanges of ops 5 to 7, where each lists its own. -/
namespace Sys2Proof.Machine

/-! ## Rings and trees -/

/-- A transfer of elements [lo, hi) to the same place. -/
def xfer (round src dst lo hi : Nat) (add : Bool) : Xfer := ⟨round, src, dst, lo, lo, hi - lo, add, false⟩

/-- Where part i of e elements in k parts begins (DESIGN CHOICE: the spec does not say how a number that k does not divide is cut). -/
def cutAt (e k i : Nat) : Nat := e * i / max 1 k

/-- A ring pass among the participants hs over [a, b) in one part each: in round t, hs[i] sends part (i + shift − t) to hs[i+1]. -/
def ringPass (hs : List Nat) (a b round shift : Nat) (add : Bool) : List Xfer :=
  let n := hs.length
  ((List.range (n - 1)).map (fun t => (List.range n).map (fun i =>
    let c := (i + shift + n - t) % n
    xfer (round + t) (hs.getD i 0) (hs.getD ((i + 1) % n) 0) (a + cutAt (b - a) n c) (a + cutAt (b - a) n (c + 1)) add))).flatten

/-- algo 0: the ring 0 → 1 → … → n − 1 → 0. -/
def ringPlan (x : CollFields) (e : Nat) : List Xfer :=
  let ranks := List.range x.n
  match x.op with
  | 0 => ringPass ranks 0 e 0 0 true ++ ringPass ranks 0 e (x.n - 1) 1 false
  | 1 => ringPass ranks 0 e 0 (2 * x.n - 1 - x.root % x.n) true
  | 2 => ringPass ranks 0 e 0 0 false
  | _ => (List.range (x.n - 1)).map (fun t => xfer t ((x.root + t) % x.n) ((x.root + t + 1) % x.n) 0 e false)

/-- Exponent of the lowest set bit of a position. -/
def lowSet (x : Nat) : Nat := ((List.range 32).find? (bit x)).getD 0

/-- Parent of a position of a tree on n positions, with fuel: a parent above n is replaced by its own parent. -/
def treeParent (n : Nat) : Nat → Nat → Nat
  | 0, _ => 2 ^ Nat.log2 n
  | f + 1, x =>
    let k := lowSet x
    let p := if bit x (k + 1) then x - 2 ^ k else x + 2 ^ k
    if p ≤ n then p else treeParent n f p

/-- Edges of tree A, or of tree B, as (child, parent) ranks: rank r has position r + 1, or ((r + 1) mod n) + 1. -/
def treeEdges (n : Nat) (treeB : Bool) : List (Nat × Nat) :=
  let rank (x : Nat) : Nat := if treeB then (x + n - 2) % n else x - 1
  ((List.range n).map (· + 1)).filterMap (fun x =>
    if x = 2 ^ Nat.log2 n then none else some (rank x, rank (treeParent n 64 x)))

/-- Depth of a rank below the root of a tree, with fuel. -/
def treeDepth (edges : List (Nat × Nat)) : Nat → Nat → Nat
  | 0, _ => 0
  | f + 1, r => match edges.find? (fun e => decide (e.1 = r)) with | some e => treeDepth edges f e.2 + 1 | none => 0

/-- Reduce up a tree, then broadcast down it. -/
def treeBoth (n : Nat) (treeB : Bool) (lo hi : Nat) (add : Bool) : List Xfer :=
  let edges := treeEdges n treeB
  let depth (r : Nat) := treeDepth edges 32 r
  let top := edges.foldl (fun m e => max m (depth e.1)) 0
  edges.map (fun e => xfer (top - depth e.1) e.1 e.2 lo hi add) ++
    edges.map (fun e => xfer (top + depth e.1 - 1) e.2 e.1 lo hi false)

/-- Spread over a tree from the members that have the elements: every edge with one end reached carries them to the other, with fuel. -/
def treeFlood (edges : List (Nat × Nat)) (lo hi : Nat) : Nat → Nat → List Nat → List Xfer
  | 0, _, _ => []
  | f + 1, round, known =>
    let next := edges.filterMap (fun e =>
      if known.contains e.1 && !known.contains e.2 then some (e.1, e.2)
      else if known.contains e.2 && !known.contains e.1 then some (e.2, e.1) else none)
    next.map (fun e => xfer round e.1 e.2 lo hi false) ++ treeFlood edges lo hi f (round + 1) (known ++ next.map (·.2))

/-- algo 1: elements [0, ⌈E/2⌉) on tree A, the rest on tree B. -/
def treePlan (x : CollFields) (e : Nat) : List Xfer :=
  let h := (e + 1) / 2
  if x.op = 0 then treeBoth x.n false 0 h true ++ treeBoth x.n true h e true
  else
    treeFlood (treeEdges x.n false) 0 h 64 0 [x.root] ++
      treeFlood (treeEdges x.n true) h e 64 0 [x.root]

/-! ## The exchange of a sum (R298) -/

/-- The range that a leaf keeps after j halvings: at distance 2^i the leaf with bit i clear keeps the lower half (DESIGN CHOICE: R298 does not say which). -/
def leafRange (e r : Nat) (j : Nat) : Nat × Nat :=
  (List.range j).foldl (fun p i => let mid := (p.1 + p.2 + 1) / 2; if bit r i then (mid, p.2) else (p.1, mid)) (0, e)

/-- Leaf r's partner at distance 2^j. -/
def leafPeer (r j : Nat) : Nat := if bit r j then r - 2 ^ j else r + 2 ^ j

/-- Fold, halving exchanges by distance; then the blocks return by the same pairs (op 0), or go to their owners (op 1). -/
def sumPlan (x : CollFields) (e parts : Nat) : List Xfer :=
  let leaves := x.n * parts
  let lg := Nat.log2 leaves
  let p := 2 ^ lg
  let extra := List.range (leaves - p)
  let fold := extra.map (fun r => xfer 0 (r + p) r 0 e true)
  let halve := ((List.range lg).map (fun j => (List.range p).map (fun r =>
    let have_ := leafRange e r j
    let keep := leafRange e r (j + 1)
    if bit r j then xfer (1 + j) r (leafPeer r j) have_.1 keep.1 true else xfer (1 + j) r (leafPeer r j) keep.2 have_.2 true))).flatten
  let back :=
    if x.op = 0 then
      ((List.range lg).map (fun i => (List.range p).map (fun r =>
        let j := lg - 1 - i
        let have_ := leafRange e r (j + 1)
        xfer (1 + lg + i) r (leafPeer r j) have_.1 have_.2 false))).flatten ++
      extra.map (fun r => xfer (1 + 2 * lg) r (r + p) 0 e false)
    else
      let q := e / max 1 x.n
      ((List.range p).map (fun r => (List.range x.n).map (fun m =>
        let b := (m + x.n - x.root % x.n) % x.n
        let have_ := leafRange e r lg
        xfer (1 + lg) r (m * parts) (max have_.1 (b * q)) (min have_.2 ((b + 1) * q)) false))).flatten
  fold ++ halve ++ back

/-! ## The levels of the other ops (R298) -/

/-- Groups of ranks by a key, in rank order. -/
def groupsBy (key : Nat → Nat) (ranks : List Nat) : List (List Nat) :=
  ((ranks.map key).eraseDups).map (fun k => ranks.filter (fun r => decide (key r = k)))

/-- Who holds which elements: (member, lo, hi), rising and without gaps. -/
abbrev Held := List (Nat × Nat × Nat)

/-- The intervals on which several such lists agree, each with the holders in order. -/
def commonCuts (l : List Held) (e : Nat) : List (Nat × Nat × List Nat) :=
  let cuts := (((l.flatten.map (·.2.1)).foldl (fun m c => Map.ins m c ()) ([] : Map Unit))).map (·.1)
  ((cuts.zip (cuts.drop 1 ++ [e])).filter (fun c => decide (c.1 < c.2))).map (fun c =>
    (c.1, c.2, l.filterMap (fun h => (h.find? (fun p => decide (p.2.1 ≤ c.1) && decide (c.1 < p.2.2))).map (·.1))))

/-- Reduce-scatter among the holders of every interval: each keeps one part. -/
def levelDown (round : Nat) (l : List Held) (e : Nat) : List Xfer × Held :=
  let parts := (commonCuts l e).map (fun c => (List.range c.2.2.length).map (fun j =>
    (c.2.2, j, c.1 + cutAt (c.2.1 - c.1) c.2.2.length j, c.1 + cutAt (c.2.1 - c.1) c.2.2.length (j + 1))))
  (((parts.flatten).map (fun p => (p.1.eraseIdx p.2.1).map (fun h => xfer round h (p.1.getD p.2.1 0) p.2.2.1 p.2.2.2 true))).flatten,
   (parts.flatten).map (fun p => (p.1.getD p.2.1 0, p.2.2.1, p.2.2.2)))

/-- The same transfers back: an all-gather. -/
def levelUp (round : Nat) (l : List Xfer) : List Xfer := l.map (fun t => xfer round t.dst t.src t.lo (t.lo + t.n) false)

/-- algo 2 for max, min and window sums: reduce-scatter within a die and within a module, ring all-reduce among modules, all-gather downward. -/
def levelPlan (x : CollFields) (entries : List Nat) (e : Nat) : List Xfer :=
  let key (r : Nat) := entries.getD r 0
  let dies := groupsBy (fun r => key r % 2 ^ 18) (List.range x.n)
  let d := dies.map (fun g => levelDown 0 (g.map (fun m => [(m, 0, e)])) e)
  let nodes := groupsBy (fun i => rankNode (key ((dies.getD i []).headD 0))) (List.range dies.length)
  let m := nodes.map (fun g => levelDown 1 (g.map (fun i => (d.getD i ([], [])).2)) e)
  let ring := ((commonCuts (m.map (·.2)) e).map (fun c =>
    ringPass c.2.2 c.1 c.2.1 2 0 true ++ ringPass c.2.2 c.1 c.2.1 (1 + c.2.2.length) 1 false)).flatten
  let last := 2 * nodes.length
  let tm := (m.map (·.1)).flatten
  let td := (d.map (·.1)).flatten
  td ++ tm ++ ring ++ levelUp last tm ++ levelUp (last + 1) td

/-- algo 2 without a reduction (ops 2 and 3): there is nothing to reduce, so blocks gather at the first member of each die, then of each module, pass
the ring of modules, and spread downward (DESIGN CHOICE: R298 gives the levels, not who stands for a level). -/
def gatherPlan (x : CollFields) (entries : List Nat) (e : Nat) : List Xfer :=
  let key (r : Nat) := entries.getD r 0
  let q := e / max 1 x.n
  let block (r : Nat) : Nat × Nat := if x.op = 2 then (r * q, (r + 1) * q) else (0, if r = x.root then e else 0)
  let send (round src dst : Nat) (rs : List Nat) : List Xfer :=
    if src = dst then [] else rs.map (fun r => xfer round src dst (block r).1 (block r).2 false)
  let dies := groupsBy (fun r => key r % 2 ^ 18) (List.range x.n)
  let nodes := groupsBy (fun r => rankNode (key r)) (List.range x.n)
  let dieHead (r : Nat) : Nat := ((dies.find? (fun g => g.contains r)).getD []).headD r
  let head (g : List Nat) : Nat := g.headD 0
  let up := (List.range x.n).map (fun r => send 0 r (dieHead r) [r])
  let toNode := dies.map (fun g => send 1 (head g) (head ((nodes.find? (fun k => k.contains (head g))).getD [])) g)
  let k := nodes.length
  let ring := (List.range (k - 1)).map (fun t => ((List.range k).map (fun i =>
    send (2 + t) (head (nodes.getD i [])) (head (nodes.getD ((i + 1) % k) [])) (nodes.getD ((i + k - t) % k) []))).flatten)
  let all := List.range x.n
  let toDie := dies.map (fun g =>
    let n := (nodes.find? (fun k => k.contains (head g))).getD []
    send (2 + k) (head n) (head g) (all.filter (fun r => !g.contains r)))
  let toMember := (List.range x.n).map (fun r => send (3 + k) (dieHead r) r (all.filter (fun o => decide (o ≠ r))))
  (up ++ toNode ++ ring ++ toDie ++ toMember).flatten

/-! ## Direct exchanges, barrier, ceiling vectors -/

/-- Ops 5 to 7: rank r's own transfers, with the offsets of its blocks in input and output. -/
def directPlan (x : CollFields) (sizes : List Nat) (recvs : List Nat) : List Xfer :=
  let at_ (l : List Nat) (p : Nat) : Nat := (l.take p).sum
  ((List.range x.n).filter (fun p => decide (p ≠ x.rank))).map (fun p =>
    ⟨0, x.rank, p, at_ sizes p, 0, sizes.getD p 0, false, false⟩) ++
  ((List.range x.n).filter (fun p => decide (p ≠ x.rank))).map (fun p =>
    ⟨0, p, x.rank, 0, at_ recvs p, recvs.getD p 0, false, false⟩)

/-- Ceiling vectors pass the ring of ranks whole (DESIGN CHOICE: Table 13-4 gives the data only); lo names the vector's rank. -/
def ceilPlan (n parts : Nat) : List Xfer :=
  ((List.range (n - 1)).map (fun t => (List.range n).map (fun r =>
    ⟨t, r * parts, (r + 1) % n * parts, (r + n - t) % n, 0, 1, false, true⟩))).flatten

/-- The transfers of a step over e elements; sizes and recvs are the member's own blocks of a direct exchange. Empty transfers are left out. -/
def collPlan (x : CollFields) (entries : List Nat) (e parts : Nat) (sizes recvs : List Nat) : List Xfer :=
  let data :=
    match x.op with
    | 4 => treeBoth x.n false 0 1 false
    | 5 => directPlan x sizes recvs
    | 6 => directPlan x sizes recvs
    | 7 => directPlan x sizes recvs
    | op =>
      if x.algo = 0 then ringPlan x e
      else if x.algo = 1 then treePlan x e
      else if x.red = 1 then sumPlan x e parts
      else if op = 0 ∨ op = 1 then levelPlan x entries e
      else gatherPlan x entries e
  let ceil := if bit x.fl 2 then ceilPlan x.n (if x.red = 1 then parts else 1) else []
  (data ++ ceil).filter (fun t => decide (0 < t.n) && decide (t.src ≠ t.dst))

end Sys2Proof.Machine
end

