-- ==== Sys2Proof/Machine/Coll.lean ====
section
/-! DEFINITION. Collective steps as the engines perform them (13_collectives): rank tables, check values, credits, the transfers of a step round by
round, aborts (R307), the elements a step writes (Table 13-2, R293 to R296). Members on this module exchange at once, those on other modules by
packets under credit. -/
namespace Sys2Proof.Machine

/-! ## Tables and checks -/

/-- Access of a collective engine (R300). -/
def ceAcc (own : Holder) (d e : Nat) (x : Tensor) : Acc := ⟨unitAgent d (128 + e), 1, own, x.key, x.streaming⟩

/-- Entries of a rank table from its bytes. -/
def rankEntries (n : Nat) (l : List Byte) : List Nat := (List.range n).map (fun r => fieldAt l (4 * r) 4)

/-- Read the rank table of a COLL (R287): from the job's image, or from the queue's ring area. -/
def State.rankTable (s : State) (d : Nat) (src : DescSrc) (x : CollFields) : Except Nat (List Nat) × State :=
  match src with
  | .stream _ _ => (.ok (rankEntries x.n ((s.lantern.job.map (fun j => bytesAt j.image x.comm (4 * x.n))).getD [])), s)
  | .queue q _ =>
    let w := s.wq d q
    match s.readMem (wqAcc d w) (w.base.toNat + x.comm) (4 * x.n) with
    | (.ok l, s) => (.ok (rankEntries x.n l), s)
    | (.error e, s) => (.error (memStatus e.1), s)

/-- Does a table break R287: own entry wrong, or two members on one engine? -/
def State.badTable (s : State) (d e : Nat) (x : CollFields) (ranks : List Nat) : Bool :=
  let own := ranks.getD x.rank 0
  decide (rankNode own ≠ s.fabric.node.toNat) || decide (rankDie own ≠ d) || decide (rankCe own ≠ e) ||
    !decide ((ranks.map (fun r => r % 2 ^ 20)).Nodup)

/-! ## Elements -/

/-- Bits of an element on the wire: an MX element travels with its block's scale byte above it (DESIGN CHOICE: Table 13-6 has no message for scales). -/
def wireWidth (x : CollFields) : Nat :=
  if x.op = 4 then 8 else match x.fmt with | some f => if f.isMx then f.width + 8 else f.width | none => 32

/-- Codes of a tensor's rows in logical order, an MX code with its scale byte above it. -/
def codesOfRows (t : Tensor) (rows : List RowBytes) : List Nat :=
  (rows.map (fun r =>
    let c := unpackRow t.fmt.width (t.dim 0) r.1
    if t.fmt.isMx then (List.range (t.dim 0)).map (fun i => c.getD i 0 + 2 ^ t.fmt.width * (r.2.getD (i / 32) 0).toNat) else c)).flatten

/-- Scale bytes of codes that carry them. -/
def scalesOf (w : Nat) (c : List Nat) : List Byte :=
  (List.range (cdiv c.length 32)).map (fun i => BitVec.ofNat 8 (c.getD (32 * i) 0 / 2 ^ w))

/-- Rows of a tensor from codes. -/
def rowsOfCodes (t : Tensor) (codes : List Nat) : List RowBytes :=
  (List.range t.rows).map (fun r =>
    let c := (codes.drop (r * t.dim 0)).take (t.dim 0)
    (packRow t.fmt.width t.rowBytes c, if t.fmt.isMx then scalesOf t.fmt.width c else []))

/-- The combining function of a step on two elements (R293). -/
def combine (x : CollFields) (a b : Nat) : Nat × NumFlags := reduceLeaves (x.fmt.getD .fp32) x.red [a, b]

/-- Combine elements pairwise. -/
def combineAll (x : CollFields) (a b : List Nat) : List Nat × NumFlags :=
  let r := (a.zip b).map (fun p => combine x p.1 p.2)
  (r.map (·.1), NumFlags.all (r.map (·.2)))

/-! ## A step's transfers -/

/-- Participants of one member: its parts in a sum, else one. -/
def CollStep.per (st : CollStep) : Nat := if (collFields st.raw).red = 1 then max 1 st.parts else 1

/-- The member a participant belongs to. -/
def CollStep.member (st : CollStep) (q : Nat) : Nat := q / st.per

/-- Is a participant this member's? -/
def CollStep.mine (st : CollStep) (q : Nat) : Bool := decide (st.member q = (collFields st.raw).rank)

/-- Bytes of a transfer on the wire. -/
def CollStep.bytesOf (st : CollStep) (t : Xfer) : Nat := if t.ceil then st.ceilLen else cdiv (t.n * wireWidth (collFields st.raw)) 8

/-- Rounds of a step. -/
def CollStep.rounds (st : CollStep) : Nat := st.plan.foldl (fun m t => max m (t.round + 1)) 0

/-- What the member receives from a peer, in order. -/
def CollStep.incoming (st : CollStep) (p : Nat) (ceil : Bool) : List Xfer :=
  st.plan.filter (fun t => decide (st.member t.src = p) && st.mine t.dst && !st.mine t.src && decide (t.ceil = ceil))

/-- Bytes that a peer is to send in the rounds before a round. -/
def CollStep.dueBefore (st : CollStep) (p round : Nat) (ceil : Bool) : Nat :=
  (((st.incoming p ceil).filter (fun t => decide (t.round < round))).map st.bytesOf).sum

/-- Peers that have something to send in a round. -/
def CollStep.awaited (st : CollStep) : List Nat :=
  ((st.plan.filter (fun t => decide (t.round = st.round) && st.mine t.dst && !st.mine t.src)).map (fun t => st.member t.src)).eraseDups

/-- Is everything of the current round here? -/
def CollStep.roundReady (st : CollStep) : Bool :=
  st.awaited.all (fun p => decide (st.dueBefore p (st.round + 1) false ≤ (Map.get [] st.got p).length) &&
    decide (st.dueBefore p (st.round + 1) true ≤ (Map.get [] st.gotCeil p).length))

/-- Ops 5 to 7 read what they send from their input, not from what they gather. -/
def CollStep.direct (st : CollStep) : Bool := decide (5 ≤ (collFields st.raw).op)

/-- The elements a transfer takes from this member. -/
def CollStep.taken (st : CollStep) (t : Xfer) : List Nat :=
  ((if st.direct then st.input else Map.get [] st.work t.src).drop t.lo).take t.n

/-- Queue what the current round sends to other members. -/
def CollStep.enter (st : CollStep) : CollStep :=
  (st.plan.filter (fun t => decide (t.round = st.round) && st.mine t.src && !st.mine t.dst)).foldl (fun st t =>
    let p := st.member t.dst
    if t.ceil then { st with outCeil := Map.modify [] st.outCeil p (· ++ Map.get [] st.ceils t.lo) }
    else { st with out := Map.modify [] st.out p (· ++ packRow (wireWidth (collFields st.raw)) (st.bytesOf t) (st.taken t)) }) st

/-- Put a transfer's elements into a participant's vector: combined or copied. -/
def CollStep.land (st : CollStep) (t : Xfer) (codes : List Nat) : CollStep :=
  let v := Map.get [] st.work t.dst
  let r := if t.add then combineAll (collFields st.raw) ((v.drop t.pos).take t.n) codes else (codes, {})
  { st with work := Map.put [] st.work t.dst (v.take t.pos ++ r.1 ++ v.drop (t.pos + t.n)), flags := st.flags.join r.2 }

/-- Take one transfer of the current round that this member receives; pos is how far its stream from each peer is read. -/
def CollStep.takeOne (a : CollStep × Map Nat × Map Nat) (t : Xfer) : CollStep × Map Nat × Map Nat :=
  let (st, pos, posC) := a
  let p := st.member t.src
  let n := st.bytesOf t
  if st.mine t.src then (st.land t (st.taken t), pos, posC)
  else if t.ceil then
    ({ st with ceils := Map.put [] st.ceils t.lo (((Map.get [] st.gotCeil p).drop (Map.get 0 posC p)).take n) }, pos, Map.modify 0 posC p (· + n))
  else
    let b := ((Map.get [] st.got p).drop (Map.get 0 pos p)).take n
    (st.land t (unpackRow (wireWidth (collFields st.raw)) t.n b), Map.modify 0 pos p (· + n), posC)

/-- End the current round: what it received takes effect, the next one begins. -/
def CollStep.endRound (st : CollStep) : CollStep :=
  let l := st.plan.filter (fun t => decide (t.round = st.round) && st.mine t.dst)
  let start (ceil : Bool) : Map Nat := st.awaited.map (fun p => (p, st.dueBefore p st.round ceil))
  let r := l.foldl CollStep.takeOne (st, start false, start true)
  { r.1 with round := st.round + 1 }.enter

/-- Go through the rounds that are ready, with fuel. -/
def CollStep.run : Nat → CollStep → CollStep
  | 0, st => st
  | f + 1, st => if decide (st.round < st.rounds) && st.roundReady then CollStep.run f st.endRound else st

/-- Elements of a step's space: those that its transfers number. -/
def CollStep.space (st : CollStep) : Nat :=
  let e := match st.b with | some t => t.count | none => 1
  if (collFields st.raw).op = 1 then (collFields st.raw).n * e else e

/-- T of R288. -/
def partsOf (x : CollFields) (a b : Option Tensor) : Nat :=
  match x.op, a, b with | 0, some a, some b => x.parts a b | 1, some a, some b => x.parts a b | _, _, _ => 1

/-- A step with its transfers, for the block sizes of a direct exchange. -/
def CollStep.planned (st : CollStep) (sizes recvs : List Nat) : CollStep :=
  { st with plan := collPlan (collFields st.raw) st.ranks st.space st.parts sizes recvs }

/-- Begin a step: its own elements stand where they belong, and the first round is queued. -/
def CollStep.begin (st : CollStep) (input : List Nat) (ceil : List Byte) (sizes recvs : List Nat) : CollStep :=
  let x := collFields st.raw
  let e := st.space
  let at_ (l : List Nat) (p : Nat) : Nat := (l.take p).sum
  let zero := List.replicate e 0
  let part (j : Nat) : List Nat := (input.drop (j * e)).take e
  let st := { st with started := true, input := input, ceils := if ceil.isEmpty then [] else Map.put [] st.ceils x.rank ceil }
  let own (l : List Nat) (at0 : Nat) : List Nat := (zero.take at0 ++ l ++ zero.drop (at0 + l.length)).take e
  let st :=
    match x.op with
    | 0 | 1 =>
      if x.red = 1 then { st with work := (List.range st.parts).map (fun j => (x.rank * st.parts + j, part j)) }
      else
        let r := (List.range (st.parts - 1)).foldl (fun (a : List Nat × NumFlags) j =>
          let c := combineAll x a.1 (part (j + 1)); (c.1, a.2.join c.2)) (part 0, ({} : NumFlags))
        { st with work := [(x.rank, r.1)], flags := r.2 }
    | 2 => { st with work := [(x.rank, own input (x.rank * input.length))] }
    | 3 => { st with work := [(x.rank, if x.rank = x.root then input else zero)] }
    | 4 => { st with work := [(x.rank, [0])] }
    | _ => { st with work := [(x.rank, own ((input.drop (at_ sizes x.rank)).take (sizes.getD x.rank 0)) (at_ recvs x.rank))], total := recvs.sum }
  st.enter

/-- The dst elements of a step that is through (Table 13-2). -/
def CollStep.result (st : CollStep) : List Nat :=
  let x := collFields st.raw
  let v := Map.get [] st.work (x.rank * st.per)
  match x.op with
  | 1 => let e := st.space / max 1 x.n; (v.drop ((x.rank + x.n - x.root % x.n) % x.n * e)).take e
  | 6 => v.take st.total
  | _ => v

/-- Peers of a step on other modules, in rank order. -/
def State.remotePeers (s : State) (st : CollStep) : List Nat :=
  (List.range st.ranks.length).filter (fun p => decide (p ≠ (collFields st.raw).rank) && !s.isLocal (st.ranks.getD p 0))

/-- Peers of a step on this module. -/
def State.localPeers (s : State) (st : CollStep) : List Nat :=
  (List.range st.ranks.length).filter (fun p => decide (p ≠ (collFields st.raw).rank) && s.isLocal (st.ranks.getD p 0))

/-- Has no packet of the step gone to a peer? The first one carries the check value (R290). -/
def CollStep.fresh (st : CollStep) (p : Nat) : Bool := !st.greeted.contains p

/-! ## Changing a step -/

/-- A packet of a step to a rank with the step's tag for it. -/
def CollStep.tagged (st : CollStep) (p : Nat) (k : Packet) : Packet := { k with tag := BitVec.ofNat 16 (Map.get 0 st.tags p) }

/-- Change the step of a collective on an engine. -/
def State.modStep (s : State) (d e coll step : Nat) (f : CollStep → CollStep) : State :=
  s.modCe d e (fun c => { c with steps := c.steps.map (fun st =>
    if (collFields st.raw).collId = coll ∧ (collFields st.raw).step = step then f st else st) })

/-- The step a packet names, if it is issued. -/
def Ce.step (c : Ce) (coll step : Nat) : Option CollStep :=
  c.steps.find? (fun st => decide ((collFields st.raw).collId = coll) && decide ((collFields st.raw).step = step))

/-- The holder of a step's accesses. -/
def State.stepOwner (s : State) (d : Nat) (st : CollStep) : Holder :=
  match (s.die d).inflight.find? (fun o => decide (o.src = st.src)) with
  | some o => ownerOf o
  | none => if st.src.isStream then .job else .os

/-! ## Endings -/

/-- Take a step off its engine. -/
def State.dropStep (s : State) (d e : Nat) (st : CollStep) : State :=
  s.modCe d e (fun c => { c with steps := c.steps.filter (fun o => decide (o.src ≠ st.src)), waitRank := none, probing := none })

/-- Record an abort of a collective on an engine (R307): CE_ABORT, the sixteen latest coll_ids, the count, event 0x0003. -/
def State.recordAbort (s : State) (d e coll step : Nat) (mismatch : Bool) (failed : Nat) : State :=
  let s := s.modCe d e (fun c => { c with
    cntAborts := BitVec.ofNat 16 (satAdd 16 c.cntAborts.toNat 1), abortColl := BitVec.ofNat 32 coll, abortStep := BitVec.ofNat 16 step,
    abortCause := mismatch, abortRank := BitVec.ofNat 32 failed, aborted := (coll :: c.aborted).take 16 })
  s.dieEvent d e 0x0003 (leBytes 4 coll ++ leBytes 2 step ++ leBytes 4 failed)

/-- An engine hears that a collective is aborted: its issued steps of it end with 0x000E; duplicates are ignored (R307). -/
def State.abortHeard (s : State) (d e coll failed step : Nat) : State :=
  if (s.ce d e).aborted.contains coll then s
  else
    let mine := (s.ce d e).steps.filter (fun st => decide ((collFields st.raw).collId = coll))
    let at_ := match mine with | st :: _ => (collFields st.raw).step | [] => step
    let s := s.recordAbort d e coll at_ false failed
    let s := mine.foldl (fun s st => s.dropStep d e st) s
    mine.foldl (fun s st => s.finish d st.src st.raw 0x0E) s

/-- A step that cannot go on ends with its own status. -/
def State.stepFails (s : State) (d e : Nat) (st : CollStep) (status : Nat) : State := (s.finish d st.src st.raw status).dropStep d e st

/-- An engine aborts a collective (R307): its step ends with the given status, every rank hears of it. -/
def State.collAbort (s : State) (d e : Nat) (st : CollStep) (status : Nat) (mismatch : Bool) (failed : Nat) : State :=
  let x := collFields st.raw
  let far := s.abortPackets d st failed
  let near := (s.localPeers st).map (fun p => st.ranks.getD p 0)
  let later := (s.ce d e).steps.filter (fun o => decide (o.src ≠ st.src) && decide ((collFields o.raw).collId = x.collId))
  let s := s.recordAbort d e x.collId x.step mismatch failed
  let s := s.sendAll d far
  let s := (st :: later).foldl (fun s o => s.dropStep d e o) s
  let s := s.finish d st.src st.raw status
  let s := later.foldl (fun s o => s.finish d o.src o.raw 0x0E) s
  near.foldl (fun s q => s.abortHeard (rankDie q) (rankCe q) x.collId failed x.step) s

/-! ## Packets (Table 13-6) -/

/-- Fields of a collective packet (Table 13-6). -/
def collOf (k : Packet) : Nat := fb k.arg 0 4

/-- Step index of a collective packet. -/
def stepOf (k : Packet) : Nat := fb k.arg 4 2

/-- Kind of a collective packet. -/
def kindOf (k : Packet) : Nat := fb k.arg 6 1

/-- Sender's rank, or the failed rank of an abort. -/
def rankOf (k : Packet) : Nat := fb k.arg 8 4

/-- The check value of the first packet of a peer (R290): true when it has been seen or is the step's own. -/
def CollStep.checks (st : CollStep) (k : Packet) : Bool :=
  st.checked.contains (rankOf k) || (decide (4 ≤ k.len.toNat) && decide (fb k.data 0 4 = checkValue st.raw st.ranks))

/-! ## Beginning a step (R287, R291, R292) -/

/-- Byte ranges of a tensor's rows, and of its scale array, in memory. -/
def tensorRanges (t : Tensor) (rep : Nat) : List (Nat × Nat) :=
  (List.range t.rows).map (fun r => (physOf (t.rowAddr rep 0 r), t.rowBytes)) ++
    (if t.fmt.isMx then (List.range t.rows).map (fun r => (physOf (t.scaleAddr rep 0 r), t.dim 0 / 32)) else [])

/-- The codes of a tensor from the bytes of its ranges. -/
def codesOfBytes (t : Tensor) (l : List Byte) : List Nat :=
  codesOfRows t (rowsOfStream t l (if t.fmt.isMx then (List.range t.rows).map (fun r => bytesAt l (t.packed + r * (t.dim 0 / 32)) (t.dim 0 / 32)) else []))

/-- The counts tensors that an op 6 step reads (R292): of the latest op 7 step of its collective. -/
def State.countTensors (s : State) (d e : Nat) (x : CollFields) : Option (List Tensor) :=
  if x.op ≠ 6 then some []
  else
    match (s.ce d e).counts.find? (fun c => decide (c.1 = x.collId)) with
    | none => none
    | some (_, i, j) =>
      match Map.get none (s.die d).tensors i, Map.get none (s.die d).tensors j with
      | some a, some b => some [a, b]
      | _, _ => none

/-- What a step reads before it begins, tensor by tensor: its src, src's ceiling vector when vectors merge (R296), the counts. -/
def State.stepReads (s : State) (d e : Nat) (st : CollStep) : List (Tensor × List (Nat × Nat)) :=
  let x := collFields st.raw
  (match st.a with
    | some a => [(a, tensorRanges a st.rep)] ++ (if bit x.fl 2 then [(a, [(a.ceil, 2 * a.ceilCount)])] else [])
    | none => []) ++
  ((s.countTensors d e x).getD []).map (fun t => (t, tensorRanges t st.rep))

/-- Read ranges of memory in order. -/
def readRanges (acc : Acc) : List (Nat × Nat) → State → Except Nat (List Byte) × State
  | [], s => (.ok [], s)
  | (a, n) :: r, s =>
    match s.readMem acc a n with
    | (.error e, s) => (.error (memStatus e.1), s)
    | (.ok l, s) =>
      match readRanges acc r s with
      | (.ok k, s) => (.ok (l ++ k), s)
      | (.error e, s) => (.error e, s)

/-- Read what a step reads: from memory, or for a remote tensor from the answers that stand in order in rest. -/
def readParts (own : Holder) (d e : Nat) : List (Tensor × List (Nat × Nat)) → List Byte → State → Except Nat (List (List Byte)) × State
  | [], _, s => (.ok [], s)
  | (t, l) :: r, rest, s =>
    let n := (l.map (·.2)).sum
    match (if t.remote then (.ok (rest.take n), s) else readRanges (ceAcc own d e t) l s) with
    | (.error y, s) => (.error y, s)
    | (.ok b, s) =>
      match readParts own d e r (if t.remote then rest.drop n else rest) s with
      | (.ok k, s) => (.ok (b :: k), s)
      | (.error y, s) => (.error y, s)

/-- Send the reads of a step's remote tensors; false when one has no route. -/
def fetchParts (d e : Nat) (src : DescSrc) : List (Tensor × List (Nat × Nat)) → Nat → State → Bool × State
  | [], _, s => (true, s)
  | (t, l) :: r, off, s =>
    if t.remote then
      let (ok, s) := sendReads d (128 + e) src (t.base / 2 ^ 48) t.key (splitAll l) off s
      if ok then fetchParts d e src r (off + (l.map (·.2)).sum) s else (false, s)
    else fetchParts d e src r off s

/-- The answers to a step's remote reads, in order. -/
def fetched (l : List RemoteReq) (src : DescSrc) (tile : Nat) : List Byte :=
  (l.filter (fun q => decide (q.src = src) && decide (q.tile = tile) && decide (q.op = 1))).foldl (fun acc q => acc ++ bytesAt q.data 0 q.len) []

/-- Element width of a step in bits. -/
def CollFields.width (x : CollFields) : Nat := (x.fmt.getD .fp32).width

/-- Do the counts of an op 6 step pass R292? -/
def countsOk (x : CollFields) (st : CollStep) (cs cr : List Int) : Bool :=
  let sum (l : List Int) : Int := l.foldl (· + ·) 0
  cs.all (fun c => decide (0 ≤ c)) && cr.all (fun c => decide (0 ≤ c)) &&
    decide (sum cs * x.width ≤ 8 * ((st.a.map Tensor.packed).getD 0 : Nat)) && decide (sum cr * x.width ≤ 8 * (x.bytes : Nat))

/-- INT32 values of codes. -/
def countsOf (t : Option Tensor) (l : List Byte) : List Int := match t with | some t => (codesOfBytes t l).map (signed 32) | none => []

/-- Begin a step with what it has read: the counts of op 6 are checked, op 7 is recorded (R292). -/
def State.stepBegins (s : State) (d e : Nat) (st : CollStep) (parts : List (List Byte)) : State :=
  let x := collFields st.raw
  let merge := bit x.fl 2
  let input := match st.a with | some a => codesOfBytes a (parts.headD []) | none => []
  let ceil := if merge then parts.getD 1 [] else []
  let counts := (s.countTensors d e x).getD []
  let at_ := parts.length - counts.length
  let cs := countsOf counts[0]? (parts.getD at_ [])
  let cr := countsOf counts[1]? (parts.getD (at_ + 1) [])
  if x.op = 6 ∧ !countsOk x st cs cr then s.collAbort d e st 4 true 0xFFFFFFFF
  else
    let q := input.length / max 1 x.n
    let sizes := if x.op = 6 then cs.map Int.toNat else List.replicate x.n q
    let recvs := if x.op = 6 then cr.map Int.toNat else List.replicate x.n q
    let st' := if x.op = 6 then st.planned sizes recvs else st
    let s := s.modStep d e x.collId x.step (fun o => { o with plan := st'.plan }.begin input ceil sizes recvs)
    if x.op = 7 then
      s.modCe d e (fun c => { c with counts := (x.collId, x.src, x.dst) :: c.counts.filter (fun k => decide (k.1 ≠ x.collId)) })
    else s

/-- The head step of an engine begins when its rank table holds (R287) and what it reads is there; a remote src is fetched first. -/
def State.stepStart (s : State) (d e : Nat) (st : CollStep) : State :=
  let x := collFields st.raw
  let reads := s.stepReads d e st
  if s.badTable d e x st.ranks || (s.countTensors d e x).isNone then s.collAbort d e st 4 true 0xFFFFFFFF
  else if reads.any (fun p => p.1.remote) && !st.fetching then
    let (ok, s) := fetchParts d e st.src reads 0 s
    if ok then s.modStep d e x.collId x.step (fun o => { o with fetching := true }) else s.stepFails d e st 9
  else if st.fetching && (s.die d).remote.any (fun q => decide (q.src = st.src) && decide (q.op = 1) && !q.done) then s
  else
    match readParts (s.stepOwner d st) d e reads (fetched (s.die d).remote st.src (128 + e)) s with
    | (.error y, s) => s.stepFails d e st y
    | (.ok l, s) => s.stepBegins d e st l

/-! ## Credits (R301) -/

/-- Bytes of the staging buffer. -/
def ceStaging : Nat := 262144

/-- Round up to whole credit units of 4 KiB. -/
def units4k (n : Nat) : Nat := cdiv n 4096 * 4096

/-- Bytes received from a peer. -/
def CollStep.received (st : CollStep) (p : Nat) : Nat := (Map.get [] st.got p).length + (Map.get [] st.gotCeil p).length

/-- Grant a peer credit for the rounds up to the current one, as far as the staging buffer reaches. An op 6 step that has passed its own check tells every
peer so, if only by a credit of 0 (R292). -/
def State.grantOne (s : State) (d e : Nat) (st0 : CollStep) (p : Nat) : State :=
  let x := collFields st0.raw
  match (s.ce d e).step x.collId x.step with
  | none => s
  | some st =>
    let need := units4k (st.dueBefore p (st.round + 1) false + st.dueBefore p (st.round + 1) true)
    let g := Map.get 0 st.granted p
    let used := st.granted.foldl (fun a q => a + (q.2 - st.received q.1 / 4096 * 4096)) 0
    let give := min (need - g) ((ceStaging - used) / 4096 * 4096)
    if give = 0 ∧ !(x.op = 6 ∧ st.started ∧ st.fresh p) then s
    else
      let data := if st.fresh p then leBytes 4 (checkValue st.raw st.ranks) else []
      let s := (s.send d (st.tagged p (s.collPacket d (st.ranks.getD p 0) x 8 0 st.round x.rank give data))).2
      s.modStep d e x.collId x.step (fun st => { st with
        granted := Map.put 0 st.granted p (g + give), greeted := if st.fresh p then st.greeted ++ [p] else st.greeted })

/-- Grant credit to every remote peer; an op 6 step grants none before it has begun. -/
def State.grantAll (s : State) (d e : Nat) (st : CollStep) : State :=
  if (collFields st.raw).op = 6 ∧ !st.started then s else (s.remotePeers st).foldl (fun s p => s.grantOne d e st p) s

/-! ## Sending (R301, R304) -/

/-- Packets for bytes from an offset on, at most 1,024 data bytes each, the check value in the first when asked. -/
def State.dataPackets (s : State) (d entry : Nat) (x : CollFields) (kind round : Nat) (check : List Byte) : Nat → Nat → List Byte → List Packet
  | 0, _, _ => []
  | n + 1, off, l =>
    if l.isEmpty then []
    else s.collPacket d entry x 7 kind round x.rank off (check ++ l.take 1020) ::
      s.dataPackets d entry x kind round [] n (off + 1020) (l.drop 1020)

/-- Send a remote peer what its credit allows: elements, then ceiling vectors. -/
def State.feedPeer (s : State) (d e : Nat) (st : CollStep) (p : Nat) : State :=
  let x := collFields st.raw
  let out := Map.get [] st.out p
  let ceil := Map.get [] st.outCeil p
  let room := Map.get 0 st.credit p - Map.get 0 st.sent p - Map.get 0 st.sentCeil p
  let n := min out.length room
  let m := min ceil.length (room - n)
  if n + m = 0 then s
  else
    let entry := st.ranks.getD p 0
    let check := if st.fresh p then leBytes 4 (checkValue st.raw st.ranks) else []
    let s := s.sendAll d ((s.dataPackets d entry x 0 st.round check (n / 1020 + 1) (Map.get 0 st.sent p) (out.take n)).map (st.tagged p))
    let s := s.sendAll d ((s.dataPackets d entry x 1 st.round (if n = 0 then check else []) (m / 1020 + 1) (Map.get 0 st.sentCeil p)
      (ceil.take m)).map (st.tagged p))
    s.modStep d e x.collId x.step (fun st => { st with
      out := Map.put [] st.out p (out.drop n), outCeil := Map.put [] st.outCeil p (ceil.drop m),
      sent := Map.modify 0 st.sent p (· + n), sentCeil := Map.modify 0 st.sentCeil p (· + m),
      greeted := if st.fresh p then st.greeted ++ [p] else st.greeted })

/-- Give a peer on this module what waits for it, once it has issued the step (R301). A check value that differs ends the peer's step (R290). -/
def State.feedLocal (s : State) (d e : Nat) (st : CollStep) (p : Nat) : State :=
  let x := collFields st.raw
  let q := st.ranks.getD p 0
  match (s.ce (rankDie q) (rankCe q)).step x.collId x.step with
  | none => s
  | some o =>
    if (Map.get [] st.out p).isEmpty && (Map.get [] st.outCeil p).isEmpty && !(decide (x.op = 6) && st.fresh p) then s
    else if checkValue o.raw o.ranks ≠ checkValue st.raw st.ranks then s.collAbort (rankDie q) (rankCe q) o 4 true 0xFFFFFFFF
    else
      let s := s.modStep (rankDie q) (rankCe q) x.collId x.step (fun o => { o with
        got := Map.modify [] o.got x.rank (· ++ Map.get [] st.out p), gotCeil := Map.modify [] o.gotCeil x.rank (· ++ Map.get [] st.outCeil p),
        checked := if o.checked.contains x.rank then o.checked else o.checked ++ [x.rank] })
      s.modStep d e x.collId x.step (fun st => { st with
        out := Map.del st.out p, outCeil := Map.del st.outCeil p, greeted := if st.fresh p then st.greeted ++ [p] else st.greeted })

/-- Have all members passed their own check (R292)? A remote one has said so by its credit, one on this module has begun its step. -/
def State.allPassed (s : State) (st : CollStep) : Bool :=
  let x := collFields st.raw
  decide (x.op ≠ 6) || ((s.remotePeers st).all (fun p => st.checked.contains p) &&
    (s.localPeers st).all (fun p =>
      match (s.ce (rankDie (st.ranks.getD p 0)) (rankCe (st.ranks.getD p 0))).step x.collId x.step with
      | some o => o.started
      | none => false))

/-- What an engine does for its steps: the head begins, goes through the rounds that are ready and sends; every issued step grants credit. -/
def State.collEngine (s : State) (d e : Nat) : State :=
  match (s.ce d e).steps with
  | [] => s
  | st :: later =>
    let x := collFields st.raw
    let status := match (s.die d).inflight.find? (fun o => decide (o.src = st.src)) with | some o => o.status | none => 0
    if status ≠ 0 then s.stepFails d e st status
    else
      let s := if st.started then s else s.stepStart d e st
      let s := later.foldl (fun s o => s.grantAll d e o) s
      match (s.ce d e).step x.collId x.step with
      | none => s
      | some st =>
        let s := if st.started then s.modStep d e x.collId x.step (fun o => if o.src = st.src then CollStep.run (o.rounds + 1) o else o) else s
        match (s.ce d e).step x.collId x.step with
        | none => s
        | some st =>
          let s := s.grantAll d e st
          if st.started && s.allPassed st then
            let s := (s.remotePeers st).foldl (fun s p =>
              match (s.ce d e).step x.collId x.step with | some st => s.feedPeer d e st p | none => s) s
            (s.localPeers st).foldl (fun s p =>
              match (s.ce d e).step x.collId x.step with | some st => s.feedLocal d e st p | none => s) s
          else s

/-- The engines of the module that have a step. -/
def State.engines (s : State) : List (Nat × Nat) :=
  (s.dies.map (fun x => (x.2.ces.filter (fun c => !c.2.steps.isEmpty)).map (fun c => (x.1, c.1)))).flatten

/-- Let every engine of the module go on as far as it can, with fuel. -/
def State.collRun : Nat → State → State
  | 0, s => s
  | f + 1, s =>
    match s.engines with
    | [] => s
    | l => State.collRun f (l.foldl (fun s p => s.collEngine p.1 p.2) s)

/-- Fuel for it: the rounds that are left. -/
def State.collFuel (s : State) : Nat :=
  (s.engines.map (fun p => ((s.ce p.1 p.2).steps.map (fun st => st.rounds + 2)).sum)).sum + 1

/-- Let the engines go on. -/
def State.collGo (s : State) : State := State.collRun s.collFuel s

/-! ## Issue, credits, completion -/

/-- Take a peer's credit into a step that has issued (R301); a wrong check value ends the step (R290). -/
def State.creditIn (s : State) (d e : Nat) (k : Packet) : State :=
  match (s.ce d e).step (collOf k) (stepOf k) with
  | none => s.modCe d e (fun c => { c with early := c.early ++ [k] })
  | some st =>
    if !st.checks k then s.collAbort d e st 4 true 0xFFFFFFFF
    else s.modStep d e (collOf k) (stepOf k) (fun st => { st with
      credit := Map.modify 0 st.credit (rankOf k) (· + k.addr.toNat % 2 ^ 22),
      checked := if st.checked.contains (rankOf k) then st.checked else st.checked ++ [rankOf k] })

/-- Credits that came before the step issued. -/
def State.earlyCredits (s : State) (d e coll step : Nat) : State :=
  let l := (s.ce d e).early.filter (fun k => decide (collOf k = coll) && decide (stepOf k = step))
  let s := s.modCe d e (fun c => { c with early := c.early.filter (fun k => !l.contains k) })
  l.foldl (fun s k => if ((s.ce d e).step coll step).isSome then s.creditIn d e k else s) s

/-- A transaction tag for the packets to each remote peer of a step (Table 12-3). -/
def State.tagStep (s : State) (d : Nat) (st : CollStep) : CollStep × State :=
  (s.remotePeers st).foldl (fun (a : CollStep × State) p =>
    let tag := (a.2.die d).nextTag
    ({ a.1 with tags := Map.ins a.1.tags p tag.toNat }, a.2.modDie d (fun x => { x with nextTag := tag + 1 }))) (st, s)

/-- A COLL that passed its decode checks issues on its engine (R291, R292, R300, R301). -/
def State.collIssue (s : State) (d : Nat) (src : DescSrc) (raw : List Byte) (rep : Nat) (jobKeys : Bool) (tensor : Nat → Option Tensor) : State :=
  let x := collFields raw
  let e := x.ce
  if (s.ce d e).aborted.contains x.collId then s.finish d src raw 0x0E
  else
    match s.rankTable d src x with
    | (.error y, s) => s.finish d src raw y
    | (.ok ranks, s) =>
      let a := if x.hasSrc then tensor x.src else none
      let b := if x.hasDst then tensor x.dst else none
      let st : CollStep := {
        src := src, raw := raw, rep := rep, a := a, b := b, ranks := ranks, parts := partsOf x a b,
        ceilLen := if bit x.fl 2 then (match a with | some t => 2 * t.ceilCount | none => 0) else 0 }
      let q := (match a with | some t => t.count | none => 0) / max 1 x.n
      let sizes := List.replicate x.n q
      let (st, s) := s.tagStep d (if x.op = 6 then st else st.planned sizes sizes)
      let s := s.modDie d (fun k => { k with inflight := k.inflight ++
        [{ src := src, raw := raw, rep := rep, a := a, d := b, jobKeys := jobKeys }] })
      let s := s.modCe d e (fun c => { c with steps := c.steps ++ [st] })
      (s.earlyCredits d e x.collId x.step).collGo

/-! ## The dst of a step (Table 13-2) -/

/-- Entries of a ceiling vector. -/
def ceilInts (l : List Byte) : List Int := (List.range (l.length / 2)).map (fun i => signed 16 (fieldAt l (2 * i) 2))

/-- Merged ceiling vector (R296): element-wise maximum, or concatenation in rank order for an all-gather along another dimension. -/
def mergeCeil (x : CollFields) (b : Option Tensor) (l : List (List Byte)) : List Byte :=
  let outer := match b with | some t => decide (t.ceilDim + 1 = t.rank) | none => true
  if x.op = 2 ∧ !outer then l.flatten
  else
    let vs := l.map ceilInts
    let n := (vs.headD []).length
    ceilBytes ((List.range n).map (fun i => vs.foldl (fun a v => max a (v.getD i ceilEmpty)) ceilEmpty))

/-- The bytes of a tensor that receives codes as its elements in logical order, with a ceiling vector. -/
def codePieces (x : Tensor) (rep : Nat) (codes : List Nat) (ceil : Option (List Byte)) : List (Nat × List Byte) :=
  let rows := rowsOfCodes x codes
  let vec := match ceil with | some l => l | none => if x.ceilEmit then tensorCeil x rows else []
  let x := { x with ceilEmit := x.ceilEmit || ceil.isSome }
  memPieces x rep 0 0 rows vec

/-- Entries of a tensor's ceiling vector that the first n elements reach: entry k has its first element at coordinate 0 of the reduced dimension. -/
def Tensor.ceilReach (x : Tensor) (n : Nat) : Nat :=
  let low := prod (x.size.take x.ceilDim)
  let dim := x.dim x.ceilDim
  ((List.range (x.count / max 1 dim)).filter (fun k => decide (k % max 1 low + low * dim * (k / max 1 low) < n))).length

/-- The packed blocks of an unequal all-to-all: the dst elements they cover, row by row, with the ceiling entries of that part (R70). -/
def prefixPieces (x : Tensor) (rep : Nat) (codes : List Nat) : List (Nat × List Byte) :=
  let n := x.dim 0
  let w := x.fmt.width
  let ceil := if x.ceilEmit then [(x.ceil, (tensorCeil x (rowsOfCodes x codes)).take (2 * x.ceilReach codes.length))] else []
  (((List.range x.rows).map (fun r =>
    let c := (codes.drop (r * n)).take n
    [(physOf (x.rowAddr rep 0 r), packRow w (cdiv (c.length * w) 8) c)] ++
      (if x.fmt.isMx then [(physOf (x.scaleAddr rep 0 r), scalesOf w c)] else []))).flatten ++ ceil).filter (fun p => !p.2.isEmpty)

/-- A step that has written its dst leaves its engine (R302). -/
def State.stepEnds (s : State) (d e : Nat) (st : CollStep) (status : Nat) : State :=
  let s := (s.descFlags st.src st.flags).dropStep d e st
  let s := if status = 0 then s.modCe d e (fun c => { c with cntSteps := BitVec.ofNat 32 (satAdd 32 c.cntSteps.toNat 1) }) else s
  (s.finish d st.src st.raw status).collGo

/-- The head step of an engine completes when nothing is missing and nothing is owed (R302): its dst is written; writes of a remote dst are
acknowledged first. -/
def State.stepComplete (s : State) (d e : Nat) : State :=
  let s := s.collGo
  match (s.ce d e).steps with
  | [] => s
  | st :: _ =>
    let x := collFields st.raw
    if !st.started || decide (st.round < st.rounds) || st.out.any (fun o => !o.2.isEmpty) || st.outCeil.any (fun o => !o.2.isEmpty) ||
      !s.allPassed st then s
    else if st.writing then
      if (s.die d).remote.any (fun q => decide (q.src = st.src) && decide (q.op = 3) && !q.done) then s else s.stepEnds d e st 0
    else
      let vecs := (List.range x.n).map (fun r => Map.get [] st.ceils r)
      let merged := if bit x.fl 2 then some (mergeCeil x st.b vecs) else none
      match st.b with
      | none => s.stepEnds d e st 0
      | some b =>
        let pieces := if x.op = 6 then prefixPieces b st.rep st.result else codePieces b st.rep st.result merged
        if b.remote then
          match sendWrites d (128 + e) st.src (b.base / 2 ^ 48) b.key (cutPieces pieces) s with
          | (true, s) => s.modStep d e x.collId x.step (fun o => { o with writing := true })
          | (false, s) => s.stepFails d e st 9
        else
          let (y, s) := writePieces (ceAcc (s.stepOwner d st) d e b) pieces s
          s.stepEnds d e st y

end Sys2Proof.Machine
end

