-- ==== Sys2Proof/Machine/Issue.lean ====
section
/-! DEFINITION. Issuing a descriptor (R133, R135, R138 to R150): when a stream descriptor may issue, what each kind does when it
issues, the slots of a frame (R131, R132, R137). -/
namespace Sys2Proof.Machine

/-! ## Frames and slots -/

/-- A descriptor of a stream at a byte offset. -/
def streamDesc (stream : List Byte) (pos : Nat) : List Byte := bytesAt stream pos (if bit (fieldAt stream pos 8) 8 then 128 else 64)

/-- Make due the descriptors of the current frame that stand at the present slot, with fuel: at most 16 share an offset (R133). -/
def Die.loadDue : Nat → Die → Die
  | 0, x => x
  | n + 1, x =>
    let raw := streamDesc x.stream x.next
    let k := dKind raw
    if x.stream.length ≤ x.next ∨ k = 1 ∨ k = 0x0B ∨ x.frameStart + dOffset raw ≠ x.sc then x
    else Die.loadDue n { x with due := x.due ++ [⟨x.next, raw⟩], next := x.next + dSize raw }

/-- The FRAME or END that stands next becomes due: at the epoch, and where the last instance of a frame ends (R132, R149). -/
def Die.loadFrame (x : Die) : Die :=
  if x.stream.length ≤ x.next then x
  else
    let raw := streamDesc x.stream x.next
    { x with due := x.due ++ [⟨x.next, raw⟩], next := x.next + dSize raw }

/-- The first byte after the descriptors of the frame that opened before framePos. -/
def frameEnd : Nat → List Byte → Nat → Nat
  | 0, _, p => p
  | n + 1, l, p =>
    let raw := streamDesc l p
    if l.length ≤ p ∨ dKind raw = 1 ∨ dKind raw = 0x0B then p else frameEnd n l (p + dSize raw)

/-- An instance of a frame ends: the next instance, or the next frame, starts here (R132). -/
def Die.instanceEnd (x : Die) : Die :=
  if x.frameRep + 1 < x.frameRepeat then { x with frames := x.frames + 1, frameRep := x.frameRep + 1, frameStart := x.sc, next := x.framePos }
  else
    { x with
      frames := x.frames + 1, frameRep := 0, frameRepeat := 0, frameStart := x.sc, frameL := 0,
      next := frameEnd (x.stream.length / 64) x.stream x.framePos }

/-- Descriptors due where a frame instance starts: those of offset 0, or the FRAME or END that stands next. -/
def Die.startInstance (x : Die) : Die := if x.frameRepeat = 0 then x.loadFrame else Die.loadDue 17 x

/-- Does an instance end at the present slot? -/
def Die.atBoundary (x : Die) : Bool := decide (x.frameRepeat ≠ 0) && decide (x.sc = x.frameStart + x.frameL)

/-- A running die at the end of a frame instance: it goes on, or it quiesces for JOB_SUSPEND (R137). -/
def Die.boundary (suspend : Bool) (x : Die) : Die :=
  let x := x.instanceEnd
  if suspend then { x with running := false, quiesced := true } else x.startInstance

/-- May a stream descriptor issue now (R133, R134)? It stands first among the due ones, the job runs and the DSQ is not stretched. -/
def State.streamReady (s : State) (d pos : Nat) (raw : List Byte) : Bool :=
  let x := s.die d
  decide (s.jobState = 3) && x.running && decide (x.stretch = none) && !x.windowDue && decide (x.due.head? = some ⟨pos, raw⟩)

/-! ## What each kind does when it issues -/

/-- The issuer of a descriptor. -/
def State.issuer (s : State) (d : Nat) (src : DescSrc) (jobKeys : Bool) : Issuer :=
  { queue := src.isQueue, own := if src.isStream || jobKeys then .job else .os, rep := (if src.isStream then (s.die d).frameRep else 0),
    jobRuns := s.jobHolds, tensors := (s.die d).tensors }

/-- The decode status of a descriptor as its issuer gives it now. -/
def State.issueStatus (s : State) (d : Nat) (src : DescSrc) (jobKeys : Bool) (raw : List Byte) : Nat :=
  decodeStatus s d (s.issuer d src jobKeys) (s.islandPlates d) raw

/-- Does a descriptor target a fenced tile? Its work aborts with the tile-fault status (R108, DEDUCED). -/
def State.fencedTarget (s : State) (d : Nat) (raw : List Byte) : Bool :=
  (match unitOf raw with | some (.ce _) => false | some _ => true | none => false) &&
    (dTiles raw).any (fun t => (Map.get {} (s.die d).units t).fenced)

/-- Put a descriptor on the in-flight list. -/
def State.addFlight (s : State) (d : Nat) (o : InFlight) : State := s.modDie d (fun x => { x with inflight := x.inflight ++ [o] })

/-- FRAME (R132): the instance starts at the present slot and its descriptors of offset 0 become due. -/
def State.issueFrame (s : State) (d : Nat) (src : DescSrc) (raw : List Byte) : State :=
  let s := s.modDie d (fun x => Die.loadDue 17 { x with
    frameL := fb raw 8 4, frameRepeat := fb raw 0x0C 4, frameRep := 0, frameStart := x.sc, framePos := x.next })
  s.finish d src raw 0

/-- TENSOR (R142). -/
def State.issueTensor (s : State) (d : Nat) (src : DescSrc) (raw : List Byte) : State :=
  (s.modDie d (fun x => { x with tensors := Map.put none x.tensors (fb raw 8 2) (some (tensorOf raw)) })).finish d src raw 0

/-- MATMUL (R84, R142): an operation joins the queue of every target tile's matrix engine. -/
def State.issueMatmul (s : State) (d : Nat) (src : DescSrc) (raw : List Byte) (jobKeys : Bool) : State :=
  let x := mmFields raw
  let iss := s.issuer d src jobKeys
  let c := if x.c = 0xFFFF then none else iss.tensor x.c
  match iss.tensor x.d with
  | none => s
  | some td =>
    let s := s.addFlight d { src := src, raw := raw, rep := iss.rep, c := c, d := some td, jobKeys := jobKeys, busy := dCount raw }
    (dTiles raw).foldl (fun s t => s.modTile d t (fun k => { k with
      mxe := k.mxe ++ [{ src := src, raw := raw, cT := c, dT := td, rep := iss.rep }] })) s

/-- VLOOP and MOVE: the effect comes about now, or when the hazards of R91 and R92 are clear. -/
def State.issueEffect (s : State) (d : Nat) (o : InFlight) : State :=
  let s := s.addFlight d o
  if s.blocked d o then s.modFlight d o.src (fun o => { o with held := true }) else s.applyEffect d o

/-- VLOOP (R144): it loads the operands that its operation or reduction reads. -/
def State.issueVloop (s : State) (d : Nat) (src : DescSrc) (raw : List Byte) (jobKeys : Bool) : State :=
  let iss := s.issuer d src jobKeys
  let op := fb raw 0x10 1
  let reduce := slice (fb raw 0x12 2) 8 7
  s.issueEffect d {
    src := src, raw := raw, rep := iss.rep, jobKeys := jobKeys, a := iss.tensor (fb raw 0x18 2),
    b := if vloopNeedsB (bit (fb raw 0x11 1) 6) && decide (reduce ≠ 1) && decide (reduce = 2 ∨ op ≠ 0x0D) then iss.tensor (fb raw 0x1A 2) else none,
    c := if vloopNeedsC op && decide (reduce = 0) then iss.tensor (fb raw 0x1C 2) else none, d := iss.tensor (fb raw 0x1E 2) }

/-- MOVE (R145). -/
def State.issueMove (s : State) (d : Nat) (src : DescSrc) (raw : List Byte) (jobKeys : Bool) : State :=
  let iss := s.issuer d src jobKeys
  s.issueEffect d { src := src, raw := raw, rep := iss.rep, jobKeys := jobKeys, a := iss.tensor (fb raw 0x10 2), d := iss.tensor (fb raw 0x12 2) }

/-- COLL (R291). -/
def State.issueColl (s : State) (d : Nat) (src : DescSrc) (raw : List Byte) (jobKeys : Bool) : State :=
  let iss := s.issuer d src jobKeys
  s.collIssue d src raw iss.rep jobKeys iss.tensor

/-- Does the condition of a SEM_WAIT hold (R147)? -/
def semHolds (eqCond : Bool) (v : Nat) (x : Word) : Bool := if eqCond then decide (x.toNat = v) else decide (v ≤ x.toNat)

/-- The subtraction of a wait with consume: one step with the test. -/
def State.semConsume (s : State) (d k v : Nat) (consume : Bool) : State :=
  if consume then s.setSem d k (s.sem d k - BitVec.ofNat 32 v) else s

/-- SEM_WAIT (R147): it succeeds, or it blocks and a stream stretches with cause 0x04. -/
def State.issueSemWait (s : State) (d : Nat) (src : DescSrc) (raw : List Byte) : State :=
  let k := fb raw 8 2
  let eqCond := decide (fb raw 0x0A 1 = 1)
  let consume := bit (fb raw 0x0B 1) 0
  let v := fb raw 0x0C 4
  if semHolds eqCond v (s.sem d k) then (s.semConsume d k v consume).finish d src raw 0
  else
    let s := s.addFlight d { src := src, raw := raw }
    let s := s.modDie d (fun x => { x with blocks := x.blocks ++ [⟨src, k, eqCond, consume, v, false⟩] })
    if src.isStream then s.stretchDie d 4 else s

/-- Is y of the stream, or the queue, of x? -/
def sameIssuer (x y : DescSrc) : Bool :=
  match x, y with
  | .stream _ _, .stream _ _ => true
  | .queue a _, .queue b _ => decide (a = b)
  | _, _ => false

/-- SEM_SIGNAL (R148): at once, or after every descriptor issued earlier from its stream has completed. -/
def State.issueSemSignal (s : State) (d : Nat) (src : DescSrc) (raw : List Byte) : State :=
  let x := s.die d
  let waits := (x.inflight.filter (fun o => sameIssuer src o.src)).map (·.src) ++
    (x.fenced.filter (fun f => sameIssuer src f.src)).map (·.src)
  if bit (fb raw 0x0B 1) 0 && !waits.isEmpty then s.modDie d (fun x => { x with fenced := x.fenced ++ [⟨src, waits, raw⟩] })
  else if signalRemote raw then s.signal d src raw
  else (s.signal d src raw).finish d src raw 0

/-- FLARE (R149): class and interval go to the power controller. -/
def State.issueFlare (s : State) (d : Nat) (src : DescSrc) (raw : List Byte) : State :=
  let s := s.modDie d (fun x =>
    let a := x.sc + fb raw 0x0C 2
    { x with flares := x.flares ++ [⟨fb raw 8 1 % 8, a, a + fb raw 0x10 4⟩] })
  s.finish d src raw 0

/-- ISLAND (R150): a launch on every target tile, the grants of R92; a launch behind an earlier kernel stretches a stream with cause
0x01. -/
def State.issueIsland (s : State) (d : Nat) (src : DescSrc) (raw : List Byte) (jobKeys : Bool) : State :=
  let waits := (dTiles raw).any (fun t => (s.tile d t).kernel.isSome || !(s.tile d t).launches.isEmpty)
  let s := s.addFlight d { src := src, raw := raw, jobKeys := jobKeys }
  let s := s.modDie d (fun x => { x with
    islands := x.islands ++ [⟨src, raw, dFirst raw, dCount raw, x.sc + fb raw 0x18 4, src.isStream, bit (fb raw 0x1D 1) 0, fb raw 0x38 4⟩] })
  let k := kernelOf src (src.isQueue && !jobKeys) raw
  let s := (dTiles raw).foldl (fun s t => s.modTile d t (fun x => { x with launches := x.launches ++ [k] })) s
  if waits && src.isStream then s.stretchDie d 1 else s

/-- END (R149). -/
def State.issueEnd (s : State) (d : Nat) (src : DescSrc) (raw : List Byte) : State :=
  (s.modDie d (fun x => { x with ended := true })).finish d src raw 0

/-- The effect of a descriptor whose decode checks passed. -/
def State.issueBody (s : State) (d : Nat) (src : DescSrc) (raw : List Byte) (jobKeys : Bool) : State :=
  match dKind raw with
  | 1 => s.issueFrame d src raw
  | 2 => s.issueTensor d src raw
  | 3 => s.issueMatmul d src raw jobKeys
  | 4 => s.issueVloop d src raw jobKeys
  | 5 => s.issueMove d src raw jobKeys
  | 6 => s.issueColl d src raw jobKeys
  | 7 => s.issueSemWait d src raw
  | 8 => s.issueSemSignal d src raw
  | 9 => s.issueFlare d src raw
  | 10 => s.issueIsland d src raw jobKeys
  | 11 => s.issueEnd d src raw
  | _ => s.finish d src raw 0

/-- A due stream descriptor issues (R133 to R135): rejected with its status, held back by a full unit queue, or done. -/
def State.issueStream (s : State) (d pos : Nat) (raw : List Byte) : State :=
  let src := DescSrc.stream pos (s.die d).frames
  let popped := s.modDie d (fun x => { x with due := x.due.drop 1 })
  let st := s.issueStatus d src false raw
  if st ≠ 0 then popped.finish d src raw st
  else if s.fencedTarget d raw then popped.finish d src raw 0x0C
  else if s.queueFull d raw then s.stretchDie d (s.fullCause d raw)
  else popped.issueBody d src raw false

/-- Has the cause of a stretch cleared (R134, R135, R147, R150)? -/
def State.causeCleared (s : State) (d cause : Nat) : Bool :=
  let x := s.die d
  match cause with
  | 1 | 2 =>
    x.islands.all (fun i => !(i.windowed && decide (i.endSc ≤ x.sc)) || s.islandClosed d i) &&
      x.islands.all (fun i => !i.windowed || i.tiles.all (fun t => !(s.tile d t).launches.any (fun k => decide (k.src = i.src))))
  | 4 => x.blocks.all (fun b => b.src.isQueue)
  | _ => match x.due.head? with | some u => !s.queueFull d u.raw | none => true

/-- Windowed islands whose window has ended and whose kernels have closed end: their grants close (R150). -/
def State.endIslands (s : State) (d : Nat) : State :=
  let keep := (s.die d).islands.filter (fun i => !(i.windowed && decide (i.endSc ≤ (s.die d).sc) && s.islandClosed d i))
  s.modDie d (fun x => { x with islands := keep })

end Sys2Proof.Machine
end

