-- ==== Sys2Proof/Machine/Wq.lean ====
section
/-! DEFINITION. Work queues (R157 to R163): fetching the entry at head, issuing it, doorbells, retries, control. -/
namespace Sys2Proof.Machine

/-- State an enabled queue reads when it is neither early nor stopped: held while a job runs, else running or idle. -/
def State.wqState (s : State) (w : Wq) : BitVec 3 :=
  if !w.enable then 0 else if s.jobHolds then 5 else if w.head = w.tail then 1 else 2

/-- Refresh a queue's state after its counts changed. -/
def State.wqRefresh (s : State) (d q : Nat) : State :=
  s.modWq d q (fun w => if w.state = 4 then w else { w with state := s.wqState w })

/-- Read the entry at head: its bytes when the header matches (R159), none when it does not, a status when the ring cannot be read. -/
def State.wqFetch (s : State) (d q : Nat) : Except Nat (Option (List Byte)) × State :=
  let w := s.wq d q
  let h := w.head.toNat
  let addr (k : Nat) := w.base.toNat + k % w.size * 64
  let fits (l : List Byte) (k : Nat) : Bool := dValid l && decide (dSeq l = k % 65536)
  match s.readMem (wqAcc d w) (addr h) 64 with
  | (.error e, s) => (.error (memStatus e.1), s)
  | (.ok l, s) =>
    if !fits l h then (.ok none, s)
    else if !dLong l then (.ok (some l), s)
    else
      match s.readMem (wqAcc d w) (addr (h + 1)) 64 with
      | (.error e, s) => (.error (memStatus e.1), s)
      | (.ok m, s) => (if fits m (h + 1) then .ok (some (l ++ m)) else .ok none, s)

/-- May the engine of a queue take its head entry: enabled, not early, not stopped, not blocked by a SEM_WAIT? -/
def State.wqActive (s : State) (d q : Nat) : Bool :=
  let w := s.wq d q
  w.enable && decide (w.head ≠ w.tail) && decide (w.state ≠ 3) && decide (w.state ≠ 4) &&
    (s.die d).blocks.all (fun b => match b.src with | .queue k _ => decide (k.val ≠ q) | .stream _ _ => true)

/-- Has every earlier entry of a queue completed? -/
def State.wqDrained (s : State) (d q : Nat) : Bool :=
  let mine (x : DescSrc) : Bool := match x with | .queue k _ => decide (k.val = q) | .stream _ _ => false
  (s.die d).inflight.all (fun o => !mine o.src) && (s.die d).fenced.all (fun o => !mine o.src)

/-- Do all targets of an entry lie in one open island with wq_open (R163)? -/
def State.inOpenIsland (s : State) (d : Nat) (raw : List Byte) : Bool :=
  (match dKind raw with | 3 => true | 4 => true | 5 => true | 10 => true | _ => false) &&
    (s.die d).islands.any (fun i => i.wqOpen && decide (i.first ≤ dFirst raw) && decide (dFirst raw + dCount raw ≤ i.first + i.count))

/-- May a held queue take an entry (R163)? -/
def State.heldPasses (s : State) (d : Nat) (raw : List Byte) : Bool := decide (dKind raw = 2) || s.inOpenIsland d raw

/-- The entry at head ends at once with a status and stops its queue; WQ_CTRL.resume consumes it (R162). -/
def State.wqReject (s : State) (d : Nat) (q : Fin 16) (raw : List Byte) (status : Nat) : State :=
  let h := (s.wq d q).head.toNat
  (s.modWq d q (fun w => { w with failSize := dSize raw / 64 })).finish d (.queue q h) raw status

/-- Take the entry at head as far as R135, R161 and R163 let it: the state when it issued or was rejected, none when it has to wait. -/
def State.wqTake (s : State) (d : Nat) (q : Fin 16) (raw : List Byte) : Option State :=
  let w := s.wq d q
  let src := DescSrc.queue q w.head.toNat
  let jobKeys := s.jobHolds && s.inOpenIsland d raw
  if dAfter raw && !s.wqDrained d q then none
  else if s.jobHolds && !s.heldPasses d raw then none
  else
    let st := s.issueStatus d src jobKeys raw
    if st ≠ 0 then some (s.wqReject d q raw st)
    else
      let consumed := (s.modWq d q (fun w => { w with
        head := w.head + BitVec.ofNat 32 (dSize raw / 64), retries := 0 })).wqRefresh d q
      if s.fencedTarget d raw then some (consumed.finish d src raw 0x0C)
      else if s.queueFull d raw then none
      else some (consumed.issueBody d src raw jobKeys)

/-- The engine reads the head entry and issues it when it matches; an expected entry must be the one read. -/
def State.wqTry (s0 : State) (d : Nat) (q : Fin 16) (expect : Option (List Byte)) : State :=
  if !s0.wqActive d q then s0
  else
    match s0.wqFetch d q with
    | (.error st, s) => if expect.isSome then s0 else s.wqReject d q [] st
    | (.ok none, _) => s0
    | (.ok (some raw), s) =>
      if expect.isSome ∧ expect ≠ some raw then s0
      else match s.wqTake d q raw with | some s => s | none => s0

/-- Write WQ_CFG (R157, R159). The size field holds while the queue is enabled. A log2_size outside 4 to 15 names no ring, and enable
stays 0 (DESIGN CHOICE). -/
def State.writeWqCfg (s : State) (d q v : Nat) : State :=
  let w := s.wq d q
  let size := if w.enable then w.log2size else BitVec.ofNat 4 (slice v 11 8)
  let en := bit v 0 && decide (4 ≤ size.toNat)
  (s.modWq d q (fun w => { w with
    enable := en, cqEnable := bit v 1, irqEnable := bit v 2, log2size := size, key := BitVec.ofNat 6 (slice v 17 12),
    retries := if en && !w.enable then 0 else w.retries,
    state := if en && w.enable then w.state else 0 })).wqRefresh d q

/-- WQ_ENABLE (R159): setting enable; with head 0 a run begins. -/
def execWqEnable (d : DieId) (q : Fin 16) (cfg : Word) (s : State) : Out :=
  .next (s.writeWqCfg d q (cfg.toNat ||| 1))

/-- WQ_DOORBELL (R158, R160): the BAR4 page is the same register; it is ignored during a host restart (R328). A doorbell wakes the module (R376). -/
def execWqDoorbell (d : DieId) (q : Fin 16) (tail : Word) (bar4 : Bool) (s : State) : Out :=
  let w := s.wq d q
  if (bar4 && s.host.restarting) || !s.domainOn .noc then .next s
  else
  let s := s.wake
  if (tail - w.head).toNat ≤ w.size then
    .next ((s.modWq d q (fun w => { w with
      tail := tail, retries := if w.state = 3 then 0 else w.retries })).wqRefresh d q)
  else .next (s.modWq d q (fun w => { w with badDb := true }))

/-- WQ_ENTRY_REREAD (R160): the entry issues at the first read that matches; after 64 re-reads the queue is doorbell-early. -/
def execWqEntryReread (d : DieId) (q : Fin 16) (s : State) : Out :=
  if !s.wqActive d q then .next s
  else
    match s.wqFetch d q with
    | (.error st, s) => .next (s.wqReject d q [] st)
    | (.ok (some raw), s1) => .next ((s1.wqTake d q raw).getD s)
    | (.ok none, s) =>
      let s := s.modWq d q (fun w => { w with retries := w.retries + 1 })
      let w := s.wq d q
      if w.retries < 64 then .next s
      else
        let s := s.modWq d q (fun w => { w with
          state := 3, early := true, earlyCnt := BitVec.ofNat 32 (satAdd 32 w.earlyCnt.toNat 1) })
        let s := s.dieEvent d q 0x3003 (leBytes 1 q ++ leBytes 4 w.head.toNat)
        .next (if w.irqEnable then s.sendMsix w.msix.toNat else s)

/-- WQ_ENTRY_ISSUE (R161). -/
def execWqEntryIssue (d : DieId) (q : Fin 16) (s : State) : Out := .next (s.wqTry d q none)

/-- WQ_CTRL resume (R162). -/
def execWqCtrlResume (d : DieId) (q : Fin 16) (s : State) : Out :=
  if (s.wq d q).state = 4 then
    .next ((s.modWq d q (fun w => { w with
      head := w.head + BitVec.ofNat 32 w.failSize, failSize := 0, retries := 0, state := 0 })).wqRefresh d q)
  else .next s

/-- WQ_CTRL reset (R159): only while enable is 0. -/
def execWqCtrlReset (d : DieId) (q : Fin 16) (s : State) : Out :=
  if (s.wq d q).enable then .next s
  else .next (s.modWq d q (fun w => { w with head := 0, tail := 0, retries := 0, failSize := 0 }))

end Sys2Proof.Machine
end

