-- ==== Sys2Proof/Machine/Dsq.lean ====
section
/-! DEFINITION. The rows of the die sequencer (06_descriptors_and_schedules) and of the matrix engine and data mover steps. -/
namespace Sys2Proof.Machine

/-! ## Slots -/

/-- May the slot count of a die advance: the job runs, no stretch, nothing due waits, no window end stands unchecked? -/
def State.slotReady (s : State) (d : Nat) : Bool :=
  let x := s.die d
  decide (s.jobState = 3) && x.running && decide (x.stretch = none) && x.due.isEmpty && !x.windowDue

/-- The slot count of a die one on, with what becomes due (R131 to R133, R137). -/
def State.advance (s : State) (d : Nat) : State :=
  let suspend := match s.lantern.job with | some j => j.suspending.isSome | none => false
  s.modDie d (fun x =>
    let x := { x with sc := x.sc + 1 }
    if x.ended then x else if x.atBoundary then x.boundary suspend else Die.loadDue 17 x)

/-- Is the DSQ's own stream fetch late at this slot: a memory level is saturated, and it delays the fetch (a free choice: the spec gives
no timing of the fetch)? -/
def State.fetchLate (s : State) (d : Nat) : Bool × State :=
  if s.memorySlow then (let (v, s) := s.free 1; (decide (v = 1) && !(s.die d).ended, s)) else (false, s)

/-- SLOT_ADVANCE (R131, R133, R137): one slot on; a late stream fetch stretches with cause 0x0A (Table 06-1); a failing job's die stops
(R152). -/
def execSlotAdvance (d : DieId) (s : State) : Out :=
  if s.jobFailing then .next s.stopCheck
  else if s.slotReady d then
    let (late, s) := s.fetchLate d
    .next (if late then s.stretchDie d 0x0A else (s.advance d).clockSlip d)
  else .next (s.noteClock d)

/-- STRETCH_RESUME (R134, R150). -/
def execStretchResume (d : DieId) (s : State) : Out :=
  match (s.die d).stretch with
  | some c => if s.causeCleared d c then .next ((s.resumeDie d).endIslands d) else .next s
  | none => .next s

/-! ## Descriptors -/

/-- A descriptor of a given kind issues from its stream or from the head of its queue. -/
def State.descRow (s : State) (kind : Nat) (d : DieId) (src : DescSrc) (raw : List Byte) : State :=
  if dKind raw ≠ kind then s
  else
    match src with
    | .stream pos n => if n = (s.die d).frames ∧ s.streamReady d pos raw then (s.issueStream d pos raw).stopCheck else s
    | .queue q h => if (s.wq d q).head.toNat = h then s.wqTry d q (some raw) else s

/-- NOP (R138). -/
def execNop (d : DieId) (src : DescSrc) (raw : List Byte) (s : State) : Out := .next (s.descRow 0 d src raw)

/-- FRAME (R132). -/
def execFrame (d : DieId) (src : DescSrc) (raw : List Byte) (s : State) : Out := .next (s.descRow 1 d src raw)

/-- TENSOR (R142). -/
def execTensor (d : DieId) (src : DescSrc) (raw : List Byte) (s : State) : Out := .next (s.descRow 2 d src raw)

/-- MATMUL (R435). -/
def execMatmul (d : DieId) (src : DescSrc) (raw : List Byte) (s : State) : Out := .next (s.descRow 3 d src raw)

/-- MXE_K_STEP (R87, R88). -/
def execMxeKStep (d : DieId) (t : TileId) (s : State) : Out := .next (s.kStep d t)

/-- VLOOP (R144). -/
def execVloop (d : DieId) (src : DescSrc) (raw : List Byte) (s : State) : Out := .next (s.descRow 4 d src raw)

/-- MOVE (R145). -/
def execMove (d : DieId) (src : DescSrc) (raw : List Byte) (s : State) : Out := .next (s.descRow 5 d src raw)

/-- TDM_RING_SLOT_FILL (R87). -/
def execTdmRingSlotFill (d : DieId) (t : TileId) (chan : Fin 4) (s : State) : Out :=
  .next (s.modTile d t (fun k => k.fillOne chan))

/-- COLL (R291). -/
def execColl (d : DieId) (src : DescSrc) (raw : List Byte) (s : State) : Out := .next (s.descRow 6 d src raw)

/-- SEM_WAIT (R147). -/
def execSemWait (d : DieId) (src : DescSrc) (raw : List Byte) (s : State) : Out := .next (s.descRow 7 d src raw)

/-- Take a semaphore wait off the list of blocked ones. -/
def State.unblock (s : State) (d : Nat) (src : DescSrc) : State :=
  s.modDie d (fun x => { x with blocks := x.blocks.filter (fun b => decide (b.src ≠ src)) })

/-- SEM_WAIT_SATISFIED (R147): test and consume in one step. -/
def execSemWaitSatisfied (d : DieId) (src : DescSrc) (s : State) : Out :=
  match (s.die d).blocks.find? (fun b => decide (b.src = src)) with
  | some b =>
    if semHolds b.eqCond b.v (s.sem d b.sem) then
      let s' := (s.semConsume d b.sem b.v b.consume).unblock d src
      match (s.die d).inflight.find? (fun o => decide (o.src = src)) with
      | some o => .next (s'.finish d src o.raw 0)
      | none => .next s'
    else .next s
  | none => .next s

/-- SEM_WAIT_TIMEOUT (R147): one event per wait; the wait goes on. -/
def execSemWaitTimeout (d : DieId) (src : DescSrc) (s : State) : Out :=
  match (s.die d).blocks.find? (fun b => decide (b.src = src)) with
  | some b =>
    if b.reported then .next s
    else
      let s := s.modDie d (fun x => { x with
        blocks := x.blocks.map (fun c => if c.src = src then { c with reported := true } else c) })
      .next (s.dieEvent d 0 0x0004 (leBytes 1 d ++ leBytes 2 b.sem))
  | none => .next s

/-- SEM_SIGNAL (R148). -/
def execSemSignal (d : DieId) (src : DescSrc) (raw : List Byte) (s : State) : Out := .next (s.descRow 8 d src raw)

/-- SEMAPHORE_UPDATE (R148): an update message is applied at the target die as it arrives. -/
def execSemaphoreUpdate (d : DieId) (sem : Fin 4096) (set : Bool) (v : Word) (s : State) : Out :=
  .next (s.semUpdate d sem set v.toNat)

/-- FLARE (R149). -/
def execFlare (d : DieId) (src : DescSrc) (raw : List Byte) (s : State) : Out := .next (s.descRow 9 d src raw)

/-- ISLAND (R150). -/
def execIsland (d : DieId) (src : DescSrc) (raw : List Byte) (s : State) : Out := .next (s.descRow 10 d src raw)

/-- ISLAND_WINDOW_END (R150): the islands at the end of their window end when their kernels have closed; else the DSQ stretches, with
cause 0x02 when a group of such a kernel is parked, with 0x01 otherwise. -/
def execIslandWindowEnd (d : DieId) (s : State) : Out :=
  let x := s.die d
  if !x.windowDue || x.stretch.isSome then .next s
  else
    let open_ := x.islands.filter (fun i => i.windowed && decide (i.endSc ≤ x.sc) && !s.islandClosed d i)
    if open_.isEmpty then .next (s.endIslands d)
    else
      let parked := open_.any (fun i => i.tiles.any (fun t => (s.tile d t).hasParked i.src))
      .next (s.stretchDie d (if parked then 2 else 1))

/-- END (R149). -/
def execEndStream (d : DieId) (src : DescSrc) (raw : List Byte) (s : State) : Out := .next (s.descRow 0x0B d src raw)

/-! ## Completion -/

/-- Drop the work of a descriptor on every tile. -/
def State.dropWork (s : State) (d : Nat) (src : DescSrc) (raw : List Byte) : State :=
  (dTiles raw).foldl (fun s t => s.modTile d t (fun k => { k with
    mxe := k.mxe.filter (fun o => decide (o.src ≠ src)), packs := k.packs.filter (fun o => decide (o.src ≠ src)) })) s

/-- The islands that a queue entry opened close with it. -/
def State.closeQueueIsland (s : State) (d : Nat) (src : DescSrc) : State :=
  if src.isQueue then s.modDie d (fun x => { x with islands := x.islands.filter (fun i => decide (i.src ≠ src)) }) else s

/-- End an in-flight descriptor with the status it has met. -/
def State.endFlight (s : State) (d : Nat) (o : InFlight) : State :=
  ((s.dropWork d o.src o.raw).closeQueueIsland d o.src).finish d o.src o.raw o.status

/-- Are all answers of a descriptor's remote accesses in? -/
def State.remoteDone (s : State) (d : Nat) (src : DescSrc) (op : Nat) : Bool :=
  (s.die d).remote.all (fun q => decide (q.src ≠ src) || decide (q.op ≠ op) || q.done)

/-- A MOVE or VLOOP whose effect has come about: what is left of it, then its end. -/
def State.finishEffect (s : State) (d : Nat) (o : InFlight) : State :=
  let (st, s) := if o.busy = 0 then (0, s) else onTiles (fun s t => s.moveFinish (ownerOf o) d o t) (dTiles o.raw) s
  let s := (s.modFlight d o.src (fun o => { o with busy := 0 })).flightStatus d o.src st
  if st ≠ 0 then s.endFlight d { o with status := st }
  else if (dTiles o.raw).any (fun t => (s.tile d t).packs.any (fun p => decide (p.src = o.src))) then s
  else if !s.remoteDone d o.src 3 then s
  else s.endFlight d o

/-- DESCRIPTOR_COMPLETE (R102, R135, R148): a descriptor that is first of its unit queue and done on all its targets ends; one that
met a status ends with it; one held back by a hazard takes its effect once the hazard is clear (R91). A COLL ends at
COLLECTIVE_STEP_COMPLETE, a SEM_WAIT at SEM_WAIT_SATISFIED. -/
def State.complete (s : State) (d : Nat) (src : DescSrc) : State :=
  match (s.die d).inflight.find? (fun o => decide (o.src = src)) with
  | none => s
  | some o =>
    if o.status ≠ 0 ∧ dKind o.raw ≠ 6 then s.endFlight d o
    else if ((s.die d).older src).any (fun y => sameUnit y.raw o.raw) then s
    else
      match dKind o.raw with
      | 3 => if o.busy = 0 then s.endFlight d o else s
      | 4 | 5 =>
        if o.held then
          if s.blocked d o then s
          else
            let s := s.applyEffect d o
            match (s.die d).inflight.find? (fun o => decide (o.src = src)) with
            | some o => if o.status ≠ 0 then s.endFlight d o else if o.busy = 0 then s.finishEffect d o else s
            | none => s
        else if o.busy = 0 then s.finishEffect d o
        else if s.remoteDone d src 1 then s.finishEffect d o else s
      | 10 => if (dTiles o.raw).all (fun t => !(s.tile d t).hasKernel src) then s.endFlight d o else s
      | _ => s

/-- DESCRIPTOR_COMPLETE. -/
def execDescriptorComplete (d : DieId) (src : DescSrc) (s : State) : Out := .next (s.complete d src)

end Sys2Proof.Machine
end

