-- ==== Sys2Proof/Machine/TileRows.lean ====
section
/-! DEFINITION. Events of a tile's stores and of a tile as a whole (R26, R103, R108), launches and group starts (R110). -/
namespace Sys2Proof.Machine

/-- TILE_STORE_RESTORE (R26, R104): the store of a tile in T-OFF is back in T-DOZE and reads 0. -/
def execTileStoreRestore (d : DieId) (t : TileId) (s : State) : Out :=
  .next (if s.domainOn .tile then s.restoreTs d t else s)

/-- Lines of a tile store. -/
def tsLines : Nat := 16384

/-- A day in nanoseconds. -/
def dayNs : Nat := 24 * 3600 * 1000000000

/-- TS_SCRUB (R103): the next line is read; single and double name its words with one-bit and uncorrectable errors. Sixteen corrected
errors of one SRAM row within 24 h mark the tile for remap (one line counts as one SRAM row, DESIGN CHOICE). -/
def execTsScrub (d : DieId) (t : TileId) (single double : BitVec 16) (s : State) : Out :=
  let k := s.tile d t
  if k.power = .off then .next s
  else
    let line := k.scrubPos
    let bad := (maskBits 16 double.toNat).map (fun i => 16 * line + i)
    let fresh := bad.filter (fun w => !k.tsBad.contains w)
    let corr := (maskBits 16 (single &&& ~~~double).toNat).map (fun _ => (line, s.timeNs))
    let kept := k.corrected.filter (fun e => decide (s.timeNs < e.2 + dayNs)) ++ corr
    let mark := decide (16 ≤ (kept.filter (fun e => decide (e.1 = line))).length)
    let s := s.modTile d t (fun k => { k with
      tsBad := k.tsBad ++ fresh, corrected := kept, remapMark := k.remapMark || mark, scrubPos := (line + 1) % tsLines })
    .next (fresh.foldl (fun s w => s.logAccess 1 (tsBase d t + 8 * w) (unitAgent d t)) s)

/-- TILE_FAILURE (R89, R108): in-flight descriptors on the tile abort with the tile-fault status, its groups park, the tile is fenced. -/
def execTileFailure (d : DieId) (t : TileId) (s : State) : Out :=
  let u := Map.get {} (s.die d).units t
  if !u.present || u.fenced then .next s
  else
    let s := s.modDie d (fun x => { x with units := Map.put {} x.units t { u with fenced := true } })
    let s := s.modTile d t (fun k => { k with
      mxe := [], packs := [], slots := k.slots.map (fun g => (g.1, { g.2 with st := .parked })) })
    let s := s.dieEvent d (t.val % 32) 0x3002 (leBytes 1 t ++ leBytes 1 u.phys.toNat)
    let hit := (s.die d).inflight.filter (fun o =>
      (match unitOf o.raw with | some (.ce _) => false | some _ => true | none => false) && (dTiles o.raw).contains t.val)
    .next (hit.foldl (fun s o => s.endFlight d { o with status := 0x0C }) s)

/-- KERNEL_LAUNCH (R110, R124): a waiting launch opens once no kernel is open; its first group starts. -/
def execKernelLaunch (d : DieId) (t : TileId) (s : State) : Out := .next (s.modTile d t Tile.openKernel)

/-- GROUP_START (R110, R111): the next group of the open kernel starts in a free slot. -/
def execGroupStart (d : DieId) (t : TileId) (s : State) : Out := .next (s.modTile d t Tile.startGroup)

end Sys2Proof.Machine
end

