-- ==== Sys2Proof/Machine/GxeOps.lean ====
section
/-! DEFINITION. What the group engine's rows share (05_thread_groups): instruction fields and legality (R113 to R118), registers and
predicates (R111), divergence (R121), barriers (R123), memory accesses with their checks (R122, R124), plates, contexts (Table 05-7). -/
namespace Sys2Proof.Machine

/-! ## Fields -/

/-- cls of an instruction. -/
def gCls (w : Nat) : Nat := slice w 63 58
/-- op. -/
def gOp (w : Nat) : Nat := slice w 57 52
/-- Guard predicate number. -/
def gGp (w : Nat) : Nat := slice w 51 49
/-- Guard inversion. -/
def gGn (w : Nat) : Bool := bit w 48
/-- Register field d. -/
def gD (w : Nat) : Nat := slice w 47 41
/-- Register field a. -/
def gA (w : Nat) : Nat := slice w 40 34
/-- Register field b. -/
def gB (w : Nat) : Nat := slice w 33 27
/-- Register field c. -/
def gC (w : Nat) : Nat := slice w 26 20
/-- Modifier of the R format. -/
def gMod (w : Nat) : Nat := slice w 19 0
/-- imm32. -/
def gImm (w : Nat) : Nat := slice w 31 0
/-- mtype of the M format; reserved bits of the I and B formats. -/
def gMt (w : Nat) : Nat := slice w 33 32

/-- An instruction's numeric options (R116). -/
def gFp (w : Nat) : FpOpts := ⟨rndOf (slice w 19 18), bit w 17, bit w 16, bit w 15⟩

/-! ## Registers and predicates (R111) -/

/-- Register r of thread l; g0 reads 0. -/
def Group.reg (g : Group) (l r : Nat) : Nat := if r = 0 then 0 else (Map.get 0 g.regs (128 * l + r)).toNat

/-- Write a register; g0 ignores writes. -/
def Group.setReg (g : Group) (l r v : Nat) : Group :=
  if r = 0 ∨ 127 < r then g else { g with regs := Map.put 0 g.regs (128 * l + r) (BitVec.ofNat 32 v) }

/-- A register pair as a 64-bit number: the even register holds the low half (DEDUCED from KARG and the M format). -/
def Group.pair (g : Group) (l r : Nat) : Nat := g.reg l r + 2 ^ 32 * g.reg l (r + 1)

/-- Write k consecutive registers from a number, low word first. -/
def Group.setWords (g : Group) (l r : Nat) : Nat → Nat → Group
  | 0, _ => g
  | k + 1, v => (g.setReg l r (v % 2 ^ 32)).setWords l (r + 1) k (v / 2 ^ 32)

/-- k consecutive registers as one number. -/
def Group.words (g : Group) (l r : Nat) : Nat → Nat
  | 0 => 0
  | k + 1 => g.reg l r + 2 ^ 32 * g.words l (r + 1) k

/-- Predicate p of thread l; p0 reads 1. -/
def Group.pred (g : Group) (l p : Nat) : Bool := decide (p = 0) || (Map.get 0 g.preds l).getLsbD p

/-- Write a predicate; p0 ignores writes. -/
def Group.setPred (g : Group) (l p : Nat) (v : Bool) : Group :=
  if p = 0 then g
  else
    let old := Map.get 0 g.preds l
    let m := BitVec.ofNat 8 (2 ^ p)
    { g with preds := Map.put 0 g.preds l (if v then old ||| m else old &&& ~~~m) }

/-- The threads that take part: active with a true guard. -/
def Group.part (g : Group) (w : Nat) : List Nat :=
  (List.range 32).filter (fun l => g.active.getLsbD l && (g.pred l (gGp w) != gGn w))

/-- The mask of a thread list. -/
def maskOf (ls : List Nat) : Word := BitVec.ofNat 32 ((ls.map (fun l => 2 ^ l)).sum)

/-- Apply one write per thread computed from the group as it stood before (R115). -/
def Group.each (g : Group) (ls : List Nat) (f : Group → Nat → Group) : Group := ls.foldl f g

/-- The next instruction. -/
def Group.step (g : Group) : Group := { g with pc := g.pc + 8 }

/-- A branch target relative to the branch's own address, in instructions (R116). -/
def Group.rel (g : Group) (bits x : Nat) : Word := g.pc + BitVec.ofInt 32 (8 * signed bits x)

/-! ## PLEN (R100) -/

/-- Columns of a plate format. -/
def plateCols (f : Fmt) : Nat := 512 / f.width

/-- Is PLEN legal for a format? -/
def Group.plenOk (g : Group) (f : Fmt) : Bool :=
  decide (1 ≤ g.rows.toNat) && decide (g.rows.toNat ≤ 16) &&
    (g.full || (decide (1 ≤ g.cols.toNat) && decide (g.cols.toNat ≤ plateCols f)))

/-- Column count in force. -/
def Group.ncols (g : Group) (f : Fmt) : Nat := if g.full then plateCols f else g.cols.toNat

/-- PLEN in the layout of the context. -/
def Group.plen (g : Group) : Nat := g.rows.toNat + 32 * g.cols.toNat + 2048 * b2n g.full

/-! ## Legality (R118) -/

/-- Is a register number even? -/
def evenReg (r : Nat) : Bool := decide (r % 2 = 0)

/-- Register count of a load or store op. -/
def memWords (op : Nat) : Nat := match op with | 3 => 2 | 4 => 4 | _ => 1

/-- Bytes of a load or store op. -/
def memBytes (op : Nat) : Nat := match op with | 0 => 1 | 1 => 2 | 2 => 4 | 3 => 8 | 4 => 16 | 5 => 1 | _ => 2

/-- Is a data register field aligned for k registers? -/
def wordsOk (r k : Nat) : Bool := decide (r % k = 0)

/-- Illegal: integer classes 0x00 and 0x01. -/
def badInteger (w : Nat) : Bool :=
  let wide := decide (gOp w = 0x0F) || decide (gOp w = 0x10)
  let imm := decide (gCls w = 1)
  decide (0x12 < gOp w) || (if imm then decide (gMt w ≠ 0) else decide (gMod w ≠ 0)) ||
    (wide && !(evenReg (gD w) && evenReg (gA w) && (imm || evenReg (gB w))))

/-- Illegal: floating-point classes 0x02 to 0x04. rnd 2 and 3 are for conversions only; pk belongs to cls 0x04. -/
def badFp (w : Nat) : Bool :=
  let m := gMod w
  let op := gOp w
  let wide := decide (gCls w = 3)
  decide (6 < op) || decide (1 < slice m 19 18) || decide (slice m 14 5 ≠ 0) || decide (slice m 3 0 ≠ 0) ||
    (bit m 4 && decide (gCls w ≠ 4)) ||
    (wide && !(evenReg (gD w) && evenReg (gA w) && (decide (5 ≤ op) || evenReg (gB w)) && (decide (op ≠ 2) || evenReg (gC w))))

/-- A format that cvt accepts (R33, R119). -/
def cvtFmt (c : Nat) : Option Fmt :=
  match Fmt.ofCode c with | some f => if f.isMx || f.isWa then none else some f | none => none

/-- Illegal: cvt. -/
def badCvt (w : Nat) : Bool :=
  let m := gMod w
  match cvtFmt (slice m 14 10), cvtFmt (slice m 9 5) with
  | some a, some b =>
    decide (gOp w ≠ 0) || decide (slice m 19 18 = 3) || decide (slice m 4 0 ≠ 0) ||
      (decide (a.width = 64) && !evenReg (gA w)) || (decide (b.width = 64) && !evenReg (gD w))
  | _, _ => true

/-- Illegal: compare and predicate. Table 05-3 gives the class formats R and I, but no op or bit that tells them apart: every word of
the class is read in format R (DEDUCED: notes/assumptions/96). -/
def badCompare (w : Nat) : Bool :=
  let op := gOp w
  !(decide (op ≤ 0x0D) || (decide (0x10 ≤ op) && decide (op ≤ 0x13))) || decide (gMod w ≠ 0) ||
    (decide (8 ≤ op) && decide (op ≤ 0x0B) && !(evenReg (gA w) && evenReg (gB w)))

/-- Illegal: move and special. A special register above 0x0B has no name (DEDUCED illegal). -/
def badMove (w : Nat) : Bool :=
  match gOp w with
  | 0 | 2 | 4 => decide (gMod w ≠ 0)
  | 1 => decide (gMt w ≠ 0)
  | 3 => decide (gMt w ≠ 0) || decide (0x0B < gImm w % 256)
  | _ => true

/-- Illegal: load, store, atomic. 64-bit forms exist for ops 0x00 to 0x09; data of two or four registers are aligned, the compare value
of a wide cas follows its operand (DEDUCED). -/
def badMemory (w : Nat) : Bool :=
  let op := gOp w
  !evenReg (gA w) ||
    (match gCls w with
     | 9 => decide (6 < op) || !wordsOk (gD w) (memWords op)
     | 0x0A => decide (4 < op) || !wordsOk (gD w) (memWords op)
     | _ =>
       !(decide (op ≤ 0x0B) || (decide (0x10 ≤ op) && decide (op ≤ 0x19))) ||
         (decide (0x10 ≤ op) && !evenReg (gD w)) || (decide (op = 9) && decide (gD w = 127)) ||
         (decide (op = 0x19) && decide (124 < gD w)))

/-- Plate fields of the P and PI formats: format code and numbers of d, a, b, c. -/
def pFmt (w : Nat) : Option Fmt := plateFmt (if gCls w = 0x0C then slice w 27 25 else slice w 37 35)

/-- Illegal: plate arithmetic, logic and lookup. cmp names its condition in b, so it compares a with c; the table of a lookup is b, an
even plate in FP64 (DEDUCED). -/
def badPlate (g : Group) (w : Nat) : Bool :=
  let op := gOp w
  match pFmt w with
  | none => true
  | some f =>
    !g.plenOk f ||
      (if gCls w = 0x0C then
         decide (0x0D < op) || decide (slice w 23 0 ≠ 0) || (decide (op = 3) && decide (3 < slice w 37 33)) ||
           (decide (op = 0x0D) && (decide (f.width < slice w 32 28 + 8) || (decide (f = .fp64) && decide (slice w 37 33 % 2 = 1))))
       else decide (0x0C < op) || decide (slice w 33 32 ≠ 0))

/-- Illegal: plate load and store (R117). -/
def badPlateMem (g : Group) (w : Nat) : Bool :=
  match Fmt.ofCode (slice w 21 17), plateFmt (slice w 16 14) with
  | some m, some f =>
    m.isWa || !g.plenOk f || decide (slice w 9 0 ≠ 0) ||
      (if m.isMx then decide (f ≠ .bf16 ∧ f ≠ .fp16) || (decide (gOp w = 0x11) && decide (g.ncols f < plateCols f))
       else decide (slice w 28 22 ≠ 0) || (m.isInt != f.isInt))
  | _, _ => true

/-- Illegal: control. -/
def badControl (w : Nat) : Bool := decide (7 < gOp w) || decide (gD w ≠ 0) || decide (gMt w ≠ 0)

/-- Illegal by R118, as far as the word and PLEN tell. -/
def illegal (g : Group) (w : Nat) : Bool :=
  match gCls w with
  | 0 | 1 => badInteger w
  | 2 | 3 | 4 => badFp w
  | 5 => badCvt w
  | 6 => badCompare w
  | 7 => badMove w
  | 8 => decide (4 < gOp w) || decide (gMod w ≠ 0)
  | 9 | 0x0A | 0x0B => badMemory w
  | 0x0C => if gOp w = 0x10 ∨ gOp w = 0x11 then badPlateMem g w else badPlate g w
  | 0x0D => badPlate g w
  | 0x0E => badControl w
  | 0x0F => decide (4 < gOp w) || decide (gMod w ≠ 0)
  | 0x10 => decide (1 < gOp w) || decide (gMod w ≠ 0) || !evenReg (gB w) || (decide (gOp w = 1) && !wordsOk (gD w) 4)
  | _ => true

/-! ## Register words with errors (R103) -/

/-- The registers that an instruction reads in each participating thread. -/
def gSources (w : Nat) : List Nat :=
  let one (l : List Nat) : List Nat := l
  let two (l : List Nat) : List Nat := (l.map (fun r => [r, r + 1])).flatten
  let op := gOp w
  let wide := decide (op = 0x0F) || decide (op = 0x10)
  match gCls w with
  | 0 => (if wide then two else one) [gA w, gB w]
  | 1 => (if wide then two else one) [gA w]
  | 2 | 4 => (if 5 ≤ op then [gA w] else if op = 2 then [gA w, gB w, gC w] else [gA w, gB w])
  | 3 => two (if 5 ≤ op then [gA w] else if op = 2 then [gA w, gB w, gC w] else [gA w, gB w])
  | 5 => (if ((cvtFmt (slice (gMod w) 14 10)).getD .fp32).width = 64 then two else one) [gA w] ++
      (if slice (gMod w) 19 18 = 2 then [gB w] else [])
  | 6 => if 0x10 ≤ op then [] else (if 8 ≤ op ∧ op ≤ 0x0B then two else one) [gA w, gB w]
  | 7 => match op with | 0 => [gA w] | 2 => [gA w, gB w] | 4 => [gA w] | _ => []
  | 8 => if op ≤ 1 then [gA w, gB w] else [gA w]
  | 9 => two [gA w]
  | 0x0A => two [gA w] ++ (List.range (memWords op)).map (fun i => gD w + i)
  | 0x0B => two [gA w] ++ (List.range ((if 0x10 ≤ op then 2 else 1) * (if op % 16 = 9 then 2 else 1))).map (fun i => gD w + i)
  | 0x0C => if op = 0x10 ∨ op = 0x11 then [slice w 42 36, slice w 35 29, slice w 28 22] else []
  | 0x0E => match op with | 4 => [1] | 5 => [gA w] | _ => []
  | 0x10 => [gA w, gC w] ++ two [gB w]
  | _ => []

/-- Registers that an instruction writes by whole 8-byte words: none, a pair or a quad from d. -/
def gWhole (w : Nat) : Nat :=
  let op := gOp w
  match gCls w with
  | 0 | 1 => if op = 0x0F ∨ op = 0x10 then 2 else 0
  | 3 => 2
  | 5 => if ((cvtFmt (slice (gMod w) 9 5)).getD .fp32).width = 64 then 2 else 0
  | 9 => if op = 3 then 2 else if op = 4 then 4 else 0
  | 0x0B => if 0x10 ≤ op then 2 else 0
  | 0x10 => if op = 1 then 4 else 0
  | _ => 0

/-- Word of the register file that holds register r of thread l of slot n. -/
def regWord (n l r : Nat) : Nat := 2048 * n + 64 * l + r / 2

/-- The threads whose registers an instruction reads: those that take part, all of them for a lane exchange, the lowest one for a
group-scope instruction (R120). -/
def gReaders (w : Nat) (part : List Nat) : List Nat :=
  if part.isEmpty then [] else if gCls w = 8 then List.range 32 else if gCls w = 0x0C ∨ (gCls w = 7 ∧ gOp w = 4) then part.take 1 else part

/-- Does an instruction read a register word with an uncorrectable error? g0 is no word of the file. -/
def Tile.badSource (t : Tile) (n w : Nat) (part : List Nat) : Bool :=
  !t.regBad.isEmpty && (gReaders w part).any (fun l => (gSources w).any (fun r => decide (r ≠ 0) && t.regBad.contains (regWord n l r)))

/-- Words written in full are good again. -/
def Tile.healRegs (t : Tile) (n w : Nat) (part : List Nat) : Tile :=
  if t.regBad.isEmpty || gWhole w = 0 then t
  else
    let ws := (part.map (fun l => [regWord n l (gD w), regWord n l (gD w + gWhole w - 1)])).flatten
    { t with regBad := t.regBad.filter (fun b => !ws.contains b) }

/-! ## Issue -/

/-- Requester code of a tile group (Table 08-8). -/
def groupAgent (d t : Nat) : Nat := 1 + 16 * (128 * d + t)

/-- Where an instruction runs. -/
structure GxeAt where
  d : Nat
  t : Nat
  n : Nat
  g : Group
  k : Kernel
  w : Nat
  part : List Nat
  deriving DecidableEq, Repr

/-- Put the group back after its instruction. -/
def GxeAt.put (x : GxeAt) (s : State) (g : Group) : State := s.modTile x.d x.t (fun k => k.putSlot x.n g)

/-- A fault code and address, or the state after the instruction. -/
abbrev GxeRes := Except (Nat × Nat) State

/-- Issue a running group's next instruction when it is one of the row's (R103, R113, R118, R127): a fetch fault, an illegal instruction and a
source word with an error fault the group whatever the row; a misaligned pc is illegal (DEDUCED: code is 8-byte aligned). An unmapped, uncorrectable or fenced
access is logged (R25, R103, R230). -/
def State.gxe (s : State) (d t n : Nat) (mine : Nat → Bool) (run : State → GxeAt → GxeRes) : State :=
  let k := s.tile d t
  let g := k.slot n
  match decide (g.st = .running), k.kernel with
  | true, some kern =>
    let pc := g.pc.toNat
    if 2 ^ 21 < pc + 8 then s.groupFault d t n 0x0B pc
    else if pc % 8 ≠ 0 then s.groupFault d t n 1 pc
    else if badWord k.tsBad (pc / 128 * 128) 128 then s.groupFault d t n 5 pc
    else
      let w := leNat (sramRead k.ts pc 8)
      if illegal g w then s.groupFault d t n 1 pc
      else if k.badSource n w (g.part w) then s.groupFault d t n 5 pc
      else if !mine w then s
      else match run s ⟨d, t, n, g, kern, w, g.part w⟩ with
        | .error e =>
          let s := if e.1 = 2 then s.logAccess 0 e.2 (groupAgent d t)
            else if e.1 = 5 ∨ e.1 = 6 then s.logAccess 1 e.2 (groupAgent d t) else s
          s.groupFault d t n e.1 e.2
        | .ok s => if k.regBad.isEmpty then s else s.modTile d t (fun k => k.healRegs n w (g.part w))
  | _, _ => s

/-- Is the word of one class? -/
def isCls (c : Nat) (w : Nat) : Bool := decide (gCls w = c)

/-- Is it of one class and op? -/
def isOp (c o : Nat) (w : Nat) : Bool := decide (gCls w = c) && decide (gOp w = o)

/-- A per-thread instruction without numeric flags. -/
def runThreads (f : GxeAt → Nat → Group → Group) (s : State) (x : GxeAt) : GxeRes :=
  .ok (x.put s (x.part.foldl (fun g l => f x l g) x.g).step)

/-- Seed of the tile's generator (R167). -/
def GxeAt.seed (x : GxeAt) (s : State) : Nat := (s.die x.d).seed.toNat

/-! ## Divergence (R121) -/

/-- Put an entry on the stack below the entries of splits inside its own: the barrier order of R123 can have run a path of an outer split
while paths of inner splits wait, with its entry on top (DEDUCED: notes/assumptions/97). -/
def sinkEntry (l : List StackEntry) (e : StackEntry) : List StackEntry :=
  let inner (y : StackEntry) : Bool := decide (y.saved &&& e.saved = y.saved) && decide (y.saved ≠ e.saved)
  let up := (l.reverse.takeWhile inner).reverse
  l.take (l.length - up.length) ++ [e] ++ up

/-- The pending path of the top entry runs. -/
def Group.takePending (g : Group) (e : StackEntry) : Group :=
  { g with active := e.pendMask, pc := e.pendPc, stack := sinkEntry g.stack.dropLast { e with pendMask := 0 } }

/-- resume of R121, repeated while a path's active mask is empty; none when the group has exited. -/
def Group.resume : Nat → Group → Option Group
  | 0, _ => none
  | n + 1, g =>
    match g.stack.getLast? with
    | none => none
    | some e =>
      if e.pendMask ≠ 0 then some (g.takePending e)
      else
        let g := { g with active := e.saved &&& g.live, pc := e.rpc + 8, stack := g.stack.dropLast }
        if g.active = 0 then Group.resume n g else some g

/-- brd: none on stack overflow. -/
def Group.brd (g : Group) (t : Word) (target rpc : Word) : Option Group :=
  let n := g.active &&& ~~~t
  if n = 0 then some { g with pc := target }
  else if t = 0 then some g.step
  else
    match g.stack.getLast? with
    | some e =>
      if e.rpc = rpc ∧ e.pendMask = 0 then
        some { g with active := n, pc := g.pc + 8, stack := g.stack.dropLast ++ [{ e with pendPc := target, pendMask := t }] }
      else if g.stack.length = 16 then none
      else some { g with active := n, pc := g.pc + 8, stack := g.stack ++ [⟨rpc, g.active, target, t⟩] }
    | none => some { g with active := n, pc := g.pc + 8, stack := g.stack ++ [⟨rpc, g.active, target, t⟩] }

/-- join. -/
def Group.join (g : Group) : Group :=
  match g.stack.getLast? with
  | some e =>
    if e.rpc = g.pc then
      if e.pendMask ≠ 0 then g.takePending e
      else { g with active := e.saved &&& g.live, pc := g.pc + 8, stack := g.stack.dropLast }
    else g.step
  | none => g.step

/-! ## Barriers (R123)

A path whose threads wait keeps its gsync as the place where it stands: as the group's pc, or as the pending side of the top entry
while the other side runs (DEDUCED from R121, R123 and the context format, which holds one pc beside the stack). -/

/-- Barrier ID of a thread. -/
def Group.barrier (g : Group) (l : Nat) : Nat := Map.get 0 g.bid l

/-- All live threads wait at one ID: they leave together. -/
def Group.release (g : Group) : Group :=
  let adv := (g.active &&& ~~~g.bwait) = 0
  { g with
    pc := if adv then g.pc + 8 else g.pc, bwait := 0, bid := [], st := .running, wdog := 0,
    stack := g.stack.map (fun e => if e.pendMask ≠ 0 ∧ (e.pendMask &&& ~~~g.bwait) = 0 then { e with pendPc := e.pendPc + 8 } else e) }

/-- The innermost entry whose pending threads can run: those before it, it, those after it. -/
def Group.runnable (g : Group) : Option (List StackEntry × StackEntry × List StackEntry) :=
  ((List.range g.stack.length).reverse.findSome? (fun i => match g.stack[i]? with
    | some e => if e.pendMask ≠ 0 ∧ (e.pendMask &&& ~~~g.bwait) ≠ 0 then some (g.stack.take i, e, g.stack.drop (i + 1)) else none
    | none => none))

/-- What a barrier leads to once the waiting set changed: completion, divergence (none), another path, or waiting. The path that runs
next is the innermost pending one with a thread that does not wait; the waiting path takes its place in the entry, on top. -/
def Group.settle (g : Group) : Option Group :=
  let waiters := maskBits 32 g.bwait.toNat
  if g.live &&& ~~~g.bwait = 0 then
    if waiters.all (fun l => decide (g.barrier l = g.barrier (waiters.headD 0))) then some g.release else none
  else if g.active &&& ~~~g.bwait ≠ 0 then some g
  else
    match g.runnable with
    | some (lo, e, up) => some { g with active := e.pendMask, pc := e.pendPc, stack := lo ++ up ++ [{ e with pendPc := g.pc, pendMask := g.active }] }
    | none => some { g with st := .waiting }

/-- gsync: none on barrier divergence, some none on stack overflow. -/
def Group.gsync (g : Group) (part : List Nat) (ident : Nat) : Option (Option Group) :=
  let t := maskOf part
  if t = 0 then some (some g.step)
  else
    let g1 := { g with bwait := g.bwait ||| t, bid := part.foldl (fun m l => Map.put 0 m l ident) g.bid }
    let n := g.active &&& ~~~t
    if n = 0 ∨ g1.live &&& ~~~g1.bwait = 0 then (match g1.settle with | some g => some (some g) | none => none)
    else
      match g1.stack.getLast? with
      | some e =>
        if e.pendMask = 0 then
          some (some { g1 with active := n, pc := g.pc + 8, stack := g1.stack.dropLast ++ [{ e with pendPc := g.pc, pendMask := t }] })
        else if g1.stack.length = 16 then some none
        else some (some { g1 with active := n, pc := g.pc + 8, stack := g1.stack ++ [⟨0xFFFFFFFF, g.active, g.pc, t⟩] })
      | none => some (some { g1 with active := n, pc := g.pc + 8, stack := g1.stack ++ [⟨0xFFFFFFFF, g.active, g.pc, t⟩] })

/-- exit: the group after it, none when it is over, some none on barrier divergence among the threads left. -/
def Group.exit (g : Group) (part : List Nat) : Option (Option Group) :=
  let t := maskOf part
  let g1 : Group := { g with
    live := g.live &&& ~~~t, active := g.active &&& ~~~t, bwait := g.bwait &&& ~~~t,
    stack := g.stack.map (fun e => { e with saved := e.saved &&& ~~~t, pendMask := e.pendMask &&& ~~~t }) }
  let next : Option Group := if g1.active = 0 then Group.resume 17 g1 else some g1.step
  match next with
  | none => none
  | some g2 => some (if g2.bwait = 0 then some g2 else g2.settle)

/-! ## Memory (R122, R124) -/

/-- Accesses of a kernel's groups. -/
def GxeAt.acc (x : GxeAt) : Acc := ⟨groupAgent x.d x.t, 0, if x.k.queueKeys then .os else .job, x.k.key, false⟩

/-- The address a thread names, by mtype: a 64-bit physical address, an OC offset or a TS offset. -/
def GxeAt.addr (x : GxeAt) (l : Nat) : Int :=
  let off := signed 32 (gImm x.w)
  match gMt x.w with
  | 2 => ((x.g.reg l (gA x.w) % 2 ^ 18 : Nat) : Int) + off
  | 3 => ((x.g.reg l (gA x.w) % 2 ^ 21 : Nat) : Int) + off
  | _ => (((x.g.pair l (gA x.w) : Nat) : Int) + off) % ((2 ^ 64 : Nat) : Int)

/-- Is an OC range granted to the kernel (R92)? -/
def Kernel.ocGranted (k : Kernel) (a : Int) (n : Nat) : Bool :=
  decide ((k.ocBase : Int) ≤ a) && decide (a + n ≤ ((k.ocBase + k.ocSize : Nat) : Int)) && decide (a + n ≤ 0x40000)

/-- The check of one thread's access: alignment, mapping with its key, grant (R122); a fault code, 0 when it passes. A TS-local access
outside the store is unmapped (DEDUCED). -/
def GxeAt.check (x : GxeAt) (s : State) (n l : Nat) : Nat :=
  let a := x.addr l
  if a % (n : Int) ≠ 0 then 4
  else
    match gMt x.w with
    | 2 => if x.k.ocGranted a n then 0 else 3
    | 3 => if 0 ≤ a ∧ a + n ≤ 0x200000 then 0 else 2
    | _ =>
      if !s.holds x.acc.own x.acc.key then 2
      else match s.place a.toNat with | .mem _ => 0 | .ts _ _ _ => 0 | _ => 2

/-- The first participating thread whose access fails the check: its code and address. -/
def GxeAt.checkAll (x : GxeAt) (s : State) (n : Nat) : Option (Nat × Nat) :=
  (x.part.findSome? (fun l => let c := x.check s n l; if c = 0 then none else some (c, physOf (x.addr l))))

/-- Lines an L1 holds (R124). -/
def l1Lines : Nat := 512

/-- Put a line into the L1; when it is full, the line that goes is a free choice (R124 names no replacement rule). -/
def State.l1Fill (s : State) (d t line : Nat) (l : L1Line) : State :=
  let m := (s.tile d t).l1
  if m.length < l1Lines ∨ (Map.keys m).contains line then s.modTile d t (fun k => { k with l1 := Map.ins k.l1 line l })
  else
    let (v, s) := s.free 9
    let victim := (Map.keys m).getD v.toNat 0
    s.modTile d t (fun k => { k with l1 := Map.ins (Map.del k.l1 victim) line l })

/-- Fault code of a failed access. -/
def faultOf (e : MemErr) : Nat := match e with | .unmapped => 2 | .fenced => 6 | .sram => 5

/-- Does mtype 0 cache this address in the L1: near tier, capacity tier, other tiles' stores? -/
def GxeAt.cached (x : GxeAt) (s : State) (a : Nat) : Bool :=
  decide (gMt x.w = 0) && (match s.place a with | .mem _ => true | .ts d t _ => decide (d ≠ x.d ∨ t ≠ x.t) | _ => false)

/-- Read n bytes at a thread's address. -/
def GxeAt.read (x : GxeAt) (s : State) (n l : Nat) : Except (Nat × Nat) (List Byte) × State :=
  let a := x.addr l
  let k := s.tile x.d x.t
  match gMt x.w with
  | 2 => if badWord k.ocBad a.toNat n then (.error (5, a.toNat), s) else (.ok (sramRead k.oc a.toNat n), s)
  | 3 => if badWord k.tsBad a.toNat n then (.error (5, a.toNat), s) else (.ok (sramRead k.ts a.toNat n), s)
  | _ =>
    let p := a.toNat
    let line := p / 128
    let hit := match (k.l1.find? (fun e => decide (e.1 = line))).map (·.2) with
      | some e => if x.cached s p && decide (e.key = x.k.key) then some e.data else none
      | none => none
    match hit with
    | some l => (.ok (bytesAt l (p % 128) n), s)
    | none =>
      if x.cached s p then
        match s.readMem x.acc (line * 128) 128 with
        | (.ok l, s) => (.ok (bytesAt l (p % 128) n), s.l1Fill x.d x.t line ⟨x.k.key, l⟩)
        | (.error e, s) => (.error (faultOf e.1, if e.1 = .fenced then line * 128 else p), s)
      else
        match s.readMem x.acc p n with
        | (.ok l, s) => (.ok l, s)
        | (.error e, s) => (.error (faultOf e.1, if e.1 = .fenced then line * 128 else p), s)

/-- Read for each participating thread in turn. -/
def GxeAt.readAll (x : GxeAt) (n : Nat) : List Nat → State → Except (Nat × Nat) (List (Nat × List Byte)) × State
  | [], s => (.ok [], s)
  | l :: r, s =>
    match x.read s n l with
    | (.error e, s) => (.error e, s)
    | (.ok b, s) =>
      match x.readAll n r s with
      | (.ok k, s) => (.ok ((l, b) :: k), s)
      | (.error e, s) => (.error e, s)

/-- Write bytes at a thread's address: write-through, an L1 line that hits is updated (R124). A store that a fenced line discards counts as
an abandoned one of the kernel (R196, R231). -/
def GxeAt.write (x : GxeAt) (s : State) (l : Nat) (bytes : List Byte) : State :=
  let a := x.addr l
  match gMt x.w with
  | 2 => s.modTile x.d x.t (fun k => { k with oc := putCells k.oc a.toNat bytes, ocBad := healWords k.ocBad a.toNat bytes.length })
  | 3 => s.modTile x.d x.t (fun k => { k with ts := putCells k.ts a.toNat bytes, tsBad := healWords k.tsBad a.toNat bytes.length })
  | _ =>
    let p := a.toNat
    let (_, s) := s.writeMem x.acc p bytes
    s.modTile x.d x.t (fun k => { k with
      l1 := k.l1.map (fun e =>
      if e.1 = p / 128 then (e.1, { e.2 with data := patch e.2.data (p % 128) bytes }) else e) })

/-- The write half of a combined atomic: the home counts one request for both halves (R209, R218). -/
def GxeAt.atomicWrite (x : GxeAt) (s : State) (l : Nat) (bytes : List Byte) : State :=
  let t := x.write s l bytes
  match decide (gMt x.w ≤ 1), s.place (x.addr l).toNat with
  | true, .mem c =>
    if 12 ≤ c then t
    else t.modDie (c / 3) (fun y => { y with dc := { y.dc with hits := (s.die (c / 3)).dc.hits, misses := (s.die (c / 3)).dc.misses } })
  | _, _ => t

/-- Take a line out of the L1 (an atomic's, R124). -/
def State.l1Drop (s : State) (d t line : Nat) : State := s.modTile d t (fun k => { k with l1 := Map.del k.l1 line })

/-- Invalidate a tile's L1. -/
def State.l1Clear (s : State) (d t : Nat) : State := s.modTile d t (fun k => { k with l1 := [] })

/-! ## Plates -/

/-- Bytes of a plate. -/
def PlateReg.bytes (p : PlateReg) : List Byte :=
  match p.free with
  | some n => leBytes 1024 (Config.freeValue 8192 n).toNat
  | none => bytesAt p.data 0 1024

/-- A plate of a tile. -/
def State.plate (s : State) (d t p : Nat) : List Byte := (Map.get {} (s.tile d t).plates p).bytes

/-- Put a plate; an all-zero plate is the default. -/
def State.putPlate (s : State) (d t p : Nat) (l : List Byte) : State :=
  s.modTile d t (fun k => { k with plates := Map.put {} k.plates p (if l.all (fun b => decide (b = 0)) then {} else ⟨l, none⟩) })

/-- Byte offset of element (r, c) (R93). -/
def plateOff (f : Fmt) (r c : Nat) : Nat := 64 * r + c * (f.width / 8)

/-- Element code of a plate. -/
def plateGet (f : Fmt) (l : List Byte) (r c : Nat) : Nat := fieldAt l (plateOff f r c) (f.width / 8)

/-- Positions inside PLEN, row by row. -/
def Group.positions (g : Group) (f : Fmt) : List (Nat × Nat) :=
  ((List.range g.rows.toNat).map (fun r => (List.range (g.ncols f)).map (fun c => (r, c)))).flatten

/-- Replace the elements at the positions by new codes. -/
def platePut (f : Fmt) (l : List Byte) (ps : List ((Nat × Nat) × Nat)) : List Byte :=
  ps.foldl (fun l p => patch l (plateOff f p.1.1 p.1.2) (leBytes (f.width / 8) p.2)) l

/-- Word of the plates that holds element (r, c) of a plate. -/
def plateWord (f : Fmt) (p : Nat) (q : Nat × Nat) : Nat := 128 * p + plateOff f q.1 q.2 / 8

/-- The first word with an uncorrectable error among the elements read of some plates, as a byte offset in the plates (R103). -/
def Tile.badPlateRead (t : Tile) (f : Fmt) (ps : List Nat) (qs : List (Nat × Nat)) : Option Nat :=
  if t.plateBad.isEmpty then none
  else (ps.findSome? (fun p => (qs.map (plateWord f p)).find? (fun w => t.plateBad.contains w))).map (fun w => 8 * w)

/-- Words of a plate that writing the elements at some positions covers in full are good again. -/
def Tile.healPlate (t : Tile) (f : Fmt) (p : Nat) (qs : List (Nat × Nat)) : Tile :=
  if t.plateBad.isEmpty then t
  else
    let ws := qs.map (plateWord f p)
    { t with plateBad := t.plateBad.filter (fun b => decide ((ws.filter (fun w => decide (w = b))).length < 8 / (f.width / 8))) }

/-- The first plate of a list outside the kernel's mask (R92). -/
def Kernel.badPlateOf (k : Kernel) (ps : List Nat) : Option Nat := ps.find? (fun p => !bit k.plates p)

/-! ## Contexts (Table 05-7) -/

/-- Bytes of a context. -/
def ctxSize : Nat := 16896

/-- A group's context. -/
def Group.context (g : Group) : List Byte :=
  leBytes 2 1 ++ leBytes 2 (1 + 2 * b2n (decide (g.fault ≠ 0))) ++ leBytes 4 g.fault.toNat ++ leBytes 8 g.faultAddr.toNat ++
    leBytes 4 g.pc.toNat ++ leBytes 4 g.live.toNat ++ leBytes 4 g.active.toNat ++ leBytes 4 g.plen ++ leBytes 4 g.bwait.toNat ++
    leBytes 4 g.stack.length ++ leBytes 4 g.handle ++ leBytes 4 g.group ++
    leBytes 16 (((List.range 32).map (fun l => g.barrier l * 2 ^ (4 * l))).sum) ++ leBytes 4 g.wdog.toNat ++ zeros 60 ++
    (List.range 32).map (fun l => Map.get 0 g.preds l ||| 1) ++ zeros 96 ++
    ((List.range 16).map (fun i => match g.stack[i]? with
      | some e => leBytes 4 e.rpc.toNat ++ leBytes 4 e.saved.toNat ++ leBytes 4 e.pendPc.toNat ++ leBytes 4 e.pendMask.toNat
      | none => zeros 16)).flatten ++
    ((List.range 32).map (fun l => ((List.range 128).map (fun r => leBytes 4 (g.reg l r))).flatten)).flatten

/-- Is some field of a saved context out of range (R129)? -/
def ctxBad (c : List Byte) (k : Kernel) : Bool :=
  let plen := fieldAt c 0x1C 4
  let live := fieldAt c 0x14 4
  decide (fieldAt c 0 2 = 0) || decide (4 ≤ fieldAt c 2 2) || decide (0x0B < fieldAt c 4 4) || decide (2 ^ 21 < fieldAt c 0x10 4 + 8) ||
    decide (fieldAt c 0x18 4 &&& live ≠ fieldAt c 0x18 4) || decide (fieldAt c 0x20 4 &&& live ≠ fieldAt c 0x20 4) ||
    decide (4096 ≤ plen) || decide (plen % 32 = 0) || decide (16 < plen % 32) ||
    (!bit plen 11 && (decide (slice plen 10 5 = 0) || decide (32 < slice plen 10 5))) || decide (16 < fieldAt c 0x24 4) ||
    decide (k.groups ≤ fieldAt c 0x2C 4)

/-- A group from its context: it resumes, so it is running and its fault is gone. -/
def ctxGroup (c : List Byte) : Group :=
  let w (o : Nat) : Word := BitVec.ofNat 32 (fieldAt c o 4)
  { st := .running, group := fieldAt c 0x2C 4, handle := fieldAt c 0x28 4, pc := w 0x10, live := w 0x14, active := w 0x18,
    rows := BitVec.ofNat 5 (fieldAt c 0x1C 4), cols := BitVec.ofNat 6 (slice (fieldAt c 0x1C 4) 10 5), full := bit (fieldAt c 0x1C 4) 11,
    bwait := w 0x20, wdog := w 0x40,
    bid := (List.range 32).foldl (fun m l => Map.put 0 m l (fieldAt c 0x30 16 / 2 ^ (4 * l) % 16)) [],
    preds := (List.range 32).foldl (fun m l => Map.put 0 m l (BitVec.ofNat 8 (fieldAt c (0x80 + l) 1 / 2 * 2))) [],
    stack := (List.range (fieldAt c 0x24 4)).map (fun i =>
      ⟨w (0x100 + 16 * i), w (0x104 + 16 * i), w (0x108 + 16 * i), w (0x10C + 16 * i)⟩),
    regs := (List.range 32).foldl (fun m l => (List.range 128).foldl (fun m r =>
      if r = 0 then m else Map.put 0 m (128 * l + r) (w (0x200 + 512 * l + 4 * r))) m) [] }

end Sys2Proof.Machine
end

