-- ==== Sys2Proof/Machine/Gxe.lean ====
section
/-! DEFINITION. The group engine's instructions (05_thread_groups): arithmetic, moves, lanes, memory, plates, control, barriers, random
draws, and the GXE_CTRL actions. Each row issues the group's next instruction when it is one of the row's. -/
namespace Sys2Proof.Machine

/-! ## Arithmetic (Table 05-3) -/

/-- Run a per-thread arithmetic instruction: k result words at d, with the numeric flags of all threads (R52, R115). -/
def runArith (k : GxeAt → Nat) (f : GxeAt → Nat → Nat × NumFlags) (s : State) (x : GxeAt) : GxeRes :=
  let rs := x.part.map (fun l => (l, f x l))
  let g := rs.foldl (fun g r => g.setWords r.1 (gD x.w) (k x) r.2.1) x.g
  .ok ((x.put s g.step).descFlags x.k.src (NumFlags.all (rs.map (fun r => r.2.2))))

/-- Is the integer op a 64-bit form? -/
def intWide (w : Nat) : Bool := decide (gOp w = 0x0F) || decide (gOp w = 0x10)

/-- An integer instruction's result for one thread (classes 0x00 and 0x01). -/
def gxeInt (x : GxeAt) (l : Nat) : Nat × NumFlags :=
  let imm := decide (gCls x.w = 1)
  if intWide x.w then
    (intOp64 (gOp x.w) (x.g.pair l (gA x.w)) (if imm then unsigned 64 (signed 32 (gImm x.w)) else x.g.pair l (gB x.w)), {})
  else (intOp (gOp x.w) (x.g.reg l (gA x.w)) (if imm then gImm x.w else x.g.reg l (gB x.w)), {})

/-- GXE_INTEGER: classes 0x00 and 0x01. -/
def execGxeInteger (d : DieId) (t : TileId) (n : Fin 24) (s : State) : Out :=
  .next (s.gxe d t n (fun w => isCls 0 w || isCls 1 w) (runArith (fun x => if intWide x.w then 2 else 1) gxeInt))

/-- GXE_FP32: class 0x02 (R44, R51). -/
def execGxeFp32 (d : DieId) (t : TileId) (n : Fin 24) (s : State) : Out :=
  .next (s.gxe d t n (isCls 2) (runArith (fun _ => 1) (fun x l =>
    fpOp .fp32 (gFp x.w) (gOp x.w) (x.g.reg l (gA x.w)) (x.g.reg l (gB x.w)) (x.g.reg l (gC x.w)))))

/-- GXE_FP64: class 0x03, on even pairs. -/
def execGxeFp64 (d : DieId) (t : TileId) (n : Fin 24) (s : State) : Out :=
  .next (s.gxe d t n (isCls 3) (runArith (fun _ => 2) (fun x l =>
    fpOp .fp64 (gFp x.w) (gOp x.w) (x.g.pair l (gA x.w)) (x.g.pair l (gB x.w)) (x.g.pair l (gC x.w)))))

/-- A packed 16-bit instruction's result: both halves of each register. -/
def gxePacked (x : GxeAt) (l : Nat) : Nat × NumFlags :=
  let f : Fmt := if bit (gMod x.w) 4 then .fp16 else .bf16
  let a := x.g.reg l (gA x.w)
  let b := x.g.reg l (gB x.w)
  let c := x.g.reg l (gC x.w)
  let lo := fpOp f (gFp x.w) (gOp x.w) (a % 65536) (b % 65536) (c % 65536)
  let hi := fpOp f (gFp x.w) (gOp x.w) (a / 65536) (b / 65536) (c / 65536)
  (lo.1 + 65536 * hi.1, lo.2.join hi.2)

/-- GXE_PACKED16: class 0x04. -/
def execGxePacked16 (d : DieId) (t : TileId) (n : Fin 24) (s : State) : Out :=
  .next (s.gxe d t n (isCls 4) (runArith (fun _ => 1) gxePacked))

/-- cvt's result for one thread (R119). -/
def gxeCvt (x : GxeAt) (l : Nat) : Nat × NumFlags :=
  let m := gMod x.w
  let fa := (cvtFmt (slice m 14 10)).getD .fp32
  let fb := (cvtFmt (slice m 9 5)).getD .fp32
  let o := gFp x.w
  let a := if fa.width = 64 then x.g.pair l (gA x.w) else x.g.reg l (gA x.w) % 2 ^ fa.width
  convert fb ⟨o.mode, o.sat, o.ftzOut⟩ (x.g.reg l (gB x.w) % 65536) (fa.decodeFtz o.ftzIn a)

/-- Result registers of cvt. -/
def cvtWords (x : GxeAt) : Nat := if ((cvtFmt (slice (gMod x.w) 9 5)).getD .fp32).width = 64 then 2 else 1

/-- CVT: class 0x05 (R119). -/
def execCvt (d : DieId) (t : TileId) (n : Fin 24) (s : State) : Out :=
  .next (s.gxe d t n (isCls 5) (runArith cvtWords gxeCvt))

/-- The truth of a compare or predicate instruction for one thread. -/
def gxeRel (x : GxeAt) (l : Nat) : Bool :=
  let op := gOp x.w
  let a := x.g.reg l (gA x.w)
  let b := x.g.reg l (gB x.w)
  let pa := x.g.pred l (gA x.w % 8)
  let pb := x.g.pred l (gB x.w % 8)
  if op < 4 then intRel op (signed 32 a) (signed 32 b)
  else if op < 8 then fpRel (op - 4) (Fmt.fp32.decode a) (Fmt.fp32.decode b)
  else if op < 0x0C then fpRel (op - 8) (Fmt.fp64.decode (x.g.pair l (gA x.w))) (Fmt.fp64.decode (x.g.pair l (gB x.w)))
  else match op with
    | 0x0C => decide (a < b)
    | 0x0D => decide (a ≤ b)
    | 0x10 => pa && pb
    | 0x11 => pa || pb
    | 0x12 => pa != pb
    | _ => !pa

/-- GXE_COMPARE: class 0x06. -/
def execGxeCompare (d : DieId) (t : TileId) (n : Fin 24) (s : State) : Out :=
  .next (s.gxe d t n (isCls 6) (runThreads (fun x l g => g.setPred l (gD x.w % 8) (gxeRel x l))))

/-! ## Moves and special registers (Table 05-4) -/

/-- The value that mov, movi or sel writes. -/
def gxeMov (x : GxeAt) (l : Nat) : Nat × NumFlags :=
  (match gOp x.w with
   | 0 => x.g.reg l (gA x.w)
   | 1 => gImm x.w
   | _ => if x.g.pred l (gC x.w % 8) then x.g.reg l (gA x.w) else x.g.reg l (gB x.w), {})

/-- MOV: mov, movi, sel. -/
def execMov (d : DieId) (t : TileId) (n : Fin 24) (s : State) : Out :=
  .next (s.gxe d t n (fun w => isCls 7 w && decide (gOp w < 3)) (runArith (fun _ => 1) gxeMov))

/-- A special register, by imm32[7:0]. -/
def gxeSpecial (s : State) (x : GxeAt) (l : Nat) : Nat :=
  match gImm x.w % 256 with
  | 0 => l
  | 1 => x.g.group
  | 2 => x.k.groups
  | 3 => x.t
  | 4 => x.d
  | 5 => s.fabric.node.toNat
  | 6 => x.k.args % 2 ^ 32
  | 7 => x.k.args / 2 ^ 32
  | 8 => s.timeNs % 2 ^ 32
  | 9 => x.g.timeHi.toNat
  | 0x0A => x.g.plen
  | _ => x.k.seedId

/-- RDSP: TIME is read as a whole at the read of its low half. -/
def execRdsp (d : DieId) (t : TileId) (n : Fin 24) (s : State) : Out :=
  .next (s.gxe d t n (isOp 7 3) (fun s x =>
    let g := if gImm x.w % 256 = 8 ∧ x.part ≠ [] then { x.g with timeHi := BitVec.ofNat 32 (s.timeNs / 2 ^ 32) } else x.g
    .ok (x.put s (x.part.foldl (fun g l => g.setReg l (gD x.w) (gxeSpecial s x l)) g).step)))

/-- SETPLEN: rows and columns from register a of the lowest participating thread, in the layout of the context (R120). -/
def execSetplen (d : DieId) (t : TileId) (n : Fin 24) (s : State) : Out :=
  .next (s.gxe d t n (isOp 7 4) (fun s x =>
    .ok (x.put s (match x.part with
      | l :: _ =>
        let v := x.g.reg l (gA x.w)
        ({ x.g with rows := BitVec.ofNat 5 v, cols := BitVec.ofNat 6 (v / 32), full := bit v 11 } : Group).step
      | [] => x.g.step))))

/-- Threads whose a is nonzero among those that take part (R120). -/
def gxeVote (x : GxeAt) : List Nat := x.part.filter (fun l => decide (x.g.reg l (gA x.w) ≠ 0))

/-- The value a lane exchange writes to one thread. -/
def gxeLane (x : GxeAt) (l : Nat) : Nat × NumFlags :=
  (match gOp x.w with
   | 0 | 1 => x.g.reg (x.g.reg l (gB x.w) % 32) (gA x.w)
   | 2 => (maskOf (gxeVote x)).toNat
   | 3 => b2n (!(gxeVote x).isEmpty)
   | _ => b2n (decide (gxeVote x = x.part)), {})

/-- SHFL: class 0x08. -/
def execShfl (d : DieId) (t : TileId) (n : Fin 24) (s : State) : Out :=
  .next (s.gxe d t n (isCls 8) (runArith (fun _ => 1) gxeLane))

/-! ## Memory (R122, R124, R125) -/

/-- The register value of loaded bytes: ops 5 and 6 extend the sign. -/
def loadValue (op : Nat) (b : List Byte) : Nat :=
  match op with
  | 5 => unsigned 32 (signed 8 (leNat b))
  | 6 => unsigned 32 (signed 16 (leNat b))
  | _ => leNat b

/-- GXE_LOAD: every participating thread is checked before any access. -/
def execGxeLoad (d : DieId) (t : TileId) (n : Fin 24) (s : State) : Out :=
  .next (s.gxe d t n (isCls 9) (fun s x =>
    let op := gOp x.w
    match x.checkAll s (memBytes op) with
    | some e => .error e
    | none =>
      match x.readAll (memBytes op) x.part s with
      | (.error e, _) => .error e
      | (.ok rs, s) => .ok (x.put s (rs.foldl (fun g r => g.setWords r.1 (gD x.w) (memWords op) (loadValue op r.2)) x.g).step)))

/-- GXE_STORE: in ascending thread order, so the highest thread's value stays (R122). -/
def execGxeStore (d : DieId) (t : TileId) (n : Fin 24) (s : State) : Out :=
  .next (s.gxe d t n (isCls 0x0A) (fun s x =>
    let op := gOp x.w
    match x.checkAll s (memBytes op) with
    | some e => .error e
    | none =>
      let s := x.part.foldl (fun s l => x.write s l (leBytes (memBytes op) (x.g.words l (gD x.w) (memWords op)))) s
      .ok (x.put s x.g.step)))

/-- The same access without the L1 (R124: atomics bypass it). -/
def GxeAt.bypass (x : GxeAt) : GxeAt := if gMt x.w = 0 then { x with w := x.w + 2 ^ 32 } else x

/-- The threads of an atomic by address, in ascending order of the lowest thread that names each (R125); fuel is their number. -/
def GxeAt.byAddr (x : GxeAt) : Nat → List Nat → List (List Nat)
  | 0, _ => []
  | _, [] => []
  | n + 1, l :: r =>
    let same (k : Nat) : Bool := decide (x.addr k = x.addr l)
    (l :: r.filter same) :: x.byAddr n (r.filter (fun k => !same k))

/-- The threads' operations on one value, one at a time in ascending thread order: the value left and what each thread gets. -/
def GxeAt.combine (x : GxeAt) (n : Nat) : List Nat → Nat → Nat × List (Nat × Nat)
  | [], v => (v, [])
  | l :: r, v =>
    let k := n / 4
    let w := atomicValue (8 * n) (gOp x.w % 16) v (x.g.words l (gD x.w) k) (x.g.words l (gD x.w + k) k)
    let t := x.combine n r w
    (t.1, (l, v) :: t.2)

/-- One combined memory operation on an address: each thread's old value goes to its d (R125). -/
def GxeAt.atomicOne (x : GxeAt) (n : Nat) (sg : State × Group) (ls : List Nat) : State × Group :=
  match x.bypass.read sg.1 n (ls.headD 0) with
  | (.ok b, s) =>
    let r := x.combine n ls (leNat b)
    (x.atomicWrite s (ls.headD 0) (leBytes n r.1), r.2.foldl (fun g e => g.setWords e.1 (gD x.w) (n / 4) e.2) sg.2)
  | (.error _, s) => (s, sg.2)

/-- GXE_ATOMIC (R125): one memory operation for each address. -/
def execGxeAtomic (d : DieId) (t : TileId) (n : Fin 24) (s : State) : Out :=
  .next (s.gxe d t n (isCls 0x0B) (fun s x =>
    let size := if 0x10 ≤ gOp x.w then 8 else 4
    match x.checkAll s size with
    | some e => .error e
    | none =>
      match x.bypass.readAll size x.part s with
      | (.error e, _) => .error e
      | (.ok _, _) =>
        let (s, g) := (x.byAddr 32 x.part).foldl (x.atomicOne size) (s, x.g)
        let s := if gMt x.w ≤ 1 then x.part.foldl (fun s l => s.l1Drop x.d x.t ((x.addr l).toNat / 128)) s else s
        .ok (x.put s g.step)))

/-! ## Plates (R93 to R97, R100, R117) -/

/-- The immediate form? -/
def plateImm (w : Nat) : Bool := decide (gCls w = 0x0D)

/-- Plates that a plate operation or lookup touches: d, a, then the operands its op reads. -/
def plateOperands (w : Nat) : List Nat :=
  let d := slice w 47 43
  let a := slice w 42 38
  let b := slice w 37 33
  let c := slice w 32 28
  if plateImm w then [d, a]
  else match gOp w with
    | 2 | 4 => [d, a, b, c]
    | 3 => [d, a, c]
    | 0x0D => if pFmt w = some .fp64 then [d, a, b, b + 1] else [d, a, b]
    | _ => [d, a, b]

/-- The first plate word with an error that a plate instruction reads: the operands' elements inside PLEN, all of a lookup's table. -/
def badPlateSource (s : State) (x : GxeAt) : Option Nat :=
  let f := (pFmt x.w).getD .fp32
  let all := ((List.range 16).map (fun r => (List.range (plateCols f)).map (fun c => (r, c)))).flatten
  let t := s.tile x.d x.t
  let ps := (plateOperands x.w).drop 1
  if gOp x.w = 0x0D ∧ gCls x.w = 0x0C then (t.badPlateRead f (ps.take 1) (x.g.positions f)).or (t.badPlateRead f (ps.drop 1) all)
  else t.badPlateRead f ps (x.g.positions f)

/-- A plate instruction: once for the group when a thread takes part, on plates that the launch granted (R92), whose words read without
an uncorrectable error (R103; the fault address is the word's byte offset in the plates, DESIGN CHOICE: notes/assumptions/98). -/
def runPlate (f : State → GxeAt → Nat → State) (ps : Nat → List Nat) (s : State) (x : GxeAt) : GxeRes :=
  match x.part with
  | [] => .ok (x.put s x.g.step)
  | l :: _ =>
    match x.k.badPlateOf (ps x.w) with
    | some p => .error (3, p)
    | none =>
      match badPlateSource s x with
      | some a => .error (5, a)
      | none => .ok (x.put (f s x l) x.g.step)

/-- New element codes at the positions of PLEN. -/
def plateResult (s : State) (x : GxeAt) (f : Fmt) : List ((Nat × Nat) × (Nat × NumFlags)) :=
  let w := x.w
  let op := gOp w
  let rnd : Rnd := if bit w (if plateImm w then 34 else 24) then .rtz else .rne
  let pl (p : Nat) := s.plate x.d x.t p
  let a := pl (slice w 42 38)
  let b := pl (slice w 37 33)
  let c := pl (slice w 32 28)
  (x.g.positions f).map (fun p =>
    let ea := plateGet f a p.1 p.2
    let eb := if plateImm w then scalarCode f (gImm w) else plateGet f (if op = 3 then c else b) p.1 p.2
    (p, plateElem f op (slice w 37 33) rnd ea eb (plateGet f c p.1 p.2)))

/-- Write the results at their positions and join their flags. -/
def plateStoreBack (s : State) (x : GxeAt) (f : Fmt) (rs : List ((Nat × Nat) × (Nat × NumFlags))) : State :=
  let d := slice x.w 47 43
  let s := s.putPlate x.d x.t d (platePut f (s.plate x.d x.t d) (rs.map (fun r => (r.1, r.2.1))))
  (s.modTile x.d x.t (fun k => k.healPlate f d (rs.map (·.1)))).descFlags x.k.src (NumFlags.all (rs.map (fun r => r.2.2)))

/-- PLATE_OP: classes 0x0C and 0x0D, ops 0x00 to 0x0C. The immediate form has no place for the third operand of fma and sel or for the
condition of cmp, so the elements those would write are free values. -/
def execPlateOp (d : DieId) (t : TileId) (n : Fin 24) (s : State) : Out :=
  .next (s.gxe d t n (fun w => (isCls 0x0C w || isCls 0x0D w) && decide (gOp w ≤ 0x0C)) (runPlate (fun s x _ =>
    match pFmt x.w with
    | some f =>
      if plateImm x.w && [2, 3, 4].contains (gOp x.w) then
        let (v, s) := s.free 8192
        plateStoreBack s x f ((x.g.positions f).map (fun p => (p, (plateGet f (leBytes 1024 v.toNat) p.1 p.2, {}))))
      else plateStoreBack s x f (plateResult s x f)
    | none => s) plateOperands))

/-- Entry i of a lookup table (R97). -/
def tableEntry (f : Fmt) (lo hi : List Byte) (i : Nat) : Nat :=
  match f.width with
  | 32 => plateGet f lo (i / 16) (i % 16)
  | 16 => plateGet f lo (i / 32) (i % 32)
  | _ => plateGet f (if i < 128 then lo else hi) (i % 128 / 8) (i % 8)

/-- PLATE_LOOKUP: op 0x0D (R97). -/
def execPlateLookup (d : DieId) (t : TileId) (n : Fin 24) (s : State) : Out :=
  .next (s.gxe d t n (isOp 0x0C 0x0D) (runPlate (fun s x _ =>
    match pFmt x.w with
    | some f =>
      let a := s.plate x.d x.t (slice x.w 42 38)
      let b := slice x.w 37 33
      let lo := s.plate x.d x.t b
      let hi := s.plate x.d x.t (b + 1)
      plateStoreBack s x f ((x.g.positions f).map (fun p =>
        (p, (tableEntry f lo hi (lookupIndex (slice x.w 32 28) (plateGet f a p.1 p.2)), {}))))
    | none => s) plateOperands))

/-- The fields of a plate load or store (R117), registers read from the lowest participating thread. -/
structure PlateMem where
  plate : Nat
  a : Int
  b : Int
  c : Int
  mf : Fmt
  pf : Fmt
  o : CvtOpts
  ftzIn : Bool
  deriving DecidableEq, Repr

/-- Read them. -/
def plateMem (x : GxeAt) (l : Nat) : PlateMem :=
  let w := x.w
  { plate := slice w 47 43, a := (x.g.reg l (slice w 42 36) : Nat), b := signed 32 (x.g.reg l (slice w 35 29)),
    c := (x.g.reg l (slice w 28 22) : Nat), mf := (Fmt.ofCode (slice w 21 17)).getD .fp32, pf := (plateFmt (slice w 16 14)).getD .fp32,
    o := ⟨if bit w 13 then .rtz else .rne, bit w 12, bit w 10⟩, ftzIn := bit w 11 }

/-- OC ranges (start, bytes) of the rows and scales of a plate transfer. -/
def PlateMem.spans (m : PlateMem) (g : Group) : List (Int × Nat) :=
  ((List.range g.rows.toNat).map (fun (r : Nat) =>
    let row := (m.a + r * m.b, cdiv (g.ncols m.pf * m.mf.width) 8)
    if m.mf.isMx then [row, (m.c + r, 1)] else [row])).flatten

/-- The checks of R117 and R92: plate granted, a, b and c multiples of 8, every byte granted; every word read good (R103). -/
def PlateMem.fault (m : PlateMem) (s : State) (x : GxeAt) (load : Bool) : Option (Nat × Nat) :=
  match x.k.badPlateOf [m.plate] with
  | some p => some (3, p)
  | none =>
    match [m.a, m.b, m.c].find? (fun v => decide (v % 8 ≠ 0)) with
    | some v => some (4, physOf v)
    | none =>
      match (m.spans x.g).find? (fun p => !x.k.ocGranted p.1 p.2) with
      | some p => some (3, physOf p.1)
      | none =>
        if load then
          match (m.spans x.g).find? (fun p => badWord (s.tile x.d x.t).ocBad p.1.toNat p.2) with
          | some p => some (5, physOf p.1)
          | none => none
        else ((s.tile x.d x.t).badPlateRead m.pf [m.plate] (x.g.positions m.pf)).map (fun a => (5, a))

/-- A plate transfer: once for the group when a thread takes part. -/
def runPlateMem (load : Bool) (f : State → GxeAt → PlateMem → State) (s : State) (x : GxeAt) : GxeRes :=
  match x.part with
  | [] => .ok (x.put s x.g.step)
  | l :: _ =>
    let m := plateMem x l
    match m.fault s x load with
    | some e => .error e
    | none => .ok (x.put (f s x m) x.g.step)

/-- PLATE_LOAD: op 0x10 (R94, R117): the conversion takes rnd, saturate and ftz_in. -/
def execPlateLoad (d : DieId) (t : TileId) (n : Fin 24) (s : State) : Out :=
  .next (s.gxe d t n (isOp 0x0C 0x10) (runPlateMem true (fun s x m =>
    let oc := (s.tile x.d x.t).oc
    let cols := x.g.ncols m.pf
    let rs := ((List.range x.g.rows.toNat).map (fun (r : Nat) =>
      let bytes := sramRead oc (m.a + r * m.b).toNat (cdiv (cols * m.mf.width) 8)
      let sc := if m.mf.isMx then some (Map.get 0 oc (m.c + r).toNat).toNat else none
      ((unpackRow m.mf.width cols bytes).zip (List.range cols)).map (fun e =>
        ((r, e.2), loadElem m.pf m.mf { m.o with ftzOut := false } m.ftzIn sc 0x3F800000 e.1)))).flatten
    let p := s.plate x.d x.t m.plate
    let s := s.putPlate x.d x.t m.plate (platePut m.pf p (rs.map (fun r => (r.1, r.2.1))))
    (s.modTile x.d x.t (fun k => k.healPlate m.pf m.plate (rs.map (·.1)))).descFlags x.k.src (NumFlags.all (rs.map (fun r => r.2.2))))))

/-- Element codes, scale bytes and flags of one stored row: bits unchanged into the plate format, else converted (R94). -/
def plateStoreRow (m : PlateMem) (codes : List Nat) : List Nat × List Nat × NumFlags :=
  if m.mf = m.pf then (codes.map (flushCode m.pf m.o.ftzOut), [], {})
  else encodeRow m.mf m.o 0x3F800000 (codes.map (fun c => (m.pf.decode c, false))) (List.replicate codes.length 0)

/-- PLATE_STORE: op 0x11 (R94, R41, R117). -/
def execPlateStore (d : DieId) (t : TileId) (n : Fin 24) (s : State) : Out :=
  .next (s.gxe d t n (isOp 0x0C 0x11) (runPlateMem false (fun s x m =>
    let cols := x.g.ncols m.pf
    let p := s.plate x.d x.t m.plate
    let rows := (List.range x.g.rows.toNat).map (fun r =>
      (r, plateStoreRow m ((List.range cols).map (fun c => plateGet m.pf p r c))))
    let put (oc : Map Byte) (r : Nat × (List Nat × List Nat × NumFlags)) : Map Byte :=
      let base := (m.a + r.1 * m.b).toNat
      let oc := (r.2.1.zip (List.range cols)).foldl (fun oc e => putBits oc (8 * base + e.2 * m.mf.width) m.mf.width e.1) oc
      match r.2.2.1 with
      | sc :: _ => putCells oc (m.c + r.1).toNat [BitVec.ofNat 8 sc]
      | [] => oc
    let s := s.modTile x.d x.t (fun k => { k with
      oc := rows.foldl put k.oc, ocBad := (m.spans x.g).foldl (fun bad q => healWords bad q.1.toNat q.2) k.ocBad })
    s.descFlags x.k.src (NumFlags.all (rows.map (fun r => r.2.2.2))))))

/-! ## Control (R121) -/

/-- Does the guard split the active threads? -/
def GxeAt.mixed (x : GxeAt) : Bool := !x.part.isEmpty && decide (maskOf x.part ≠ x.g.active)

/-- A uniform jump: illegal when the guard or the targets disagree; falls through when no thread takes part. -/
def runJump (f : GxeAt → Nat → Word) (change : GxeAt → Group → Group) (s : State) (x : GxeAt) : GxeRes :=
  match x.part with
  | [] => .ok (x.put s x.g.step)
  | l :: r =>
    if x.mixed || r.any (fun k => decide (f x k ≠ f x l)) then .error (1, x.g.pc.toNat)
    else .ok (x.put s { change x x.g with pc := f x l })

/-- BRA: 32-bit relative target. -/
def execBra (d : DieId) (t : TileId) (n : Fin 24) (s : State) : Out :=
  .next (s.gxe d t n (isOp 0x0E 0) (runJump (fun x _ => x.g.rel 32 (gImm x.w)) (fun _ g => g)))

/-- BRD. -/
def execBrd (d : DieId) (t : TileId) (n : Fin 24) (s : State) : Out :=
  .next (s.gxe d t n (isOp 0x0E 1) (fun s x =>
    match x.g.brd (maskOf x.part) (x.g.rel 16 (gImm x.w / 65536)) (x.g.rel 16 (gImm x.w)) with
    | some g => .ok (x.put s g)
    | none => .error (9, x.g.pc.toNat)))

/-- JOIN. -/
def execJoin (d : DieId) (t : TileId) (n : Fin 24) (s : State) : Out :=
  .next (s.gxe d t n (isOp 0x0E 2) (fun s x => .ok (x.put s x.g.join)))

/-- CALL: the return address goes to g1. -/
def execCall (d : DieId) (t : TileId) (n : Fin 24) (s : State) : Out :=
  .next (s.gxe d t n (isOp 0x0E 3) (runJump (fun x _ => x.g.rel 32 (gImm x.w)) (fun x g =>
    x.part.foldl (fun g l => g.setReg l 1 (x.g.pc + 8).toNat) g)))

/-- RET: to the address in g1. -/
def execRet (d : DieId) (t : TileId) (n : Fin 24) (s : State) : Out :=
  .next (s.gxe d t n (isOp 0x0E 4) (runJump (fun x l => BitVec.ofNat 32 (x.g.reg l 1)) (fun _ g => g)))

/-- JMPI: to the tile-store offset in register a. -/
def execJmpi (d : DieId) (t : TileId) (n : Fin 24) (s : State) : Out :=
  .next (s.gxe d t n (isOp 0x0E 5) (runJump (fun x l => BitVec.ofNat 32 (x.g.reg l (gA x.w))) (fun _ g => g)))

/-- EXIT (R110, R121, R123). -/
def execExit (d : DieId) (t : TileId) (n : Fin 24) (s : State) : Out :=
  .next (s.gxe d t n (isOp 0x0E 6) (fun s x =>
    match x.g.exit x.part with
    | none => .ok (s.modTile x.d x.t (fun k => k.groupOver x.n))
    | some none => .error (7, x.g.pc.toNat)
    | some (some g) => .ok (x.put s g)))

/-- GXE_NOP. -/
def execGxeNop (d : DieId) (t : TileId) (n : Fin 24) (s : State) : Out :=
  .next (s.gxe d t n (isOp 0x0E 7) (fun s x => .ok (x.put s x.g.step)))

/-! ## Synchronisation (R123, R187 to R189, R196) -/

/-- GSYNC. -/
def execGsync (d : DieId) (t : TileId) (n : Fin 24) (s : State) : Out :=
  .next (s.gxe d t n (isOp 0x0F 0) (fun s x =>
    match x.g.gsync x.part (gB x.w % 16) with
    | none => .error (7, x.g.pc.toNat)
    | some none => .error (9, x.g.pc.toNat)
    | some (some g) => .ok (x.put s g)))

/-- GSYNC_WATCHDOG: a thread of the group has waited 2^20 TCLK cycles. -/
def execGsyncWatchdog (d : DieId) (t : TileId) (n : Fin 24) (s : State) : Out :=
  let g := (s.tile d t).slot n
  if g.bwait = 0 ∨ (g.st ≠ .running ∧ g.st ≠ .waiting) then .next s
  else .next ((s.modTile d t (fun k => k.putSlot n { g with wdog := 0x100000 })).groupFault d t n 8 g.pc.toNat)

/-- BAR_T: orders the tile's own accesses, which the model performs in order. -/
def execBarT (d : DieId) (t : TileId) (n : Fin 24) (s : State) : Out :=
  .next (s.gxe d t n (isOp 0x0F 1) (fun s x => .ok (x.put s x.g.step)))

/-- BAR_D: the L1 is invalidated after the wait. -/
def execBarD (d : DieId) (t : TileId) (n : Fin 24) (s : State) : Out :=
  .next (s.gxe d t n (isOp 0x0F 2) (fun s x => .ok (if x.part.isEmpty then x.put s x.g.step else (x.put s x.g.step).l1Clear x.d x.t)))

/-- BAR_S: a cumulative system-scope release; it delivers an abandoned store of the kernel's groups (R195, R196). -/
def execBarS (d : DieId) (t : TileId) (n : Fin 24) (s : State) : Out :=
  .next (s.gxe d t n (isOp 0x0F 3) (fun s x =>
    if x.part.isEmpty then .ok (x.put s x.g.step)
    else
      let s := (s.release).l1Clear x.d x.t
      match (s.tile x.d x.t).barErr with
      | [] => .ok (x.put s x.g.step)
      | a :: r => .ok ((s.modTile x.d x.t (fun k => { k with barErr := [] })).groupFault x.d x.t x.n 0x0A (r.foldl min a))))

/-- L1INV: group-scope. -/
def execL1inv (d : DieId) (t : TileId) (n : Fin 24) (s : State) : Out :=
  .next (s.gxe d t n (isOp 0x0F 4) (fun s x => .ok (if x.part.isEmpty then x.put s x.g.step else (x.put s x.g.step).l1Clear x.d x.t)))

/-! ## Random draws (R173) -/

/-- RAND32: word F mod 4 of draw F >> 2. -/
def execRand32 (d : DieId) (t : TileId) (n : Fin 24) (s : State) : Out :=
  .next (s.gxe d t n (isOp 0x10 0) (fun s x => runThreads (fun x l g =>
    g.setReg l (gD x.w) (rand32 (x.seed s) (x.g.reg l (gA x.w)) (x.g.reg l (gC x.w)) (x.g.pair l (gB x.w)))) s x))

/-- RAND128: the four words of one draw. -/
def execRand128 (d : DieId) (t : TileId) (n : Fin 24) (s : State) : Out :=
  .next (s.gxe d t n (isOp 0x10 1) (fun s x => runThreads (fun x l g =>
    g.setWords l (gD x.w) 4 (draw (x.seed s) (x.g.reg l (gA x.w)) (x.g.reg l (gC x.w)) (x.g.pair l (gB x.w)))) s x))

/-! ## GXE_CTRL (R128, R129) -/

/-- Set the result of an action. -/
def State.ctrlDone (s : State) (d t result slot : Nat) : State :=
  s.modTile d t (fun k => { k with ctrlResult := BitVec.ofNat 4 result, ctrlSlot := BitVec.ofNat 5 slot })

/-- An action on a parked slot; result 2 on any other. -/
def State.onParked (s : State) (d t n : Nat) (f : Group → State → State) : State :=
  let g := (s.tile d t).slot n
  if n < groupSlots ∧ g.st = .parked then f g s else s.ctrlDone d t 2 n

/-- GXE_REPLAY: the group resumes at its faulting instruction. -/
def execGxeReplay (d : DieId) (t : TileId) (n : Fin 32) (s : State) : Out :=
  .next (s.onParked d t n (fun g s =>
    (s.modTile d t (fun k => k.putSlot n { g with st := .running, fault := 0, faultAddr := 0 })).ctrlDone d t 0 n))

/-- Accesses for a kernel's contexts. -/
def Kernel.acc (k : Kernel) (d t : Nat) : Acc := ⟨groupAgent d t, 0, if k.queueKeys then .os else .job, k.key, false⟩

/-- Address of the context area (GXE_CTX_ADDR). -/
def Tile.ctxBase (t : Tile) : Nat := slice t.ctxAddr.toNat 47 7 * 128

/-- GXE_SAVE: the context goes to memory and the slot is free. -/
def execGxeSave (d : DieId) (t : TileId) (n : Fin 32) (s : State) : Out :=
  .next (s.onParked d t n (fun g s =>
    match (s.tile d t).kernel with
    | none => s.ctrlDone d t 4 n
    | some k =>
      match s.writeMem (k.acc d t) (s.tile d t).ctxBase g.context with
      | (none, s) => (s.modTile d t (fun x => x.putSlot n {})).ctrlDone d t 0 n
      | (some _, s) => s.ctrlDone d t 7 n))

/-- GXE_DISCARD: the group counts as exited and its kernel as incomplete. -/
def execGxeDiscard (d : DieId) (t : TileId) (n : Fin 32) (s : State) : Out :=
  .next (s.onParked d t n (fun _ s =>
    let job := match (s.tile d t).kernel with | some k => k.src.isStream | none => false
    let s := s.modTile d t (fun x => ({ x with kernel := x.kernel.map (fun k => { k with incomplete := true }) } : Tile).groupOver n)
    (if job then s.modJob (fun j => { j with kernelIncomplete := true }) else s).ctrlDone d t 0 n))

/-- GXE_RESTORE: refused by version, kernel or format in that order; then into the lowest free slot. -/
def execGxeRestore (d : DieId) (t : TileId) (s : State) : Out :=
  .next (match (s.tile d t).kernel with
    | none => s.ctrlDone d t 4 0
    | some k =>
      match s.readMem (k.acc d t) (s.tile d t).ctxBase ctxSize with
      | (.error _, s) => s.ctrlDone d t 7 0
      | (.ok c, s) =>
        if 1 < fieldAt c 0 2 then s.ctrlDone d t 3 0
        else if fieldAt c 0x28 4 ≠ k.handle then s.ctrlDone d t 4 0
        else if ctxBad c k then s.ctrlDone d t 5 0
        else
          match (s.tile d t).freeSlot with
          | none => s.ctrlDone d t 6 0
          | some n => (s.modTile d t (fun x => x.putSlot n (ctxGroup c))).ctrlDone d t 0 n)

end Sys2Proof.Machine
end

