-- ==== Sys2Proof/Machine/Coherence.lean ====
section
/-! DEFINITION. The rows of the directory protocol (09_coherence_and_caches, R206 to R215): requests, snoops, answers, write-backs; the cores'
accesses that lie behind them (R24, R25, R179 to R181, R194, R230); and the die cache's own events (R220 to R222). -/
namespace Sys2Proof.Machine

/-! ## Cores -/

/-- Agent code of a hart. -/
def hartAgent (h : Nat) : Nat := 16 * h

/-- The key ID of a hart's access (R313): bits [59:54] of the page's leaf PTE while jlcfg.kid_en is 1, else 0. A command names the PTE's bits, 0 in Bare
mode and in M-mode. -/
def State.pageKey (s : State) (h key : Nat) : Nat := if (s.hart h).kidEn then key else 0

/-- Accesses of a hart under a key ID. -/
def hartAcc (h key : Nat) : Acc := ⟨hartAgent h, 2, .core, key, false⟩

/-- The bytes of a line that a mask selects, as runs (first byte, length), for units with no masked write. -/
def maskRuns (mask : Nat) : List (Nat × Nat) :=
  ((List.range 128).filter (fun i => bit mask i && !(decide (0 < i) && bit mask (i - 1)))).map (fun i =>
    (i, ((List.range (128 - i)).find? (fun n => !bit mask (i + n))).getD (128 - i)))

/-- Write the bytes of a line that a mask selects: false when the address is unmapped or the key is not held. -/
def State.writeMasked (s : State) (acc : Acc) (line mask : Nat) (data : List Byte) : Bool × State :=
  if !s.holds acc.own acc.key then (false, s.logAccess 0 (128 * line) acc.agent)
  else
    match s.place (line * 128) with
    | .mem c =>
      match s.coherentWrite acc c line mask data with
      | (true, s) => (true, s)
      | (false, s) => (true, (s.discard (line * 128) acc.agent (if acc.agent % 16 = 0 then 1 else 0)).storePend (line * 128) acc.agent)
    | .ts _ _ _ => (true, (maskRuns mask).foldl (fun s r => (s.writeMem acc (line * 128 + r.1) (bytesAt data r.1 r.2)).2) s)
    | _ => (false, s.logAccess 0 (128 * line) acc.agent)

/-- A write-combining buffer goes to the home as a WR_FULL or a WR_PART (R181): true when its address takes the unmapped response. -/
def State.wcDrain (s : State) (h b : Nat) : Bool × State :=
  let w := Map.get {} (s.hart h).wc b
  if !w.valid then (false, s)
  else
    let r := (s.modHart h (fun x => { x with wc := Map.put {} x.wc b {} })).writeMasked (hartAcc h w.key) w.line w.mask.toNat w.data
    (!r.1, r.2)

/-- All eight buffers of a hart. -/
def State.wcDrainAll (s : State) (h : Nat) : State := (List.range 8).foldl (fun s b => (s.wcDrain h b).2) s

/-- A hart takes an exception: its buffers drain (R181) and its reservation is lost (R194). -/
def State.trap (s : State) (h cause tval : Nat) : State :=
  (s.wcDrainAll h).modHart h (fun x => { x with cause := some cause, tval := tval, reservation := none })

/-- Memory type of a core's access (Table 08-3, R24, R180). -/
inductive MemType where
  | normal | nc | device
  deriving DecidableEq, Repr

/-- The type: the tile-store range is Normal-NC and the device-register range Device, whatever the page says. -/
def State.coreType (s : State) (addr : Nat) (p : Pbmt) : MemType :=
  match s.place addr with
  | .ts _ _ _ => .nc
  | .dev => .device
  | _ => match p with | .pma => .normal | .nc => .nc | .io => .device

/-- Exception cause of a core's access fault (PRESUMED: RISC-V's numbers): instruction 1, load 5, store/AMO 7. -/
def accessCause (k : CoreKind) : Nat := match k with | .fetch => 1 | .load => 5 | .lr => 5 | _ => 7

/-- A store of a core that gathers or drains a buffer meets an access fault at it (R25). -/
def State.wcEvict (s : State) (h b : Nat) : State :=
  let line := (Map.get {} (s.hart h).wc b).line
  match s.wcDrain h b with
  | (true, s) => s.trap h 7 (128 * line)
  | (false, s) => s

/-- A buffer that a Normal-NC store can be gathered into: the one of its line and key. -/
def Hart.wcSlot (x : Hart) (line key : Nat) : Option Nat :=
  (List.range 8).find? (fun b => let w := Map.get {} x.wc b; w.valid && decide (w.line = line) && decide (w.key = key))

/-- Gather a store into a buffer. -/
def WcBuf.gather (w : WcBuf) (line key off : Nat) (l : List Byte) : WcBuf :=
  { valid := true, line := line, key := key, mask := w.mask ||| BitVec.ofNat 128 ((2 ^ l.length - 1) * 2 ^ off),
    data := patch (bytesAt w.data 0 128) off l }

/-- A core's Normal-NC store (R181): gathered into its line's buffer, else into a free one; when none is free one drains first, the lowest (DESIGN
CHOICE: R181 names none). A full buffer drains. Bytes past the end of the line are those of the next store (DEDUCED: the core splits it). -/
def State.wcStore (s : State) (h addr key : Nat) (l : List Byte) : State :=
  let off := addr % 128
  let l := l.take (128 - off)
  let x := s.hart h
  let free := (List.range 8).find? (fun b => !(Map.get {} x.wc b).valid)
  let (b, s) := match x.wcSlot (addr / 128) key with
    | some b => (b, s)
    | none => match free with | some b => (b, s) | none => (0, s.wcEvict h 0)
  let w := (Map.get ({} : WcBuf) (s.hart h).wc b).gather (addr / 128) key off l
  let s := s.modHart h (fun x => { x with wc := Map.put {} x.wc b w })
  if w.mask.toNat = fullMask then s.wcEvict h b else s

/-- WC_BUFFER_DRAIN (R181): a buffer drains, full, idle or needed; the stores that fill the buffers come with the row. A store to the device
registers is no Normal-NC store. -/
def execWcBufferDrain (h : HartId) (e : WcEvent) (s : State) : Out :=
  match e with
  | .drain b => .next (s.wcEvict h b)
  | .store addr key l => .next (if s.place addr.toNat = .dev then s else s.wcStore h addr.toNat (s.pageKey h key) l)

/-! ## Errors by agent (Table 01-9, Table 10-3) -/

/-- What an access asked for. -/
inductive AccessKind where
  | read | write | atomic
  deriving DecidableEq, Repr

/-- The slots of running groups of a tile. -/
def Tile.runningSlots (k : Tile) : List Nat := (List.range 24).filter (fun n => decide ((k.slot n).st = .running))

/-- The in-flight descriptor that a unit works for: the oldest on a CE for units 128 to 131, on another unit for a tile. -/
def Die.flightOf (x : Die) (unit : Nat) : Option InFlight :=
  x.inflight.find? (fun o => match unitOf o.raw with
    | some (.ce e) => decide (unit = 128 + e)
    | some (.tdm _) => decide (unit < 128)
    | _ => false)

/-- The response of an agent whose access at a home is not served. The messages name a tile or a unit, not a group or a descriptor: of the
tile's running groups one is a free choice, of the unit's descriptors it is the oldest (DESIGN CHOICE). -/
def State.answerErr (s : State) (agent addr : Nat) (k : AccessKind) (e : MemErr) : State :=
  let i := agent / 16
  match agent % 16 with
  | 0 => (s.trap i (if k = .read then 5 else 7) addr).reply (.fault (if k = .read then 5 else 7))
  | 1 =>
    let run := (s.tile (i / 128) (i % 128)).runningSlots
    let (v, s) := s.free 8
    match run[v.toNat % run.length]? with
    | some n => s.groupFault (i / 128) (i % 128) n (match e with | .unmapped => 2 | .sram => 5 | .fenced => 6) addr
    | none => s
  | 2 => match (s.die (i / 256)).flightOf (i % 256) with | some o => s.flightStatus (i / 256) o.src (memStatus e) | none => s
  | _ => s.reply (if k = .write then .discarded else match e with | .fenced => .completerAbort | _ => .unsupported)

/-! ## Requests of the caching agents -/

/-- A prefetch fills a line into the side buffer of its slice (R220, R312): never for a fenced line, a capacity-tier line, one already held there, or
while the slice is saturated. -/
def State.prefetch (s : State) (n key : Nat) : State :=
  match s.lineCtrl n with
  | none => s
  | some c =>
    let d := c / 3
    let side := s.sideOf d n
    if 12 ≤ c || s.isFenced c n || (s.die d).dc.satMask.getLsbD (dcSlice n) || ((s.die d).dc.find n).isSome ||
        side.any (fun e => decide (e.line = n)) then s
    else
      let e : SideLine := ⟨n, key, s.rawLine key n⟩
      let full := decide (64 ≤ side.length)
      let s := s.setSide d n ((if full then side.drop 1 else side) ++ [e])
      if full then
        s.modDie d (fun x => { x with dc := { x.dc with pfDropped := BitVec.ofNat 32 (satAdd 32 x.dc.pfDropped.toNat 1) } }) else s

/-- A core's access is refused: logged where the address is unmapped or the key is not held (R25, R385), with an access fault. -/
def State.coreFault (s : State) (x : CoreAccess) (addr : Nat) (logged : Bool) : State :=
  let s := if logged then s.logAccess 0 addr (hartAgent x.hart) else s
  (s.trap x.hart (accessCause x.kind) addr).reply (.fault (accessCause x.kind))

/-- Is the access one that must be aligned and cacheable (R194)? -/
def reserving (k : CoreKind) : Bool := match k with | .lr => true | .sc => true | .amo => true | _ => false

/-- A core's Normal access: served by its cluster's copy where that suffices; else the request goes to the home, after the agent's own WB of
the line (one link carries both). A conditional store without its reservation fails without a request. -/
def State.coreNormal (s : State) (a : CacheId) (line key : Nat) (x : CoreAccess) (req : HomeReq) : State :=
  let l := s.agentLine a line
  let hit := decide (l.key = key) && (match l.st with | .m => true | .e => true | .s => decide (req = .rdS) | .o => decide (req = .rdS) | _ => false)
  if hit || (decide (x.kind = .sc) && decide ((s.hart x.hart).reservation ≠ some line)) then
    (s.reply (s.coreReply a line x)).corePerform a line x
  else
    let s := if s.wbDue a line then s.wbArrives a line else s
    let s := { s with pool := { s.pool with misses := s.pool.misses ++ [(⟨a, line, x⟩ : Miss)] } }
    s.homeArrive line (txnOf req (.cache a) key)

/-- A core's Normal-NC access: a load is a snooping read at the home or a read of the store (R24, R181). Stores gather in buffers and atomic
operations go to a store as ATOM, by their own rows. -/
def State.coreNc (s : State) (line key : Nat) (x : CoreAccess) : State :=
  match x.kind, s.lineCtrl line with
  | .fetch, some _ => s.homeArrive line (txnOf .rdSn (.other ⟨BitVec.ofNat 16 (hartAgent x.hart), false⟩) key)
  | .load, some _ => s.homeArrive line (txnOf .rdSn (.other ⟨BitVec.ofNat 16 (hartAgent x.hart), false⟩) key)
  | .fetch, none =>
    match s.readMem (hartAcc x.hart key) (128 * line + x.offset.toNat) (2 ^ x.size.toNat) with
    | (.ok l, s) => s.reply (.bytes l)
    | (.error e, s) => s.answerErr (hartAgent x.hart) e.2 .read e.1
  | .load, none =>
    match s.readMem (hartAcc x.hart key) (128 * line + x.offset.toNat) (2 ^ x.size.toNat) with
    | (.ok l, s) => s.reply (.bytes l)
    | (.error e, s) => s.answerErr (hartAgent x.hart) e.2 .read e.1
  | _, _ => s

/-- A core's access that its cluster's cache, or the L3, takes to a home (R24, R25, R179, R180, R194): a Device access goes to its register block
by that row; here only its faults. A miss wakes the module (R376). -/
def State.coreRequest (s : State) (a : CacheId) (line key : Nat) (x : CoreAccess) (req : HomeReq) : State :=
  let s := if (s.lineCtrl line).isSome then s.wake else s
  let addr := 128 * line + x.offset.toNat
  let ty := s.coreType addr x.pbmt
  let skew := decide (x.offset.toNat % 2 ^ x.size.toNat ≠ 0)
  if x.kind = .prefetch then (if ty = .device ∨ !s.holds .core key then s else s.prefetch line key)
  else if s.place addr = .none ∨ !s.holds .core key then s.coreFault x addr true
  else
    match ty with
    | .device => if skew || reserving x.kind then s.coreFault x addr false else s
    | .nc =>
      let toTs := match s.place addr with | .ts _ _ _ => true | _ => false
      if reserving x.kind && (!(decide (x.kind = .amo) && toTs) || skew) then s.coreFault x addr false else s.coreNc line key x
    | .normal => if skew && reserving x.kind then s.coreFault x addr false else s.coreNormal a line key x req

/-- RD_S. -/
def execRdS (a : CacheId) (line : LineAddr) (x : KeyedAccess) (s : State) : Out :=
  .next (s.coreRequest a line.toNat (s.pageKey x.core.hart x.key) x.core .rdS)

/-- RD_U. -/
def execRdU (a : CacheId) (line : LineAddr) (x : KeyedAccess) (s : State) : Out :=
  .next (s.coreRequest a line.toNat (s.pageKey x.core.hart x.key) x.core .rdU)

/-- UPG. -/
def execUpg (a : CacheId) (line : LineAddr) (x : KeyedAccess) (s : State) : Out :=
  .next (s.coreRequest a line.toNat (s.pageKey x.core.hart x.key) x.core .upg)

/-! ## Requests of the agents that cache nothing -/

/-- Such a request at a tile store, which has no home: served at the store (R24, R101, R125). -/
def State.tsRequest (s : State) (line : Nat) (t : HomeTxn) : State :=
  let acc := { t.acc with own := s.partyHolder t.from_ }
  match t.req with
  | .rdSn =>
    match s.readMem acc (128 * line) 128 with
    | (.ok l, s) => s.reply (.bytes l)
    | (.error e, s) => s.answerErr acc.agent e.2 .read e.1
  | .atom =>
    match s.readMem acc (128 * line) 128 with
    | (.ok l, s) =>
      let (new, old) := atomApply t.op l
      let n := if t.op.wide then 8 else 4
      ((s.writeMem acc (128 * line + t.op.offset.toNat) (bytesAt new t.op.offset.toNat n)).2).reply (.bytes old)
    | (.error e, s) => s.answerErr acc.agent e.2 .atomic e.1
  | _ => ((s.writeMasked acc line (if t.req = .wrFull then fullMask else t.mask) t.data).2).reply .done

/-- A request of an agent that caches nothing (R209, R210): refused where unmapped (R25, R385), served beside an unfinished write (R208), else
taken in order. -/
def State.unitRequest (s : State) (line : LineAddr) (t : HomeTxn) : State :=
  let s := if (s.lineCtrl line.toNat).isSome then s.wake else s
  let l := line.toNat
  let agent := partyAgent t.from_
  let kind : AccessKind := match t.req with | .rdSn => .read | .atom => .atomic | _ => .write
  if !s.holds (s.partyHolder t.from_) t.key then (s.logAccess 0 (128 * l) agent).answerErr agent (128 * l) kind .unmapped
  else
    match s.place (128 * l) with
    | .mem c =>
      if decide (t.req = .rdSn) && (s.home l).serves t.key then
        match s.homeRead t.acc c l with
        | (some b, s) => s.cohHome (.data t.from_ l b .i false)
        | (none, s) => s.cohHome (.data t.from_ l [] .i true)
      else s.homeArrive l t
    | .ts _ _ _ => s.tsRequest l t
    | _ => (s.logAccess 0 (128 * l) agent).answerErr agent (128 * l) kind .unmapped

/-- RD_SN (R210). -/
def execRdSn (r : Requester) (line : LineAddr) (key : KeyId) (s : State) : Out := .next (s.unitRequest line (txnOf .rdSn (.other r) key))

/-- WR_FULL. -/
def execWrFull (r : Requester) (line : LineAddr) (key : KeyId) (data : List Byte) (s : State) : Out :=
  .next (s.unitRequest line { txnOf .wrFull (.other r) key with data := bytesAt data 0 128 })

/-- WR_PART. -/
def execWrPart (r : Requester) (line : LineAddr) (key : KeyId) (mask : BitVec 128) (data : List Byte) (s : State) : Out :=
  .next (s.unitRequest line { txnOf .wrPart (.other r) key with data := bytesAt data 0 128, mask := mask.toNat })

/-- ATOM. -/
def execAtom (r : Requester) (line : LineAddr) (key : KeyId) (op : AtomOp) (s : State) : Out :=
  .next (s.unitRequest line { txnOf .atom (.other r) key with op := op })

/-! ## Snoops at the agents (R213, R214) -/

/-- SNP_RD. -/
def execSnpRd (a : CacheId) (line : LineAddr) (s : State) : Out := .next (s.snoopArrives a line.toNat .rd)

/-- SNP_S. -/
def execSnpS (a : CacheId) (line : LineAddr) (s : State) : Out := .next (s.snoopArrives a line.toNat .sh)

/-- SNP_U. -/
def execSnpU (a : CacheId) (line : LineAddr) (s : State) : Out := .next (s.snoopArrives a line.toNat .un)

/-- SNP_INV. -/
def execSnpInv (a : CacheId) (line : LineAddr) (s : State) : Out := .next (s.snoopArrives a line.toNat .inv)

/-- HOLD_EXPIRY (R214). -/
def execHoldExpiry (a : CacheId) (line : LineAddr) (s : State) : Out :=
  if (s.agentLine a line.toNat).hold then .next (s.holdEnds a line.toNat) else .next s

/-- An error answers a cache's request (R212, R230): no line is installed, and the core whose access waited takes its access fault. -/
def State.cacheError (s : State) (a : CacheId) (line : Nat) : State :=
  match s.takeMiss a line with
  | (some x, s) => ((s.logAccess 1 (128 * line) (hartAgent x.hart)).trap x.hart (accessCause x.kind) (128 * line + x.offset.toNat)).reply (.fault (accessCause x.kind))
  | (none, s) => s.logAccess 1 (128 * line) (cacheAgent a)

/-- DATA: a cache installs the line or takes the error; another requester receives the bytes, or its response to a fenced line (R230). -/
def execData (p : Party) (line : LineAddr) (s : State) : Out :=
  match s.pool.msgs.find? (fun m => match m with | .data p' l' _ _ _ => decide (p' = p) && decide (l' = line.toNat) | _ => false) with
  | some (.data _ l b st err) =>
    let taken := { s with pool := { s.pool with msgs := s.pool.msgs.erase (.data p l b st err) } }
    match p with
    | .cache a => .next (if err then taken.cacheError a l else s.dataArrives a l)
    | .other r =>
      .next (if err then (taken.logAccess 1 (128 * l) r.agent.toNat).answerErr r.agent.toNat (128 * l) (if st = .m then .atomic else .read) .fenced
        else taken.reply (.bytes b))
  | _ => .next s

/-- COMP: an UPG's line is M and held; another requester's write is performed (R185). -/
def execComp (p : Party) (line : LineAddr) (s : State) : Out :=
  match p with
  | .cache a => .next (s.compArrives a line.toNat)
  | .other _ =>
    match s.takeMsg (fun m => match m with | .comp p' l' => decide (p' = p) && decide (l' = line.toNat) | _ => false) with
    | some (_, s) => .next (s.reply .done)
    | none => .next s

/-! ## Answers and write-backs at the home (R215) -/

/-- ACK. -/
def execAck (a : CacheId) (line : LineAddr) (s : State) : Out := .next (s.ackArrives a line.toNat)

/-- ACK_D, with the data it carries. -/
def execAckD (a : CacheId) (line : LineAddr) (data : List Byte) (s : State) : Out :=
  if s.pool.msgs.contains (.ackD a line.toNat data) then .next (s.ackDArrives a line.toNat) else .next s

/-- NDWB. -/
def execNdwb (a : CacheId) (line : LineAddr) (s : State) : Out := .next (s.ndwbArrives a line.toNat)

/-- WB: from an agent that holds the line modified (E counts, as its core may have written it) the write-back leaves with the data; the next WB of
that line is its arrival at the home, so that an NDWB can overtake it (Table 09-7). -/
def execWb (a : CacheId) (line : LineAddr) (key : KeyId) (data : List Byte) (s : State) : Out :=
  let n := line.toNat
  let l := s.agentLine a n
  if s.wbDue a n then .next (s.wbArrives a n)
  else if (s.lineCtrl n).isNone ∨ l.key ≠ key.val ∨ (l.st ≠ .m ∧ l.st ≠ .o ∧ l.st ≠ .e) then .next s
  else .next (s.evict a n (bytesAt data 0 128))

/-- EVC: a clean eviction; queued snoops receive ACK, as in I. -/
def execEvc (a : CacheId) (line : LineAddr) (key : KeyId) (s : State) : Out :=
  let n := line.toNat
  let l := s.agentLine a n
  if l.key ≠ key.val ∨ (l.st ≠ .s ∧ l.st ≠ .e) then .next s
  else
    let s := s.putAgent a n {}
    let s := l.snoops.foldl (fun s e => s.snoopAnswer a n e.1 e.2) s
    let h := s.home n
    .next (if h.awaits a then s else (s.putHome n (h.drop a)).homeGo n)

/-- WB_ACK. -/
def execWbAck (a : CacheId) (line : LineAddr) (s : State) : Out := .next (s.wbAnswered a line.toNat false)

/-- WB_CONSUMED. -/
def execWbConsumed (a : CacheId) (line : LineAddr) (s : State) : Out := .next (s.wbAnswered a line.toNat true)

/-! ## The die cache (R220 to R222) -/

/-- DC_PREFETCH (R220): by a core, by TDM look-ahead, or by the slice's stream detector, which acts while DC_CTRL.pf_detect is 1. -/
def execDcPrefetch (line : LineAddr) (p : Prefetch) (s : State) : Out :=
  let off := match p.source, s.lineCtrl line.toNat with
    | .detector, some c => decide (c < 12) && !(s.die (c / 3)).dc.pfDetect
    | _, _ => false
  .next (if off then s else s.prefetch line.toNat p.key)

/-- Cycles of CK_NOC in 100 µs. -/
def nocPersist : Nat := 220000

/-- DC_SATURATION_PERSIST (R221). -/
def execDcSaturationPersist (d : DieId) (h : Fin 32) (s : State) : Out :=
  .next ((s.modDie d (fun x => { x with dc := { x.dc with
    satMask := x.dc.satMask ||| BitVec.ofNat 32 (2 ^ h.val), satEvent := true, satSlice := BitVec.ofNat 5 h,
    satCycles := Map.modify 0 x.dc.satCycles h (· + nocPersist) } })).dieEvent d h 0x1002 (leBytes 1 0 ++ leBytes 2 h))

/-- Write back every modified line of a die's cache and empty it and its side buffers; the writes that its homes have taken reach it first. -/
def State.dcFlushAll (s : State) (d : Nat) : State :=
  let s := s.settle (fun l => decide ((homeSlice l).1 = d))
  let s := (s.die d).dc.lines.foldl (fun s e => s.dcWriteBack (ctrlOfLine e.2.line) e.2) s
  s.modDie d (fun x => { x with dc := { x.dc with lines := [], side := [] } })

/-- DC_FLUSH (R222). -/
def execDcFlush (d : DieId) (s : State) : Out := .next (s.dcFlushAll d)

end Sys2Proof.Machine
end

