-- ==== Sys2Proof/Machine/KeyIds.lean ====
section
/-! DEFINITION. Key IDs: fresh keys, destruction (R386, R211); the end of a job once its writes are settled (R201, R346, R387). -/
namespace Sys2Proof.Machine

/-- Codes of Table 17-4. -/
def kidFree : BitVec 3 := 0

/-- A key ID as SEC_KID_k shows it. -/
def KeySlot.word (x : KeySlot) : Nat :=
  x.state.toNat + 8 * b2n x.bar2 + 16 * b2n x.pe1 + 32 * x.policy.toNat + 256 * x.gen.toNat

/-- A fresh key under an ID for a holder: its generation goes up by one, modulo 2^24. -/
def State.freshKey (s : State) (k : Nat) (state : BitVec 3) (policy : BitVec 3) : State :=
  s.modKey k (fun x => { state := state, policy := policy, gen := x.gen + 1 })

/-- A cached line of a destroyed key is dropped from an agent; snoops that waited for the end of its hold are acknowledged. -/
def State.dropAgent (s : State) (a line : Nat) : State :=
  let l := s.agentLine a line
  let s := l.snoops.foldl (fun s _ => s.coh 4 (.ack (Fin.ofNat 13 a) line false false)) (s.putAgent a line {})
  let h := s.home line
  let owner := if h.owner.map Fin.val = some a then none else h.owner
  let sharers := if a < 13 then h.sharers &&& ~~~ (BitVec.ofNat 13 (2 ^ a)) else h.sharers
  (s.putHome line { h with owner := owner, sharers := sharers, dir := if owner.isNone && decide (sharers = 0) then .di else h.dir }).homeGo line

/-- A message as the destruction of a key leaves it (R211): a write-back of its data goes, and DATA for a cache becomes an error. -/
def State.dropKeyMsg (s : State) (k : Nat) (m : CohMsg) : Option CohMsg :=
  match m with
  | .wb _ _ key _ => if key = k then none else some m
  | .data (.cache a) l _ st _ => if (s.home l).key = k then some (.data (.cache a) l [] st true) else some m
  | _ => some m

/-- A home forgets the data under a destroyed key that it holds for a transaction; an agent whose write-back has gone with the key has answered,
and a cache whose DATA became an error holds nothing. -/
def State.dropKeyHome (s : State) (line : Nat) : State :=
  let h := s.home line
  let lost := (List.finRange 13).filter (fun a => s.pool.msgs.any (fun m => match m with
    | .data (.cache b) l _ _ err => decide (b = a) && decide (l = line) && err | _ => false))
  let h := lost.foldl HomeLine.drop { h with wbHeld := none, snoopData := none }
  match h.ndwb with
  | some a => if s.wbDue a line then s.putHome line h else (s.putHome line { ((h.answered a).drop a) with ndwb := none }).homeProceed line
  | none => s.putHome line h

/-- Cached lines that carry a key ID are invalidated in every cache; modified data, those on their way home among them, are discarded (R211). -/
def State.dropKeyLines (s : State) (k : Nat) : State :=
  let s := { s with pool := { s.pool with msgs := s.pool.msgs.filterMap (s.dropKeyMsg k) } }
  let s := (s.pool.homes.filter (fun e => decide (e.2.key = k) && decide (e.2.dir ≠ .di))).foldl (fun s e => s.dropKeyHome e.1) s
  let s := (s.pool.agents.filter (fun e => decide (e.2.key = k))).foldl (fun s e => s.dropAgent (e.1 / 2 ^ 41) (e.1 % 2 ^ 41)) s
  let s := (List.range 4).foldl (fun s d => s.modDie d (fun x => { x with dc := { x.dc with
    lines := x.dc.lines.filter (fun e => decide (e.2.key ≠ k)),
    side := (x.dc.side.map (fun e => (e.1, e.2.filter (fun l => decide (l.key ≠ k))))).filter (fun e => !e.2.isEmpty) } })) s
  { s with
    host := { s.host with readAhead := s.host.readAhead.filter (fun l => decide (l.key ≠ k)) },
    tiles := (s.tiles.map (fun e => (e.1, { e.2 with l1 := e.2.l1.filter (fun l => decide (l.2.key ≠ k)) }))).filter
      (fun e => decide (e.2 ≠ {})) }

/-- Destroy a key ID (R386): it ends free, without grants; its generation stays until the next fresh key. -/
def State.destroyKey (s : State) (k : Nat) : State :=
  let s := (s.dropKeyLines k).modKey k (fun x => { gen := x.gen })
  { s with sec := { s.sec with sealedKeys := s.sec.sealedKeys.filter (fun x => decide (x.key ≠ k)) } }

/-- Regions of a destroyed key read state 2 in the preservation record. -/
def State.eraseRegions (s : State) (k : Nat) : State :=
  { s with sec := { s.sec with record := s.sec.record.map (fun r => if r.key = k ∧ r.state ≠ 3 then { r with state := 2 } else r) } }

/-- Destroy key IDs for a reason, with event 0x7002. -/
def State.destroyKeys (s : State) (l : List Nat) (reason : Nat) : State :=
  if l.isEmpty then s
  else
    let s := l.foldl (fun s k => (s.destroyKey k).eraseRegions k) s
    s.hdEvent 0x7002 (leBytes 1 l.length ++ leBytes 1 reason)

/-- Key IDs in a state that p accepts. -/
def State.keysWhere (s : State) (p : Nat → KeySlot → Bool) : List Nat :=
  (List.range 64).filter (fun k => p k (s.keySlot k))

/-! ## The end of a job -/

/-- A tile without its contents: store, operand cache, plates, L1, rings. -/
def Tile.erased (t : Tile) : Tile :=
  { t with oc := [], ts := [], plates := [], tsBad := [], ocBad := [], plateBad := [], regBad := [], ringA := {}, ringB := {}, l1 := [] }

/-- The tiles that no work of a queue uses: no kernel, no operation, no descriptor in flight that names them. -/
def State.tileFree (s : State) (k : Nat) : Bool :=
  let t := s.tile (k / 128) (k % 128)
  t.kernel.isNone && t.launches.isEmpty && t.mxe.isEmpty && t.packs.isEmpty &&
    !(s.die (k / 128)).inflight.any (fun o => (dTiles o.raw).contains (k % 128))

/-- The ended job's state is erased (R1): what its work left in the tiles, in plain text (R383). A tile that work of a queue uses keeps its own
(DEDUCED: the work is not the job's). -/
def State.eraseJob (s : State) : State :=
  { s with tiles := (s.tiles.map (fun e => (e.1, if s.tileFree e.1 then e.2.erased else e.2))).filter (fun e => decide (e.2 ≠ {})) }

/-- The job goes (R346): its record, its seed, what it left in the tiles, the Beacon held for it; event 0x0001 with state 0. -/
def State.jobGone (s : State) : State :=
  match s.lantern.job with
  | none => s
  | some j =>
    let s := (s.mapWork (fun x => { x with seed := 0 }) (fun t => t)).eraseJob
    { s with
      lantern := { s.lantern with job := none }, fabric := { s.fabric with beacon := {} } }.hdEvent 0x0001
        (leBytes 1 0 ++ leBytes 4 j.handle ++ leBytes 2 j.failStatus.toNat)

/-- The end of a JOB_ABORT (Table 15-6, R387): mode 1 destroys the job's key IDs and removes the job; the response.
A PWR_FREQ that waits for a switch which will not come answers YST_STATE. -/
def State.abortDone (s : State) (r : Request) (j : Job) : State :=
  let s := s.modJob (fun j => { j with aborting := none, freqReq := none, freqNew := none })
  let s := match j.freqReq with | some q => s.respond 0x0403 q 5 [] | none => s
  let s := if fieldAt r.payload 0 1 = 1 then (s.destroyKeys (j.keys.filter (fun k => decide ((s.keySlot k).state = 2))) 0).jobGone else s
  s.respond 0x0206 r 0 (leBytes 1 j.state.toNat)

/-- A stopped job reads its new state once its writes are performed or abandoned (R201). -/
def State.jobSettle (s : State) : State :=
  match s.lantern.job with
  | none => s
  | some j =>
    if !j.settling || s.jobWrites then s
    else
      let s := (s.modJob (fun j => { j with settling := false })).jobEvent
      match j.aborting with | some r => s.abortDone r j | none => s

/-- An access that no descriptor waits for any more is answered or abandoned: does it name one? -/
def State.orphanDone (s : State) (d : Nat) (p : RemoteReq → Bool) : Option State :=
  match (s.die d).orphans.find? p with
  | some q => some ((s.modDie d (fun x => { x with orphans := x.orphans.filter (fun o => decide (o ≠ q)) })).jobSettle)
  | none => none

end Sys2Proof.Machine
end

