-- ==== Sys2Proof/Machine/Walk.lean ====
section
/-! DEFINITION. The topology walk of a discovery root, CONFIG contents and what a module does with them (R273, R274, R279, R407). The forms of PROBE,
PROBE_REPLY and CONFIG packets are the model's (DESIGN CHOICE; R274 names what they carry): a route of local port numbers
stands in data bytes 0 to 31, its length and the hop it is at in arg bytes 10 and 11, and each module that passes a
packet on writes its own port of arrival over the entry it used, so that the route leads back. -/
namespace Sys2Proof.Machine

/-- This module's serial number (R344). -/
def ownSerial : Nat := Config.serial.toNat

/-- Send a packet out of module port p (discovery packets take no route table). -/
def State.sendPort (s : State) (p : Nat) (k : Packet) : State := s.enqueue p k

/-- A discovery packet out of a port. -/
def State.discovery (s : State) (op tag : Nat) (arg : List Byte) (route : List Nat) (len idx : Nat) (body : List Byte) : Packet :=
  s.packet 0 0 op 3 0 tag 0 (bytesAt arg 0 10 ++ leBytes 1 len ++ leBytes 1 idx)
    (bytesAt (route.map (BitVec.ofNat 8)) 0 32 ++ body)

/-! ## The walk of a discovery root -/

/-- Send a PROBE out of a root port along a route, and remember what it asks. -/
def State.probeOut (s : State) (p : Nat) (route : List Nat) (serial port : Nat) : State :=
  let tag := s.fabric.walkTag
  let s := { s with fabric := { s.fabric with
    walkTag := tag + 1, probes := s.fabric.probes ++ [(⟨tag.toNat, p, route, serial, port⟩ : ProbeOut)] } }
  s.sendPort p (s.discovery 0x20 tag.toNat [] route route.length 0 [])

/-- Modules of a walk by serial number, the root first. -/
def Fabric.modules (f : Fabric) : List Nat := (ownSerial :: f.found.map Discovered.serial).eraseDups

/-- Node ID that the plan gives a serial number; 0 for none. -/
def Fabric.nodeOf (f : Fabric) (serial : Nat) : Nat := (Map.get 0 f.plan serial).toNat

/-- The local ports of a module on a plane with the module beyond each. -/
def Fabric.edges (f : Fabric) (plane u : Nat) : List (Nat × Nat) :=
  ((f.cables.filter (fun c => decide (c.plane = plane))).map (fun c =>
    (if c.a = u then [(c.ap, c.b)] else []) ++ (if c.b = u then [(c.bp, c.a)] else []))).flatten

/-- Distances to a module on a plane after n rounds; far modules are absent. -/
def Fabric.dist (f : Fabric) (plane v : Nat) : Nat → Map Nat
  | 0 => [(v, 0)]
  | n + 1 =>
    let m := f.dist plane v n
    f.modules.foldl (fun acc u =>
      if (m.find? (fun e => decide (e.1 = u))).isSome then acc
      else if (f.edges plane u).any (fun e => (m.find? (fun x => decide (x.1 = e.2))).isSome) then Map.ins acc u (n + 1) else acc) m

/-- FAB_ROUTE entry of module u toward module v on a plane: primary the lowest port on a shortest path, alternate the port of the
next best distance (R275; which of several paths the root takes is a DESIGN CHOICE). -/
def Fabric.routeEntry (f : Fabric) (plane u v : Nat) : Nat :=
  if u = v then 256
  else
    let m := f.dist plane v f.modules.length
    let opts := (f.edges plane u).filterMap (fun e => (m.find? (fun x => decide (x.1 = e.2))).map (fun x => (x.2, e.1)))
    let best (l : List (Nat × Nat)) : Option (Nat × Nat) :=
      l.foldl (fun (b : Option (Nat × Nat)) o => match b with
        | none => some o
        | some x => if o.1 < x.1 ∨ (o.1 = x.1 ∧ o.2 < x.2) then some o else b) none
    match best opts with
    | none => 0
    | some x =>
      match best (opts.filter (fun o => decide (o.2 ≠ x.2))) with
      | none => x.2 + 64
      | some y => x.2 + 8 * y.2 + 64 + 128

/-- Distances from the root over all planes (the Beacon tree is breadth-first, R279). -/
def Fabric.depth (f : Fabric) : Nat → Map Nat
  | 0 => [(ownSerial, 0)]
  | n + 1 =>
    let m := f.depth n
    f.modules.foldl (fun acc u =>
      if (m.find? (fun e => decide (e.1 = u))).isSome then acc
      else if (List.range 4).any (fun d => (f.edges d u).any (fun e => (m.find? (fun x => decide (x.1 = e.2))).isSome))
      then Map.ins acc u (n + 1) else acc) m

/-- Ports of a module toward modules one step nearer the root: the first is its upstream, the second its reserve. -/
def Fabric.ups (f : Fabric) (u : Nat) : List Nat :=
  let m := f.depth f.modules.length
  match m.find? (fun x => decide (x.1 = u)) with
  | none => []
  | some (_, n) =>
    ((List.range 4).map (fun d => ((f.edges d u).filter (fun e => m.any (fun x => decide (x.1 = e.2) && decide (x.2 + 1 = n)))).map
      (fun e => 6 * d + e.1))).flatten

/-- The highest Beacon version that every module supports (R407); 0, no version, where there is none (DESIGN CHOICE). -/
def Fabric.version (f : Fabric) : Nat :=
  let v := f.found.foldl (fun a m => min a m.beaconHi) 1
  if f.found.any (fun m => decide (v < m.beaconLo)) then 0 else v

/-- Settings of a module: node ID, upstream and reserve port (0xFF none), Beacon version. -/
def Fabric.settings (f : Fabric) (u : Nat) : List Byte :=
  let ups := f.ups u
  leBytes 2 (f.nodeOf u) ++ leBytes 1 (ups.getD 0 255) ++ leBytes 1 (ups.getD 1 255) ++ leBytes 1 f.version

/-- CONFIG contents for a module: kind and argument bytes with the body. Kind 0 settings; kind 1 one route entry (arg 1 plane, arg 2
and 3 node ID); kind 2 the final one. -/
def Fabric.configs (f : Fabric) (u : Nat) : List (List Byte × List Byte) :=
  [([0], f.settings u)] ++
    ((List.range 4).map (fun d => (f.modules.filter (fun v => decide (f.nodeOf v ≠ 0))).map (fun v =>
      ([1, BitVec.ofNat 8 d] ++ leBytes 2 (f.nodeOf v), leBytes 2 (f.routeEntry d u v))))).flatten ++ [([2], [])]

/-- Take a CONFIG's content into the waiting tables; the final one activates them together (R274): node ID, routes, place in the tree,
Beacon version. -/
def State.configure (s : State) (arg body : List Byte) : State :=
  let port (n : Nat) : Option Nat := if n < 24 then some n else none
  match fb arg 0 1 with
  | 0 => { s with fabric := { s.fabric with
      newNode := some (BitVec.ofNat 16 (fb body 0 2)), newUpstream := port (fb body 2 1), newReserve := port (fb body 3 1),
      beaconVersion := fb body 4 1 } }
  | 1 => s.modDie (fb arg 1 1 % 4) (fun x => { x with
      routesNew := Map.ins x.routesNew (fb arg 2 2) (BitVec.ofNat 16 (fb body 0 2 % 512)) })
  | 2 =>
    let s := (List.range 4).foldl (fun s d => s.modDie d (fun x => { x with
      routes := x.routesNew.foldl (fun m e => Map.put 0 m e.1 e.2) x.routes, routesNew := [] })) s
    match s.fabric.newNode with
    | none => s
    | some n =>
      let up := s.fabric.newUpstream
      let s := (List.range 24).foldl (fun s p => s.modPort p (fun x => { x with upstream := decide (up = some p) })) s
      let tree := decide (n ≠ 0) && (up.isSome || s.fabric.isRoot)
      { s with fabric := { s.fabric with
        node := n, upstream := up, reserve := s.fabric.newReserve, newNode := none, newUpstream := none, newReserve := none,
        joining := tree && up.isSome && (!s.fabric.inTree || s.fabric.unsync), inTree := tree, holdover := false, holdSince := none,
        unsync := s.fabric.unsync && !tree } }
  | _ => s

/-- The CONFIG contents to send to a module: those that changed since the last walk, a route that is gone as an entry of zeros, the final one; none
when nothing changed (R274). -/
def Fabric.changes (f : Fabric) (u : Nat) : List (List Byte × List Byte) :=
  let old := Map.get [] f.written u
  let new := f.configs u
  let gone := (old.filter (fun c => new.all (fun n => decide (n.1 ≠ c.1)))).map (fun c => (c.1, zeros 2))
  let l := new.filter (fun c => decide (c.1 ≠ [2]) && !old.contains c) ++ gone
  if l.isEmpty then [] else l ++ [([2], [])]

/-- Probe on beyond a module from one of the root's ports, over its ports that are up but the one of arrival. -/
def State.probeBeyond (s : State) (p : Nat) (m : Discovered) (arrival : Nat) : State :=
  if m.route.length < 31 then
    ((List.range 6).filter (fun x => bit m.ports x && decide (x ≠ arrival))).foldl (fun s x => s.probeOut p (m.route ++ [x]) m.serial x) s
  else s

/-- The walk has no probe left (R274): the root takes its own tables, every other module of the plan gets by CONFIG what has changed; a module outside
the plan is reported. A module that had no node ID forwarded no probe (R273), so the walk goes on beyond those that now have one
(DEDUCED). -/
def State.walkEnd (s : State) : State :=
  let f := s.fabric
  let targets := f.modules.filterMap (fun u => (f.found.find? (fun m => decide (m.serial = u))).map (fun m => (u, m)))
  let s := (f.changes ownSerial).foldl (fun s c => s.configure c.1 c.2) s
  let s := targets.foldl (fun s (t : Nat × Discovered) =>
    if f.nodeOf t.1 = 0 then s.logNote 0 (leBytes 16 t.1)
    else (f.changes t.1).foldl (fun s c => s.sendPort t.2.rootPort (s.discovery 0x22 0 c.1 t.2.route t.2.route.length 0 c.2)) s) s
  let named := ownSerial :: (targets.filter (fun t => decide (f.nodeOf t.1 ≠ 0))).map (·.1)
  let s := { s with fabric := { s.fabric with
    root := BitVec.ofNat 16 (f.nodeOf ownSerial), written := named.foldl (fun m u => Map.ins m u (f.configs u)) s.fabric.written } }
  let fresh := f.found.filter (fun m => decide (m.node = 0) && decide (f.nodeOf m.serial ≠ 0) && !f.walkFresh.contains m.serial)
  let s := { s with fabric := { s.fabric with walkFresh := f.walkFresh ++ fresh.map Discovered.serial } }
  let s := fresh.foldl (fun s m => s.probeBeyond m.rootPort m (m.arrival)) s
  { s with fabric := { s.fabric with walking := !s.fabric.probes.isEmpty } }

/-- End the walk when no probe is unanswered. -/
def State.walkCheck (s : State) : State := if s.fabric.walking && s.fabric.probes.isEmpty then s.walkEnd else s

/-- Start a walk: probes leave every port that is up (R274). -/
def State.walkStart (s : State) : State :=
  let s := { s with fabric := { s.fabric with walking := true, found := [], cables := [], probes := [], walkFresh := [] } }
  ((List.range 24).foldl (fun s p => if s.portUp p then s.probeOut p [] ownSerial (p % 6) else s) s).walkCheck

/-- One of the root's ports has gone down or come up: the root walks again from itself (R274). -/
def State.rewalk (s : State) : State := if s.fabric.isRoot then s.walkStart else s

end Sys2Proof.Machine
end

