-- ==== Sys2Proof/Machine/Fabric.lean ====
section
/-! DEFINITION. Fabric ports, flits and remote packets (12_fabric): R264 to R272, R275, R278, R286, R430. -/
namespace Sys2Proof.Machine

/-! ## Ports -/

/-- Receive buffer of a class in flits (Table 12-2). -/
def classBuffer (tc : Nat) : Nat := match tc with | 0 => 128 | 1 => 512 | 2 => 1024 | _ => 32

/-- FAB_PSTAT as a word. -/
def Port.pstat (x : Port) : Nat :=
  x.state.toNat + 8 * x.width.toNat + 32 * b2n x.j6 + 64 * b2n x.upstream + 128 * x.trainFail.toNat + 65536 * x.partner.toNat

/-- Event 0x5001 of a port. -/
def State.portEvent (s : State) (p : Nat) : State :=
  s.dieEvent (p / 6) (p % 6) 0x5001 (leBytes 1 p ++ leBytes 4 (s.port p).pstat)

/-- Count and log a violation (R286); more than 1,000 within a second raise an event, and the count of the second starts anew. -/
def State.violation (s : State) (p : Nat) (flit : List Byte) : State :=
  let s := s.modPort p (fun x => { x with
    violations := BitVec.ofNat 16 (satAdd 16 x.violations.toNat 1),
    violTimes := x.violTimes.filter (fun t => decide (s.timeNs < t + 1000000000)) ++ [s.timeNs] })
  let s := s.logNote 0 (leBytes 1 p ++ bytesAt flit 0 15)
  if 1000 < (s.port p).violTimes.length then (s.modPort p (fun x => { x with violTimes := [] })).portEvent p else s

/-- Choose a path on the port's plane for a packet and queue it there; false without a route. -/
def State.forward (s : State) (d : Nat) (k : Packet) : Bool × State :=
  match s.choosePort d k with
  | some q => (true, s.enqueue (6 * d + q) k)
  | none => (false, s)

/-- Does a packet follow a source route, and so no table (R274)? -/
def sourceRouted (k : Packet) : Bool := decide (0x20 ≤ k.op.toNat) && decide (k.op.toNat ≤ 0x22)

/-- Packets queued at a port that is not up take the alternate path (R270); one without another path waits for the port. -/
def State.reroute (s : State) (p : Nat) : State :=
  (s.port p).outq.foldl (fun s k =>
    match (if sourceRouted k then none else s.choosePort (p / 6) k) with
    | some q => s.enqueue (p / 6 * 6 + q) k
    | none => s.enqueue p k) (s.modPort p (fun x => { x with outq := [] }))

/-- Retrain a port that is up (R270). -/
def State.retrain (s : State) (p : Nat) : State :=
  if (s.port p).state ≠ 2 then s
  else (s.modPort p (fun x => { x with
    state := 3, retrains := BitVec.ofNat 16 (satAdd 16 x.retrains.toNat 1), replayTimes := [] })).reroute p

/-! ## Responses -/

/-- Answer a packet: to its source and source die, with its tag and class, through the plane of die d. -/
def State.answer (s : State) (d : Nat) (k : Packet) (op : Nat) (arg data : List Byte) : State :=
  (s.send d (s.packet d k.src.toNat op k.tc (k.sdie.toNat % 4 * 2 ^ 48) k.tag.toNat k.key.toNat arg data)).2

/-- A negative response with a status of Table 06-12 in arg bytes 0 and 1 (DESIGN CHOICE: Table 12-4 names the place, no rule the
codes; unreachable and hops exhausted are 0x0009). None is sent for a negative response. -/
def State.negative (s : State) (d : Nat) (k : Packet) (status : Nat) : State :=
  if k.op = 0x0F then s else s.answer d k 0x0F (leBytes 2 status) []

/-! ## Receiving packets -/

/-- Is a packet for this module? -/
def State.packetHere (s : State) (d : Nat) (k : Packet) : Bool :=
  decide (s.fabric.node ≠ 0) && (decide (k.dst = s.fabric.node) || bit (Map.get 0 (s.die d).routes k.dst.toNat).toNat 8)

/-- A packet that came in whole (R266, R273, R275): kept for its row when it is for this module or a discovery packet, else forwarded on
its plane with one hop less. One addressed to this node wakes the module (R376). -/
def State.packetIn (s : State) (p : Nat) (flit : List Byte) (k : Packet) : State :=
  let d := p / 6
  if sourceRouted k || s.packetHere d k then
    (if s.packetHere d k then s.wake else s).modPort p (fun x => { x with rx := x.rx ++ [k] })
  else if s.fabric.node = 0 then s
  else
    let hops := slice k.ctl.toNat 6 2
    let k' := { k with ctl := BitVec.ofNat 8 (k.ctl.toNat % 4 + 4 * (hops - 1)) }
    if hops ≤ 1 then (s.violation p flit).negative d k 9
    else
      match s.forward d k' with
      | (true, s) => s
      | (false, s) => (s.violation p flit).negative d k 9

/-- Reserved bits of a packet header are 0 (Table 12-3). -/
def packetClean (k : Packet) : Bool :=
  !bit k.ctl.toNat 7 && decide (k.key.toNat < 64) && decide (k.addr.toNat < 2 ^ 50) && decide (k.sdie.toNat < 4)

/-- Take the whole packets off a class's bytes, with fuel. A header whose op is 0 is padding up to the end of the flit (DESIGN CHOICE:
the spec gives the bytes after a flit's last packet no form). -/
def State.takePackets (p tc : Nat) (flit : List Byte) : Nat → State → State
  | 0, s => s
  | n + 1, s =>
    let l := Map.get [] (s.port p).partial_ tc
    let keep (r : List Byte) (s : State) : State := s.modPort p (fun x => { x with partial_ := Map.put [] x.partial_ tc r })
    if l.length < 32 then (if l.all (fun b => decide (b = 0)) || (decide (5 ≤ l.length) && decide (fb l 4 1 = 0)) then keep [] s else s)
    else if fb l 4 1 = 0 then keep [] s
    else
      let len := fb l 6 2
      if 1024 < len then keep [] (s.violation p flit)
      else if l.length < 32 + len then s
      else
        let k := packetOf l
        let s := keep (l.drop (32 + len)) s
        State.takePackets p tc flit n (if packetOpOk k.op.toNat && packetClean k then s.packetIn p flit k else s.violation p flit)

/-! ## Flits (R268, R269) -/

/-- Reserved bits of a flit are 0 (Table 12-1). -/
def flitClean (f : List Byte) : Bool :=
  let h := fb f 0 8
  decide (h % 16 ≤ 3) && !bit h 31 && decide (slice h 63 46 = 0) && decide (fb f 248 4 = 0)

/-- Flits sent after the one that a header acknowledges. -/
def Port.unacked (x : Port) (h : Nat) : Nat := (x.txNext.toNat + 4095 - slice h 29 18 + 4096) % 4096

/-- The acknowledgement, nak and credit of a flit header take effect at the sender side of the port: flits up to ack leave the replay
buffer, a nak replays what follows. The seventeenth replay within 1 ms is a violation and retrains the port (R270, R286). -/
def State.flitControl (s : State) (p : Nat) (flit : List Byte) : State :=
  let h := fb flit 0 8
  let x := s.port p
  let left := x.replay.drop (x.replay.length - x.unacked h)
  let again := if bit h 30 then left else []
  let s := s.modPort p (fun x => { x with
    replay := left, resend := if bit h 30 then left else x.resend.filter (fun e => left.any (fun f => decide (f.1 = e.1))), credits := Map.modify 0 x.credits (slice h 45 44) (· + slice h 43 32),
    replays := BitVec.ofNat 32 (satAdd 32 x.replays.toNat again.length),
    replayTimes := if bit h 30 then x.replayTimes.filter (fun t => decide (s.timeNs < t + 1000000)) ++ [s.timeNs] else x.replayTimes })
  if 16 < (s.port p).replayTimes.length then (s.violation p flit).retrain p else s

/-- A time flit arrives (R280): the port notes the difference between the module's time and the time the flit carries. On the upstream port the mean of
both ends' differences is the link delay, and the module learns its offset; it steps its count on joining the tree or for an offset
above 1 µs, else it slews by at most 1 ns for this µs. -/
def State.timeArrives (s : State) (p sent : Nat) (heard : Int) : State :=
  let own : Int := (s.timeNs : Int) - sent
  let s := s.modPort p (fun x => { x with timeDiff := own })
  if s.fabric.upstream ≠ some p then s
  else
    let delay : Nat := ((own + heard) / 2).toNat
    let off : Int := ((sent + delay : Nat) : Int) - (s.timeNs : Nat)
    let step := s.fabric.joining || decide (1000 < off.natAbs)
    let t : Int := if step then ((sent + delay : Nat) : Int) else (s.timeNs : Int) + max (-1) (min 1 off)
    { s with timeNs := t.toNat, fabric := { s.fabric with linkDelay := delay, offset := off, joining := false } }

/-- A flit of sequence number seq is not the next one: a gap naks, one behind the window is dropped and retrains the port. -/
def State.flitGap (s : State) (p : Nat) (flit : List Byte) (diff : Nat) : State :=
  let s := s.violation p flit
  if diff < 2048 then s.modPort p (fun x => { x with nak := true }) else s.retrain p

/-- FABRIC_FLIT_RECEIVE (R268, R269, Table 12-8). -/
def execFabricFlitReceive (p : PortId) (flit : List Byte) (s : State) : Out :=
  let x := s.port p
  if x.state ≠ 2 ∨ flit.length ≠ 256 then .next s
  else if crc32c (flit.take 252) ≠ fb flit 252 4 then .next ((s.violation p flit).modPort p (fun x => { x with nak := true }))
  else if !flitClean flit then .next (s.violation p flit)
  else
    let h := fb flit 0 8
    let ftype := h % 16
    let tc := slice h 5 4
    let diff := (slice h 17 6 + 4096 - x.rxNext.toNat) % 4096
    if 2048 < x.unacked h then .next ((s.violation p flit).retrain p)
    else if ftype = 1 ∨ ftype = 3 then
      let s := s.flitControl p flit
      let s := if ftype = 3 then s.timeArrives p (fb flit 8 8) (BitVec.ofNat 64 (fb flit 16 8)).toInt else s
      .next (if diff = 4095 then s else s.modPort p (fun x => { x with nak := true }))
    else if diff ≠ 0 then .next (s.flitGap p flit diff)
    else
      let s := s.flitControl p flit
      if ftype = 2 then .next (s.modPort p (fun x => { x with rxNext := x.rxNext + 1, nak := false, owesAck := true }))
      else if classBuffer tc ≤ Map.get 0 x.owed tc then .next ((s.violation p flit).retrain p)
      else
        let s := s.modPort p (fun x => { x with
          rxNext := x.rxNext + 1, nak := false, owesAck := true, owed := Map.modify 0 x.owed tc (· + 1),
          partial_ := Map.put [] x.partial_ tc (Map.get [] x.partial_ tc ++ bytesAt flit 8 240) })
        .next (State.takePackets p tc flit 9 s)

/-! ## Training (R265, R266, R270, R278) -/

/-- Width code of FAB_PSTAT that training reaches on lanes that pass in both directions (R265). -/
def trainedWidth (lanes : Nat) : Nat :=
  if lanes = 0xFF then 3
  else if lanes % 16 = 0xF ∨ lanes / 16 = 0xF then 2
  else if [0x03, 0x0C, 0x30, 0xC0].any (fun m => decide (lanes &&& m = m)) then 1 else 0

/-- A training has failed (R270): the third in a row takes the port down and raises an event. -/
def State.trainingFailed (s : State) (p : Nat) : State :=
  let n := min 7 ((s.port p).trainFail.toNat + 1)
  let s := s.modPort p (fun x => { x with trainFail := BitVec.ofNat 3 n, width := 0, state := if 3 ≤ n then 4 else 1 })
  if 3 ≤ n then (((s.violation p []).portEvent p).reroute p).rewalk else s

/-- PORT_TRAINING: a training ends with the lanes that pass, the partner's plane and mode (R265, R266, R278). It takes place only on an
enabled port that is training or retraining. -/
def execPortTraining (p : PortId) (lanes : BitVec 8) (plane : Fin 4) (j6 : Bool) (partner : BitVec 16) (s : State) : Out :=
  let x := s.port p
  if !bit x.cfg.toNat 0 ∨ (x.state ≠ 1 ∧ x.state ≠ 3) then .next s
  else if plane.val ≠ p.val / 6 then
    .next (((s.modPort p (fun x => { x with state := 5, width := 0, partner := partner })).violation p []).portEvent p)
  else if j6 ≠ bit x.cfg.toNat 1 then
    .next (((s.modPort p (fun x => { x with state := 4, width := 0, partner := partner })).violation p []).portEvent p)
  else if trainedWidth lanes.toNat = 0 then .next (s.trainingFailed p)
  else
    let up (x : Port) : Port := { x with
      state := 2, width := BitVec.ofNat 2 (trainedWidth lanes.toNat), j6 := j6, trainFail := 0, partner := partner, nak := false }
    if x.state = 3 then .next (s.modPort p up)
    else
      .next (s.modPort p (fun x => { up x with
        rxNext := 0, txNext := 0, replay := [], resend := [], cut := [], owed := [], owesAck := false, partial_ := [],
        credits := (List.range 4).map (fun c => (c, classBuffer c)) })).rewalk

/-- PORT_TRAINING_FAILURE (R265, R270). -/
def execPortTrainingFailure (p : PortId) (s : State) : Out :=
  if (s.port p).state = 1 ∨ (s.port p).state = 3 then .next (s.trainingFailed p) else .next s

/-- FABRIC_PORT_LINK_LOSS (R274, R430): a cable is pulled or a partner disappears; the port, no longer up, tries to train again. -/
def execFabricPortLinkLoss (p : PortId) (s : State) : Out :=
  if (s.port p).state = 2 ∨ (s.port p).state = 3 then
    .next ((s.modPort p (fun x => { x with state := 1, width := 0, partner := 0 })).reroute p).rewalk
  else .next s

/-! ## Remote accesses (R271, R272) -/

/-- Take a packet out of the first port's receive list that holds it. -/
def State.takeRx (s : State) (k : Packet) : State :=
  match (List.range 24).find? (fun p => (s.port p).rx.contains k) with
  | some p => s.modPort p (fun x => { x with rx := x.rx.erase k })
  | none => s

/-- Access of a fabric requester of class 3 that came through a port of die d (R266, Table 08-8): the port that holds the packet, else
port 0. -/
def State.fabricAcc (s : State) (d : Nat) (k : Packet) : Acc :=
  let p := ((List.range 6).find? (fun p => (s.port (6 * d + p)).rx.contains k)).getD 0
  ⟨unitAgent d (136 + p), 3, .core, slice k.key.toNat 5 0, false⟩

/-- REMOTE_READ: read local memory and answer with the data, or with a negative response. -/
def execRemoteRead (d : DieId) (k : Packet) (s : State) : Out :=
  let acc := s.fabricAcc d k
  let s := s.takeRx k
  if k.op ≠ 1 ∨ 1024 < fb k.arg 0 4 then .next s
  else
    match s.readMem acc k.local (fb k.arg 0 4) with
    | (.ok l, s) => .next (s.answer d k 2 [] l)
    | (.error e, s) => .next (s.negative d k (memStatus e.1))

/-- The port of a die that holds a packet. -/
def State.rxPort (s : State) (d : Nat) (k : Packet) : Nat :=
  6 * d + ((List.range 6).find? (fun p => (s.port (6 * d + p)).rx.contains k)).getD 0

/-- Finish an outstanding remote access of a packet's target die by tag and operation; a response to nothing is a violation at the port it came in
by (Table 12-8). -/
def State.remoteAnswer (s : State) (d op : Nat) (k : Packet) (data : List Byte) : State :=
  let p := s.rxPort d k
  let s := s.takeRx k
  let d := k.die
  if (s.die d).remote.any (fun q => decide (q.tag = k.tag.toNat) && decide (q.op = op) && !q.done) then
    s.modDie d (fun x => { x with
      remote := x.remote.map (fun q => if q.tag = k.tag.toNat ∧ q.op = op ∧ !q.done then { q with data := data, done := true } else q) })
  else (s.orphanDone d (fun q => decide (q.tag = k.tag.toNat) && decide (q.op = op))).getD (s.violation p k.header)

/-- READ_DATA. -/
def execReadData (d : DieId) (k : Packet) (s : State) : Out :=
  if k.op = 2 then .next (s.remoteAnswer d 1 k k.data) else .next s

/-- REMOTE_WRITE: write local memory and acknowledge; a part that is discarded answers with its status (R231). -/
def execRemoteWrite (d : DieId) (k : Packet) (s : State) : Out :=
  let acc := s.fabricAcc d k
  let s := s.takeRx k
  if k.op ≠ 3 then .next s
  else
    match s.writeMem acc k.local (bytesAt k.data 0 k.len.toNat) with
    | (none, s) => .next (s.answer d k 4 [] [])
    | (some e, s) => .next (s.negative d k (memStatus e.1))

/-- WRITE_ACKNOWLEDGEMENT (R272): the remote write is performed. -/
def execWriteAcknowledgement (d : DieId) (k : Packet) (s : State) : Out :=
  if k.op = 4 then .next (s.remoteAnswer d 3 k []) else .next s

/-- SEMAPHORE_SIGNAL: a signal from another module is applied on its target die and acknowledged (R148, Table 12-4). -/
def execSemaphoreSignal (d : DieId) (k : Packet) (s : State) : Out :=
  let s := s.takeRx k
  if k.op ≠ 5 then .next s
  else .next ((s.semUpdate k.die (fb k.arg 0 2 % 4096) (decide (fb k.arg 2 1 = 1)) (fb k.arg 4 4)).answer d k 6 [] [])

/-- The descriptor of a signal that is answered ends with a status, when it has not been stopped. -/
def State.signalDone (s : State) (d : Nat) (k : Packet) (src : DescSrc) (status : Nat) : State :=
  let s := s.modDie d (fun x => { x with signals := Map.del x.signals k.tag.toNat })
  match (s.die d).inflight.find? (fun o => decide (o.src = src)) with
  | some o => s.finish d src o.raw status
  | none => s

/-- SIGNAL_ACKNOWLEDGEMENT: the signal's descriptor has completed. -/
def execSignalAcknowledgement (d : DieId) (k : Packet) (s : State) : Out :=
  let p := s.rxPort d k
  let s := s.takeRx k
  if k.op ≠ 6 then .next s
  else
    match Map.get none ((s.die k.die).signals.map (fun e => (e.1, some e.2))) k.tag.toNat with
    | some src => .next (s.signalDone k.die k src 0)
    | none => .next (s.violation p k.header)

end Sys2Proof.Machine
end

