-- ==== Sys2Proof/Machine/Discovery.lean ====
section
/-! DEFINITION. The rows of fabric discovery (R273, R274), of the time base and of the Beacon tree (R279 to R281, R407). -/
namespace Sys2Proof.Machine

/-- Pass a discovery packet on along its route (forward) or back along it. -/
def State.passOn (s : State) (p : Nat) (k : Packet) (back : Bool) : State :=
  let idx := fb k.arg 11 1
  let at_ := if back then idx - 1 else idx
  let out := fb k.data at_ 1
  let idx' := if back then idx - 1 else idx + 1
  if s.fabric.node = 0 ∨ 6 ≤ out then s
  else s.sendPort (p / 6 * 6 + out) { k with
    arg := patch k.arg 11 (leBytes 1 idx'), data := if back then k.data else patch k.data at_ (leBytes 1 (p % 6)) }

/-- Mask of a die's ports that are up. -/
def State.portsUp (s : State) (d : Nat) : Nat := ((List.range 6).filter (fun k => s.portUp (6 * d + k))).foldl (fun a k => a + 2 ^ k) 0

/-- PROBE (R273, R274): at the end of its route it is answered with serial number, SLOT_ID, plane, arrival port, Beacon version
range and the state of every port; before it, it is passed on. -/
def execProbe (p : PortId) (k : Packet) (s : State) : Out :=
  let s := s.takeRx k
  if k.op ≠ 0x20 then .next s
  else if fb k.arg 11 1 < fb k.arg 10 1 then .next (s.passOn p k false)
  else
    let body := leBytes 16 ownSerial ++ leBytes 1 s.pins.slotId.toNat ++ leBytes 1 (p / 6) ++ leBytes 1 (p % 6) ++ [1, 1] ++
      leBytes 3 (s.portsUp (p / 6)) ++ (List.range 24).map (fun q => BitVec.ofNat 8 (s.port q).state.toNat)
    .next (s.sendPort p { s.discovery 0x21 k.tag.toNat k.arg [] (fb k.arg 10 1) (fb k.arg 11 1) [] with
      data := bytesAt k.data 0 32 ++ body, len := BitVec.ofNat 16 (32 + body.length) })

/-! ## The walk of a discovery root -/

/-- TOPOLOGY_WALK (R274): the management network names this module the root and hands it a plan; probes leave every port that is up. -/
def execTopologyWalk (plan : Map (BitVec 16)) (s : State) : Out :=
  .next { s with fabric := { s.fabric with isRoot := true, plan := plan } }.walkStart

/-- PROBE_REPLY (R274): passed on along its route; at the root it records the module and the cable, and probes go on beyond a module that
has a node ID; the walk ends when no new module answers. -/
def execProbeReply (p : PortId) (k : Packet) (s : State) : Out :=
  let s := s.takeRx k
  if k.op ≠ 0x21 then .next s
  else if 0 < fb k.arg 11 1 then .next (s.passOn p k true)
  else
    match s.fabric.probes.find? (fun q => decide (q.tag = k.tag.toNat) && decide (q.rootPort = p.val)) with
    | none => .next (s.violation p k.header)
    | some q =>
      let b := k.data.drop 32
      let serial := fb b 0 16
      let m : Discovered := ⟨serial, fb b 16 1, fb b 17 1, fb b 21 3, fb b 18 1, fb b 19 1, fb b 20 1, k.src.toNat, p, q.route⟩
      let new := decide (serial ≠ ownSerial) && s.fabric.found.all (fun x => decide (x.serial ≠ serial) || decide (x.plane ≠ m.plane))
      let cable : Cable := ⟨m.plane, q.serial, q.port, serial, fb b 18 1⟩
      let s := { s with fabric := { s.fabric with
        probes := s.fabric.probes.erase q,
        cables := if s.fabric.cables.contains cable then s.fabric.cables else s.fabric.cables ++ [cable],
        found := if new then s.fabric.found ++ [m] else s.fabric.found } }
      .next (if new && decide (m.node ≠ 0) then s.probeBeyond p m m.arrival else s).walkCheck

/-- CONFIG (R273, R274, Table 12-8): passed on along its route; accepted from the registered root only. -/
def execConfig (p : PortId) (k : Packet) (s : State) : Out :=
  let s := s.takeRx k
  if k.op ≠ 0x22 then .next s
  else if fb k.arg 11 1 < fb k.arg 10 1 then .next (s.passOn p k false)
  else if s.fabric.root = 0 ∨ k.src ≠ s.fabric.root then .next (s.violation p k.header)
  else .next (s.configure k.arg (k.data.drop 32))

/-- MANAGEMENT_MESSAGE (R271): delivered to the Lantern. -/
def execManagementMessage (k : Packet) (s : State) : Out :=
  let s := s.takeRx k
  if k.op = 0x23 ∧ s.fabric.node ≠ 0 then .next { s with fabric := { s.fabric with mgmt := s.fabric.mgmt ++ [k] } } else .next s

/-! ## Time and the Beacon tree -/

/-- FAB_NODE as a word. -/
def Fabric.nodeWord (f : Fabric) : Nat :=
  f.node.toNat + 2 ^ 16 * b2n f.inTree + 2 ^ 17 * b2n f.holdover + 2 ^ 18 * b2n f.unsync

/-- Event 0x5002. -/
def State.timeEvent (s : State) : State := s.hdEvent 0x5002 (leBytes 4 s.fabric.nodeWord)

/-- TIME_FLIT (R280): a time flit arrives with its sender's time and the difference the sender measured on this link. -/
def execTimeFlit (p : PortId) (sent heard : DWord) (s : State) : Out :=
  .next (if s.portUp p then s.timeArrives p sent.toNat heard.toInt else s)

/-- TIME_FLIT_SEND (R280): a port that is up sends a time flit, with its time and the difference it measured last (DESIGN CHOICE: R280 names only the
time; the difference is what the other end needs to learn the delay in both directions). -/
def execTimeFlitSend (p : PortId) (s : State) : Out :=
  if !s.portUp p then .next s
  else .next (s.modPort p (fun x => { x.told with
    timeSent := x.timeSent ++ [x.flit 3 0 (x.txNext - 1).toNat (leBytes 8 s.timeNs ++ leBytes 8 (BitVec.ofInt 64 x.timeDiff).toNat)] }))

/-- UPSTREAM_PORT_DOWN (R281): the module holds its frequency and switches to its reserve port when it has one that is up; time and phase
do not step. -/
def execUpstreamPortDown (s : State) : Out :=
  match s.fabric.upstream with
  | none => .next s
  | some p =>
    let s := s.modPort p (fun x => { x with upstream := false })
    match s.fabric.reserve with
    | some r =>
      if s.portUp r then
        .next ({ s with fabric := { s.fabric with upstream := some r, reserve := none } }.modPort r (fun x => { x with upstream := true }))
      else .next ({ s with fabric := { s.fabric with upstream := none, holdover := true, holdSince := some s.timeNs } }.timeEvent)
    | none => .next ({ s with fabric := { s.fabric with upstream := none, holdover := true, holdSince := some s.timeNs } }.timeEvent)

/-- The job fails without a failing descriptor (R281). -/
def State.jobLost (s : State) : State :=
  match s.lantern.job with
  | some j => if j.state = 3 ∨ j.state = 4 then s.jobStop 6 else s
  | none => s

/-- HOLDOVER_EXPIRY (R281, R306, R423): without an upstream for 10 s the module leaves the tree, its time is unsynchronised and its job
fails; every collective of the job is aborted (in jobStop). -/
def execHoldoverExpiry (s : State) : Out :=
  if !s.fabric.holdover && !s.fabric.refHoldover then .next s
  else .next (({ s with fabric := { s.fabric with
      inTree := false, unsync := true, holdover := false, refHoldover := false, holdSince := none } }.timeEvent).jobLost)

end Sys2Proof.Machine
end

