-- ==== Sys2Proof/Machine/Beacon.lean ====
section
/-! DEFINITION. The Beacon start (R282 to R285, R347) and the frequency change it carries (R368). -/
namespace Sys2Proof

/-- A Beacon message in a packet: in arg seq (0–3), armed count (4–7), status (8–9); in data job_id (0–15), start time (16–23), TCLK
code (24), ADR (25–26), sender's rank (27–30). DESIGN CHOICE: Table 12-7 gives the fields, no places. -/
def BeaconMsg.arg (m : BeaconMsg) : List Byte := leBytes 4 m.seq.toNat ++ leBytes 4 m.armed.toNat ++ leBytes 2 m.status.toNat

/-- Data bytes of a Beacon packet. -/
def BeaconMsg.body (m : BeaconMsg) : List Byte :=
  leBytes 16 m.jobId.toNat ++ leBytes 8 m.start.toNat ++ leBytes 1 m.tclk.toNat ++ leBytes 2 m.adr.toNat ++ leBytes 4 m.rank

end Sys2Proof

namespace Sys2Proof.Machine

/-- Children of a rank in the start tree (R282). -/
def beaconKids (r n : Nat) : List Nat := ([1, 2, 3, 4].map (4 * r + ·)).filter (fun k => decide (k < n))

/-- Send a Beacon message to a rank as a TC3 packet. -/
def State.beaconSend (s : State) (j : Job) (op : Nat) (m : BeaconMsg) (rank : Nat) : State :=
  let m := { m with rank := j.rank }
  (s.send 0 (s.packet 0 (j.comm.getD rank 0) op 3 0 0 0 m.arg m.body)).2

/-- Send a Beacon message to every child. -/
def State.beaconDown (s : State) (j : Job) (op : Nat) (m : BeaconMsg) : State :=
  (beaconKids j.rank j.nranks).foldl (fun s r => s.beaconSend j op m r) s

/-- Change the Beacon. -/
def State.modBeacon (s : State) (f : Beacon → Beacon) : State :=
  { s with fabric := { s.fabric with beacon := f s.fabric.beacon } }

/-- Take the packet of a Beacon message out of the port that holds it. -/
def State.takeBeacon (s : State) (op : Nat) (m : BeaconMsg) : State :=
  match ((List.range 24).map (fun p => (s.port p).rx)).flatten.find? (fun k =>
      decide (k.op.toNat = op) && decide (bytesAt k.arg 0 10 = m.arg) && decide (bytesAt k.data 0 31 = m.body)) with
  | some k => s.takeRx k
  | none => s

/-- Event 0x0002 with its outcome. -/
def State.beaconEvent (s : State) (outcome : Nat) (seq : Word) : State :=
  s.hdEvent 0x0002 (leBytes 1 outcome ++ leBytes 4 seq.toNat)

/-- Is a Beacon received by the job now a frequency change (R368)? -/
def Job.changing (j : Job) : Bool := decide (j.state = 3) || (decide (j.state = 4) && !j.resuming)

/-- A node's own check of an ARM (R283): armed with this TCLK code and ADR, start at least 20 µs ahead. A frequency change brings its
own code (R368). -/
def State.armOk (s : State) (j : Job) (m : BeaconMsg) : Bool :=
  (if j.changing then decide (m.tclk.toNat ≤ 5)
   else (decide (j.state = 2) || j.resuming) && decide (m.tclk.toNat = j.code)) &&
    decide (m.adr = s.fabric.commonAdr) && decide (s.timeNs + 20000 ≤ m.start.toNat)

/-- Sum of the armed counts and worst status of a node and the subtrees that have acknowledged. A node whose check fails counts itself 0
with status 1 (DESIGN CHOICE: the spec names neither). -/
def Beacon.tally (b : Beacon) : Nat × Nat :=
  b.acks.foldl (fun a e => (a.1 + e.2.1, max a.2 e.2.2)) (if b.ownStatus = 0 then 1 else 0, b.ownStatus.toNat)

/-- Have all children acknowledged? -/
def Beacon.complete (b : Beacon) (j : Job) : Bool :=
  (beaconKids j.rank j.nranks).all (fun r => b.acks.any (fun e => decide (e.1 = r)))

/-- The root's answer to the request that started a Beacon (R347): JOB_ARM or JOB_RESUME with an outcome. A frequency change is answered
when the dies have switched, or with YST_HW_ERROR after SNUFF (DEDUCED). -/
def State.beaconAnswer (s : State) (outcome : Nat) (m : BeaconMsg) (armed : Nat) : State :=
  match s.fabric.beacon.request with
  | none => s
  | some r =>
    let payload := leBytes 1 outcome ++ zeros 3 ++ leBytes 4 m.seq.toNat ++ leBytes 8 m.start.toNat ++ leBytes 4 armed
    let s :=
      if s.fabric.beacon.change then
        (if outcome = 2 then (s.respond 0x0403 r 0x10 []).modJob (fun j => { j with freqReq := none }) else s)
      else
        let cmd := match s.lantern.job with | some j => if j.resuming then 0x0205 else 0x0203 | none => 0x0203
        s.respond cmd r 0 payload
    s.modBeacon (fun b => { b with request := none })

/-- The root decides (R283, R285): LIGHT or SNUFF, once. -/
def State.beaconDecide (s : State) (j : Job) (light : Bool) : State :=
  match s.fabric.beacon.arm with
  | none => s
  | some m =>
    let n := s.fabric.beacon.tally.1
    if light then
      ((s.beaconDown j 0x12 m).modBeacon (fun b => { b with light := true, sent := true, root := false })).beaconAnswer 1 m n
    else
      (((s.beaconDown j 0x13 m).beaconAnswer 2 m n).modBeacon (fun b => { b with arm := none, light := false, root := false })).beaconEvent 1 m.seq

/-- What a node does when its own check and the ACKs of all its children are in (R283): ACK to its parent; the root sends LIGHT when
all is well no later than 10 µs before the start time. -/
def State.beaconStep (s : State) (j : Job) : State :=
  let b := s.fabric.beacon
  match b.arm with
  | none => s
  | some m =>
    if !b.complete j ∨ b.sent then s
    else
      let (n, st) := b.tally
      if b.root then
        if st = 0 ∧ n = j.nranks ∧ s.timeNs + 10000 ≤ m.start.toNat then s.beaconDecide j true else s
      else (s.beaconSend j 0x11 { m with armed := BitVec.ofNat 32 n, status := BitVec.ofNat 16 st } ((j.rank - 1) / 4)).modBeacon
        (fun b => { b with sent := true })

/-- An ARM is taken up: forwarded to the children at once, then checked. -/
def State.armTake (s : State) (j : Job) (m : BeaconMsg) (root : Bool) (request : Option Request) : State :=
  let s := s.beaconDown j 0x10 m
  let own : BitVec 16 := if s.armOk j m then 0 else 1
  (s.modBeacon (fun _ => { arm := some m, root := root, ownStatus := own, change := j.changing, seq := m.seq, request := request })).beaconStep j

/-- The start root sends ARM (R283, R347, R368). -/
def State.beaconStart (s : State) (start code : Nat) (request : Request) : State :=
  match s.lantern.job with
  | none => s
  | some j =>
    let m : BeaconMsg := ⟨j.rank, j.jobId, s.fabric.beacon.seq + 1, BitVec.ofNat 64 start, BitVec.ofNat 8 code, s.fabric.commonAdr, 0, 0⟩
    s.armTake j m true (some request)

/-- The job a Beacon message is for, in the version the fabric runs (R407). -/
def State.beaconJob (s : State) (m : BeaconMsg) : Option Job :=
  if s.fabric.beaconVersion ≠ 1 then none
  else match s.lantern.job with | some j => if j.jobId = m.jobId then some j else none | none => none

/-- BEACON_ARM (R283, R284): a higher seq replaces the ARM held, a duplicate is ignored; an ARM of no job here is logged and dropped. -/
def execBeaconArm (m : BeaconMsg) (s : State) : Out :=
  let s := s.takeBeacon 0x10 m
  match s.beaconJob m with
  | none => .next (s.logNote 0 m.arg)
  | some j =>
    if j.rank = 0 ∨ m.rank ≠ (j.rank - 1) / 4 ∨ m.seq ≤ s.fabric.beacon.seq then .next s
    else .next (s.armTake j m false none)

/-- BEACON_ACK (R283). -/
def execBeaconAck (m : BeaconMsg) (s : State) : Out :=
  let s := s.takeBeacon 0x11 m
  match s.beaconJob m, s.fabric.beacon.arm with
  | some j, some a =>
    if a.seq = m.seq ∧ (beaconKids j.rank j.nranks).contains m.rank then
      .next ((s.modBeacon (fun b => { b with acks := Map.ins b.acks m.rank (m.armed.toNat, m.status.toNat) })).beaconStep j)
    else .next s
  | _, _ => .next s

/-- LIGHT (R284): forwarded and held; after the start time it is ignored. -/
def execLight (m : BeaconMsg) (s : State) : Out :=
  let s := s.takeBeacon 0x12 m
  match s.beaconJob m, s.fabric.beacon.arm with
  | some j, some a =>
    if a.seq = m.seq ∧ s.timeNs ≤ m.start.toNat ∧ !s.fabric.beacon.light then
      .next ((s.beaconDown j 0x12 m).modBeacon (fun b => { b with light := true }))
    else .next s
  | _, _ => .next s

/-- SNUFF (R284): forwarded; the held ARM is discarded and the node stays armed; after a start it is logged and ignored. -/
def execSnuff (m : BeaconMsg) (s : State) : Out :=
  let s := s.takeBeacon 0x13 m
  match s.beaconJob m with
  | none => .next s
  | some j =>
    match s.fabric.beacon.arm with
    | some a =>
      if a.seq = m.seq then
        .next (((s.beaconDown j 0x13 m).modBeacon (fun b => { b with arm := none, light := false })).beaconEvent 1 m.seq)
      else .next s
    | none => .next (s.logNote 0 m.arg)

/-- BEACON_DEADLINE (R283): the root that has not sent LIGHT sends SNUFF. -/
def execBeaconDeadline (s : State) : Out :=
  match s.lantern.job with
  | some j => if s.fabric.beacon.root && s.fabric.beacon.arm.isSome then .next (s.beaconDecide j false) else .next s
  | none => .next s

/-- A die starts at the epoch (R131, R137, R284): from slot 0, or, on a resume, from its frame-instance boundary with ES := SC;
the die cache's settings are locked (R222). -/
def Die.start (resume : Bool) (time : Nat) (x : Die) : Die :=
  let x := { x with dc := { x.dc with locked := true } }
  if resume then
    let x := { x with esBase := x.sc, esTime := time, behind := false }
    if x.quiesced then { x with running := true, quiesced := false }.startInstance else x
  else { x with sc := 0, esBase := 0, esTime := time, running := !x.stream.isEmpty }.startInstance

/-- The job starts (R284, Table 15-11). -/
def State.jobStart (s : State) (time : Nat) : State :=
  let resume := decide (s.jobState = 4)
  let s := (List.range 4).foldl (fun s d => s.modDie d (Die.start resume time)) s
  (s.modJob (fun j => { j with state := 3, epoch := some time, resuming := false })).jobEvent.jobCheck

/-- BEACON_START_TIME (R284, R368): global time reaches the start time. ARM with LIGHT starts the job or, for a frequency change, sets
the change time; ARM alone is discarded. -/
def execBeaconStartTime (s : State) : Out :=
  let b := s.fabric.beacon
  match b.arm with
  | none => .next s
  | some m =>
    let s := { s with timeNs := max s.timeNs m.start.toNat }
    let s := s.modBeacon (fun b => { b with arm := none, light := false, root := false })
    if !b.light then .next (s.beaconEvent 2 m.seq)
    else
      let s := s.beaconEvent 0 m.seq
      if b.change then .next (s.modJob (fun j => { j with freqNew := some (m.tclk.toNat, m.start.toNat), freqAt := [] }))
      else if s.jobState = 2 ∨ s.jobState = 4 then .next (s.jobStart m.start.toNat) else .next s

/-- A Beacon whose ARM has gone out is cancelled (DEDUCED from R285): the root sends SNUFF as its one outcome, and its request is answered
with a status. -/
def State.beaconCancel (s : State) (status : Nat) : State :=
  match s.lantern.job with
  | none => s
  | some j =>
    match s.fabric.beacon.request, s.fabric.beacon.root with
    | some r, true =>
      let s := s.modBeacon (fun b => { b with request := none })
      let cmd := if s.fabric.beacon.change then 0x0403 else if j.resuming then 0x0205 else 0x0203
      (s.respond cmd r status []).beaconDecide j false
    | _, _ => s.modBeacon (fun b => { b with arm := none, light := false, root := false })

end Sys2Proof.Machine
end

