-- ==== Sys2Proof/Machine/CollRows.lean ====
section
/-! DEFINITION. The rows of the collective engines and negative responses (13_collectives, R272). -/
namespace Sys2Proof.Machine

/-- A data packet of no issued step, or beyond the credit, is dropped as a flit without credit (R304, Table 12-8). -/
def State.noCredit (s : State) (p : Nat) (k : Packet) : State := (s.violation p k.header).retrain p

/-- A peer that the engine waited for has been heard (R306). -/
def State.peerHeard (s : State) (d e r : Nat) : State :=
  if (s.ce d e).waitRank = some r then s.modCe d e (fun c => { c with waitRank := none, probing := none }) else s

/-- COLLECTIVE_DATA (R290, R301, R304): data of a step arrive under credit, in order; more credit is granted as they are consumed. -/
def execCollectiveData (d : DieId) (e : CeId) (k : Packet) (s : State) : Out :=
  let p := s.rxPort d k
  let s := s.takeRx k
  if k.op ≠ 7 then .next s
  else
    match (s.ce d e).step (collOf k) (stepOf k) with
    | none => .next (s.noCredit p k)
    | some st =>
      let r := rankOf k
      let first := !st.checked.contains r
      if !st.checks k then .next (s.collAbort d e st 4 true 0xFFFFFFFF)
      else
        let l := (bytesAt k.data 0 k.len.toNat).drop (if first then 4 else 0)
        let have_ := if kindOf k = 1 then Map.get [] st.gotCeil r else Map.get [] st.got r
        if st.ranks.length ≤ r ∨ 1 < kindOf k ∨ k.addr.toNat % 2 ^ 22 ≠ have_.length % 2 ^ 22 ∨
            Map.get 0 st.granted r < st.received r + l.length then .next (s.noCredit p k)
        else
          let s := s.modStep d e (collOf k) (stepOf k) (fun st => { st with
            checked := if first then st.checked ++ [r] else st.checked,
            got := if kindOf k = 0 then Map.put [] st.got r (have_ ++ l) else st.got,
            gotCeil := if kindOf k = 1 then Map.put [] st.gotCeil r (have_ ++ l) else st.gotCeil })
          .next (s.peerHeard d e r).collGo

/-- COLLECTIVE_CREDIT (R301): a peer's credit; the engine sends what it now may. -/
def execCollectiveCredit (d : DieId) (e : CeId) (k : Packet) (s : State) : Out :=
  let s := s.takeRx k
  if k.op ≠ 8 ∨ kindOf k ≠ 0 then .next s else .next (((s.creditIn d e k).peerHeard d e (rankOf k)).collGo)

/-- A probe or its reply carries a check value when it is the first packet to its peer (R290): is it the step's own, when there is one? -/
def probeChecks (st : CollStep) (k : Packet) (plain : Nat) : Bool :=
  decide (k.len.toNat < plain + 4) || decide (fb k.data 0 4 = checkValue st.raw st.ranks)

/-- COLLECTIVE_PROBE (R306): answered from hardware with the collective and step the engine executes, and 0xFFFF when the probed step
is not issued (DESIGN CHOICE: R304 gives the content, no form); a check value that differs ends the step (R290). -/
def execCollectiveProbe (d : DieId) (e : CeId) (k : Packet) (s : State) : Out :=
  let s := s.takeRx k
  if k.op ≠ 8 ∨ kindOf k ≠ 1 then .next s
  else
    let c := s.ce d e
    let (coll, step) := match c.steps with
      | st :: _ => ((collFields st.raw).collId, (collFields st.raw).step)
      | [] => (0, 0)
    let own := c.step (collOf k) (stepOf k)
    let fresh := match own with | some st => st.fresh (rankOf k) && decide (rankOf k < st.ranks.length) | none => false
    let check := match own with | some st => if fresh then leBytes 4 (checkValue st.raw st.ranks) else [] | none => []
    let data := check ++ leBytes 4 coll ++ leBytes 2 step ++ leBytes 2 (if own.isSome then 0 else 0xFFFF)
    let s := (s.send d (s.packet d k.src.toNat 8 k.tc (k.sdie.toNat % 4 * 2 ^ 48) k.tag.toNat (slice k.key.toNat 3 2 + 4 * e)
      (leBytes 6 (collOf k + 2 ^ 32 * stepOf k) ++ [2, 0] ++ leBytes 4 (rankOf k)) data)).2
    match own with
    | none => .next s
    | some st =>
      if !probeChecks st k 0 then .next (s.collAbort d e st 4 true 0xFFFFFFFF)
      else if fresh then .next (s.modStep d e (collOf k) (stepOf k) (fun st => { st with greeted := st.greeted ++ [rankOf k] }))
      else .next s

/-- COLLECTIVE_PROBE_REPLY (R290, R305, R306): the peer is alive; the step goes on waiting. The reply carries the prober's rank back, and the
probe's tag names the peer. -/
def execCollectiveProbeReply (d : DieId) (e : CeId) (k : Packet) (s : State) : Out :=
  let p := s.rxPort d k
  let s := s.takeRx k
  if k.op ≠ 8 ∨ kindOf k ≠ 2 then .next s
  else
    match (s.ce d e).probing with
    | none => .next (s.violation p k.header)
    | some _ =>
      let s := s.modCe d e (fun c => { c with probing := none })
      match (s.ce d e).step (collOf k) (stepOf k) with
      | none => .next s
      | some st => if probeChecks st k 8 then .next s else .next (s.collAbort d e st 4 true 0xFFFFFFFF)

/-- COLLECTIVE_ABORT (R307). -/
def execCollectiveAbort (d : DieId) (e : CeId) (k : Packet) (s : State) : Out :=
  let s := s.takeRx k
  if k.op ≠ 8 ∨ kindOf k ≠ 3 then .next s else .next (s.abortHeard d e (collOf k) (rankOf k) (stepOf k))

/-- The step of a die whose packets to a peer carry a tag. -/
def Die.tagged (x : Die) (tag : Nat) : Option (Nat × CollStep × Nat) :=
  (x.ces.map (fun c => (c.2.steps.filterMap (fun st =>
    (st.tags.find? (fun t => decide (t.2 = tag))).map (fun t => (c.1, st, t.1)))))).flatten.head?

/-- NEGATIVE_RESPONSE (R272, R306, R307): it ends the remote access or signal it answers, whose descriptor meets the status; for a
packet of a collective the peer is declared failed. -/
def execNegativeResponse (d : DieId) (k : Packet) (s : State) : Out :=
  let p := s.rxPort d k
  let d := k.die
  let s := s.takeRx k
  let status := if fb k.arg 0 2 = 0x0A ∨ fb k.arg 0 2 = 0x0B then fb k.arg 0 2 else 9
  if k.op ≠ 0x0F then .next s
  else
    match (s.die d).remote.find? (fun q => decide (q.tag = k.tag.toNat) && !q.done) with
    | some q =>
      .next ((s.modDie d (fun x => { x with
        remote := x.remote.map (fun o => if o.tag = q.tag ∧ o.op = q.op then { o with done := true } else o) })).flightStatus d q.src status)
    | none =>
      match Map.get none ((s.die d).signals.map (fun e => (e.1, some e.2))) k.tag.toNat with
      | some src => .next (s.signalDone d k src status)
      | none =>
        match (s.die d).tagged k.tag.toNat with
        | some (e, st, r) => .next (s.collAbort d e st 0x0E false r)
        | none => .next ((s.orphanDone d (fun q => decide (q.tag = k.tag.toNat))).getD (s.violation p k.header))

/-- CE_PEER_WAIT_TIMEOUT (R306): the engine has waited 100 µs for a peer: an event, and a probe to it. A peer on this module answers
at once. -/
def execCePeerWaitTimeout (d : DieId) (e : CeId) (rank : Word) (s : State) : Out :=
  match (s.ce d e).steps with
  | [] => .next s
  | st :: _ =>
    let x := collFields st.raw
    if st.ranks.length ≤ rank.toNat ∨ rank.toNat = x.rank then .next s
    else
      let entry := st.ranks.getD rank.toNat 0
      let s := s.modCe d e (fun c => { c with
        waitRank := some rank.toNat, probing := if s.isLocal entry then none else some rank.toNat,
        cntProbes := BitVec.ofNat 16 (satAdd 16 c.cntProbes.toNat 1) })
      let s := s.dieEvent d e Config.peerWaitEvent.toNat (leBytes 4 x.collId ++ leBytes 2 x.step ++ leBytes 4 rank.toNat)
      if s.isLocal entry then .next s
      else
        let fresh := st.fresh rank.toNat
        let check := if fresh then leBytes 4 (checkValue st.raw st.ranks) else []
        let s := (s.send d (st.tagged rank.toNat (s.collPacket d entry x 8 1 st.round x.rank 0 check))).2
        .next (if fresh then s.modStep d e x.collId x.step (fun st => { st with greeted := st.greeted ++ [rank.toNat] }) else s)

/-- PROBE_REPLY_TIMEOUT (R306, R307): no reply within 2 ms of a probe: the peer has failed and the collective aborts. -/
def execProbeReplyTimeout (d : DieId) (e : CeId) (rank : Word) (s : State) : Out :=
  match (s.ce d e).steps with
  | [] => .next s
  | st :: _ =>
    if (s.ce d e).probing = some rank.toNat then .next (s.collAbort d e st 0x0E false rank.toNat) else .next s

/-- COLLECTIVE_STEP_COMPLETE (R302). -/
def execCollectiveStepComplete (d : DieId) (e : CeId) (s : State) : Out := .next (s.stepComplete d e)

/-- CE_SATURATION_PERSIST (R299): 220,000 CK_NOC cycles are 100 µs. -/
def execCeSaturationPersist (d : DieId) (e : CeId) (level : Fin 4) (s : State) : Out :=
  .next ((s.modCe d e (fun c => { c with
    sat := c.sat ||| BitVec.ofNat 4 (2 ^ level.val), satEvent := true, satLevel := BitVec.ofNat 2 level,
    satCycles := Map.modify 0 c.satCycles level (· + 220000) })).dieEvent d e 0x1002 (leBytes 1 2 ++ leBytes 2 level))

end Sys2Proof.Machine
end

