-- ==== Sys2Proof/Machine/HostDie.lean ====
section
/-! DEFINITION. The host die's windows and resets (14_host_die): MSI writes (R318), the BAR2 window (R320, R202, R204), inbound PE1
accesses (R323, R324), PERST0_N and PERST1_N (R325), the heartbeat write (R326). -/
namespace Sys2Proof.Machine

/-- Agent code of a PCIe requester under PE1 (Table 08-8). -/
def pe1Agent (requester : Nat) : Nat := 4 + 16 * requester

/-- A PE1 access that is refused (R318, R323): logged; a read completes with Unsupported Request, a write is discarded. -/
def State.pe1Refuse (s : State) (requester addr : Nat) (a : Access) : State :=
  let s := s.logAccess 5 addr (pe1Agent requester)
  match a with
  | .read _ => s.reply .unsupported
  | .write _ => s.reply .discarded

/-- PE1_MSI_WRITE (R318): to the first word of an S-level page, which sets the written identity pending. Words other than the first
of a page have no effect, as an identity of 0 or above 2,047 (PRESUMED: RISC-V AIA, seteipnum_le). -/
def execPe1MsiWrite (requester : BitVec 12) (addr : DWord) (value : Word) (s : State) : Out :=
  let o := addr.toNat - 0x0F0003000000
  if !s.domainOn .pe1 then .next s
  else if addr.toNat < 0x0F0003000000 ∨ 96 * 0x1000 ≤ o ∨ addr.toNat % 4 ≠ 0 then
    .next (s.pe1Refuse requester.toNat addr.toNat (.write (leBytes 4 value.toNat)))
  else if o % 0x1000 = 0 ∧ 1 ≤ value.toNat ∧ value.toNat ≤ 2047 then .next ((s.imsicPend (o / 0x1000) value.toNat).reply .done)
  else .next (s.reply .done)

/-- The response to a failed window read or write (Table 01-9, Table 10-3). -/
def windowError (e : MemErr) (write : Bool) : Reply :=
  if write then .discarded else match e with | .fenced => .completerAbort | _ => .unsupported

/-- Read through the BAR2 window line by line, with fuel: a line of the read-ahead buffer is served from it, others enter it (R204). The
buffer holds 32 lines (DESIGN CHOICE: the spec gives it no size). -/
def State.bar2Read (acc : Acc) : Nat → State → Nat → Nat → List Byte → Except MemErr (List Byte) × State
  | 0, s, _, _, l => (.ok l, s)
  | f + 1, s, a, n, l =>
    if n = 0 then (.ok l, s)
    else
      let k := min n (128 - a % 128)
      match s.host.readAhead.find? (fun x => decide (x.line = a / 128) && decide (x.key = acc.key)) with
      | some x => State.bar2Read acc f s (a + k) (n - k) (l ++ bytesAt x.data (a % 128) k)
      | none =>
        match s.readMem acc (a / 128 * 128) 128 with
        | (.error e, s) => (.error e.1, s)
        | (.ok x, s) =>
          let s := { s with host := { s.host with readAhead := ((⟨a / 128, acc.key, x⟩ : SideLine) :: s.host.readAhead).take 32 } }
          State.bar2Read acc f s (a + k) (n - k) (l ++ bytesAt x (a % 128) k)

/-- Access of the external host through BAR2. -/
def State.bar2Acc (s : State) : Acc := ⟨3, 2, .bar2, slice s.host.winBase.toNat 5 0, false⟩

/-- BAR2_ACCESS (R320, R328): the window's address and key; during a host restart reads complete with Completer Abort and writes are
discarded and counted. A write takes its own lines out of the read-ahead buffer (R202: a read never passes an earlier write). DESIGN CHOICE: while
PD_UNC is off (M-PILOT) the pool answers as an unmapped address (notes/assumptions/89). -/
def execBar2Access (offset : BitVec 29) (a : Access) (s : State) : Out :=
  let addr := slice s.host.winBase.toNat 47 21 * 2 ^ 21 + offset.toNat
  if !s.domainOn .pe0 then .next s
  else if s.host.restarting then
    match a with
    | .read _ => .next (s.reply .completerAbort)
    | .write _ => .next ({ s with host := { s.host with bar2Discarded := s.host.bar2Discarded + 1 } }.reply .discarded)
  else if !s.domainOn .unc then
    match a with
    | .read _ => .next (s.reply .unsupported)
    | .write _ => .next (s.reply .discarded)
  else
    let s := s.wake
    match a with
    | .read n =>
      match State.bar2Read s.bar2Acc (n / 128 + 2) s addr n [] with
      | (.ok l, s) => .next (s.reply (.bytes l))
      | (.error e, s) => .next (s.reply (windowError e false))
    | .write l =>
      let acc := s.bar2Acc
      let s := { s with host := { s.host with
        readAhead := s.host.readAhead.filter (fun x => decide (x.line < addr / 128) || decide ((addr + l.length + 127) / 128 ≤ x.line)) } }
      match s.writeMem acc addr l with
      | (none, s) => .next (s.reply .done)
      | (some e, s) => .next (s.reply (windowError e.1 true))

/-- Bits of WIN_BASE that hold fields. -/
def winMask : DWord := 0x0000FFFFFFE0003F

/-- WIN_BASE_WRITE (R320): the window moves and the whole read-ahead buffer is invalid. -/
def execWinBaseWrite (v : DWord) (s : State) : Out :=
  .next { s with host := { s.host with winBase := v &&& winMask, readAhead := [] } }

/-- The lowest enabled DMA range that holds an access, with its key (R323). -/
def State.dmaKey (s : State) (addr n : Nat) : Option Nat :=
  ((List.range 16).find? (fun i =>
    let r := (Map.get 0 s.host.dma i).toNat
    let base := slice r 47 21 * 2 ^ 21
    bit r 0 && decide (base ≤ addr) && decide (addr + n ≤ base + (slice r 20 7 + 1) * 2 ^ 21))).map (fun i => slice (Map.get 0 s.host.dma i).toNat 6 1)

/-- PE1_INBOUND_DMA (R323, R324): in root-port mode through a DMA range, under its key; in endpoint mode through the window at
PE1_WIN_BASE, addr being the offset in its BAR. -/
def execPe1InboundDma (requester : BitVec 12) (addr : DWord) (a : Access) (s : State) : Out :=
  let n := match a with | .read n => n | .write l => l.length
  let target : Option (Nat × Acc) :=
    if s.host.pe1Root then (s.dmaKey addr.toNat n).map (fun k => (addr.toNat, ⟨pe1Agent requester.toNat, 2, .os, k, false⟩))
    else if addr.toNat < 2 ^ 29 then
      some (slice s.host.pe1Win.toNat 47 21 * 2 ^ 21 + addr.toNat, ⟨pe1Agent requester.toNat, 2, .pe1, slice s.host.pe1Win.toNat 5 0, false⟩)
    else none
  if !s.domainOn .pe1 then .next s
  else
  match target with
  | none => .next (s.pe1Refuse requester.toNat addr.toNat a)
  | some (p, acc) =>
    let s := s.wake
    match a with
    | .read n =>
      match s.readMem acc p n with
      | (.ok l, s) => .next (s.reply (.bytes l))
      | (.error e, s) => .next (s.reply (windowError e.1 false))
    | .write l =>
      match s.writeMem acc p l with
      | (none, s) => .next (s.reply .done)
      | (some e, s) => .next (s.reply (windowError e.1 true))

/-- PE0's own reset (R325): link, configuration space, MSI-X table and PBA, windows, read-ahead buffer, the mailbox's outstanding tags. -/
def State.perst0 (s : State) : State :=
  let s := { s with host := { s.host with
    pe0Link := false, bars := [], msixEnable := false, msixTable := [], msixPba := [], winBase := 0, regwin := 0, readAhead := [] } }
  s.modBox 1 (fun m => { m with outstanding := [], rsp := none, rspQueue := [] })

/-- PERST0_N or FLR (R325): PE0 then trains anew. -/
def execPerst0N (s : State) : Out :=
  let s := s.perst0
  .next { s with host := { s.host with pe0Link := s.host.pe0Ready } }

/-- PERST1_N (R325): an input in endpoint mode only. -/
def execPerst1N (s : State) : Out :=
  if s.host.pe1Root then .next s else .next { s with host := { s.host with pe1Win := 0 } }

/-- HOST_HB_BEAT (R326). -/
def execHostHbBeat (s : State) : Out := .next { s with host := { s.host with missed := 0 } }

end Sys2Proof.Machine
end

