-- ==== Sys2Proof/Machine/Order.lean ====
section
/-! DEFINITION. Ordering (08_memory_ordering): write-combining buffers, the cores' barriers and cache-block operations (R181, R186 to
R191, R312 to R316), abandoned stores (R195 to R197), drains (R199), WIN_SYNC (R205). A unit's store is performed in the step that makes it; a
barrier waits for the writes of the directory rows, whose messages it lets arrive. -/
namespace Sys2Proof.Machine

/-! ## Barriers and cache-block operations of the cores -/

/-- A hart's buffers drain for a barrier (R181, R187); one that meets the unmapped response is an access fault of the hart (R25). -/
def State.wcSync (s : State) (h : Nat) : State := (List.range 8).foldl (fun s b => s.wcEvict h b) s

/-- Does a valid buffer of a hart meet the unmapped response? -/
def State.wcLost (s : State) (h b : Nat) : Bool :=
  let w := Map.get {} (s.hart h).wc b
  w.valid && (!s.holds .core w.key || (match s.place (w.line * 128) with | .mem _ => false | .ts _ _ _ => false | _ => true))

/-- JL_SYNC_C (R187): the hart's gathered stores leave for their homes. FENCE has no row: it waits for no Normal-NC or Device store and changes
nothing here (R187, R190). A word that does not spell it takes an illegal-instruction exception, cause 2 (R314; PRESUMED: RISC-V's number). -/
def execJlSyncC (x : HartWord) (s : State) : Out :=
  if customOp x.word.toNat ≠ some 0 then .next (s.trap x.hart 2 0) else .next (s.wcSync x.hart)

/-- JL_SYNC_S (R186, R195, R196, R314): a cumulative system-scope release; an abandoned store of the hart is delivered as cause 24. -/
def execJlSyncS (x : HartWord) (s : State) : Out :=
  if customOp x.word.toNat ≠ some 1 then .next (s.trap x.hart 2 0)
  else
    let h := x.hart.val
    let lost := (List.range 8).any (s.wcLost h)
    let s := s.wcSync h
    if lost then .next s
    else
      let s := s.release
      match (s.hart h).pendErr with
      | none => .next s
      | some a => .next ((s.modHart h (fun x => { x with pendErr := none })).trap h 24 a)

/-- Logical tiles that a JL.INVAL.T selector names (R315), as (die, tile). -/
def State.invalTiles (s : State) (sel : Nat) : List (Nat × Nat) :=
  let all := ((List.range 4).map (fun d => (List.range (s.die d).count.toNat).map (fun t => (d, t)))).flatten
  if sel = 0 then all
  else
    let first := slice sel 6 0
    let n := slice sel 15 8
    all.filter (fun p => bit sel (16 + p.1) && decide (first ≤ p.2) && decide (p.2 < first + n))

/-- JL_INVAL_T (R191, R313 to R315): illegal in U mode without uinval. Bits of the selector above 19 play no part; a count above 128
names what lies within (DEDUCED). -/
def execJlInvalT (x : HartWord) (priv : Priv) (selector : DWord) (s : State) : Out :=
  if customOp x.word.toNat ≠ some 2 ∨ (priv = .u ∧ (s.hart x.hart).uinval = false) then .next (s.trap x.hart 2 0)
  else .next ((s.invalTiles selector.toNat).foldl (fun s p => s.l1Clear p.1 p.2) s)

/-- Write the modified copy of a line back to its home; the copies stay clean (R312). -/
def State.cboClean (s : State) (c line : Nat) : State :=
  let s := s.settleLine line
  match s.dirtyHolder line with
  | none => s
  | some a =>
    let l := s.agentLine a line
    let s := s.homePut ⟨cacheAgent a, 2, .anyone, l.key, false⟩ c line fullMask l.data
    match l.st with
    | .m => s.putAgent a line { l with st := .e }
    | .o =>
      let h := s.home line
      let own := match h.owner with | some o => agentMask [o] | none => 0
      (s.putAgent a line { l with st := .s }).putHome line { h with dir := .ds, owner := none, sharers := h.sharers ||| own }
    | _ => s

/-- A cache-block operation on a physical address: a store/AMO access fault (cause 7, PRESUMED: RISC-V) where no memory is mapped. -/
def State.cbo (s : State) (h addr : Nat) (f : State → Nat → State) : State :=
  match s.place addr with
  | .mem c => f s c
  | .ts _ _ _ => s
  | _ => (s.logAccess 0 addr (hartAgent h)).trap h 7 addr

/-- CBO_CLEAN. -/
def execCboClean (h : HartId) (addr : DWord) (s : State) : Out :=
  .next (s.cbo h addr.toNat (fun s c => s.cboClean c (addr.toNat / 128)))

/-- Write back and invalidate. A line that the hart's own cluster holds modified leaves it as an evicted one (Table 09-6): snoops that wait for
its hold are answered as in WBP. -/
def State.cboFlush (s : State) (h addr : Nat) : State :=
  s.cbo h addr (fun s c =>
    let line := addr / 128
    let a : CacheId := Fin.ofNat 13 (h / 8)
    let l := s.agentLine a line
    let s := match l.st with | .m => s.evict a line l.data | .o => s.evict a line l.data | _ => s
    ((s.cboClean c line).dropCopies line).homeGo line)

/-- CBO_FLUSH. -/
def execCboFlush (h : HartId) (addr : DWord) (s : State) : Out := .next (s.cboFlush h addr.toNat)

/-- CBO_INVAL: executed as cbo.flush. -/
def execCboInval (h : HartId) (addr : DWord) (s : State) : Out := .next (s.cboFlush h addr.toNat)

/-- CBO_ZERO: WR_FULL of zeros at the home (R231, R312); in a tile store the line is written with zeros. -/
def execCboZero (h : HartId) (addr : DWord) (key : KeyId) (s : State) : Out :=
  let base := addr.toNat / 128 * 128
  match s.writeMem (hartAcc h (s.pageKey h key)) base (zeros 128) with
  | (some (.unmapped, _), s) => .next (s.trap h 7 addr.toNat)
  | (_, s) => .next s

/-! ## Stores and loads that get no answer (R195 to R197) -/

/-- STORE_ABANDON: logged and reported; it stays pending for its hart, for the groups of the tile's open kernel, or ends the access of
its descriptor. -/
def execStoreAbandon (agent : BitVec 16) (addr : DWord) (s : State) : Out :=
  let i := agent.toNat / 16
  let s := (s.storeLost addr.toNat agent.toNat).storePend addr.toNat agent.toNat
  match agent.toNat % 16 with
  | 2 =>
    match (s.die (i / 256)).remote.find? (fun q => decide (q.op = 3) && !q.done && decide (q.tile = i % 256)) with
    | some q => .next (s.modDie (i / 256) (fun x => { x with
        remote := x.remote.map (fun o => if o.tag = q.tag then { o with done := true } else o) }))
    | none => .next ((s.orphanDone (i / 256) (fun q => decide (q.op = 3) && decide (q.tile = i % 256))).getD s)
  | _ => .next s

/-- DEVICE_LOAD_TIMEOUT: a load access fault at the load (cause 5, PRESUMED: RISC-V's number), logged; a descriptor's read ends it with
the unmapped-address status (DEDUCED from R272). -/
def execDeviceLoadTimeout (agent : BitVec 16) (addr : DWord) (s : State) : Out :=
  let i := agent.toNat / 16
  let s := s.logAccess 4 addr.toNat agent.toNat
  match agent.toNat % 16 with
  | 0 => .next ((s.trap i 5 addr.toNat).reply (.fault 5))
  | 2 =>
    match (s.die (i / 256)).remote.find? (fun q => decide (q.op = 1) && !q.done && decide (q.tile = i % 256)) with
    | some q => .next ((s.modDie (i / 256) (fun x => { x with
        remote := x.remote.map (fun o => if o.tag = q.tag then { o with done := true } else o) })).flightStatus (i / 256) q.src 9)
    | none => .next ((s.orphanDone (i / 256) (fun q => decide (q.op = 1) && decide (q.tile = i % 256))).getD s)
  | _ => .next (s.reply .completerAbort)

/-! ## Drains (R199) -/

/-- Lines with writes that have not reached their homes: WBs under way or held, writes queued at homes or held back. near d limits them to the lines
homed on TDd. -/
def State.writesDue (s : State) (mine : Nat → Bool) : List Nat :=
  let w (t : HomeTxn) := t.req.writes
  ((s.pool.msgs.filter (fun m => match m with | .wb _ l _ _ => mine l | _ => false)).map CohMsg.line ++
    ((s.pool.homes.filter (fun e => mine e.1)).map (fun e =>
      (((e.2.txn.toList.filter (fun t => w t && !e.2.placed)) ++ e.2.queue.filter w).map (fun _ => e.1)) ++
        (e.2.wbHeld.toList.map (fun _ => e.1)))).flatten ++
    (s.pool.heldBack.filter (fun e => mine e.1 && w e.2)).map (·.1))

/-- Lines and stores of the HD that a drain covers: modified lines of its caches, write-combining buffers, write-backs and writes at the homes. -/
def State.hdModified (s : State) : List Nat :=
  (s.pool.agents.filter (fun e => decide (e.2.st = .m) || decide (e.2.st = .o))).map (fun e => e.1 % 2 ^ 41) ++
    (s.host.harts.map (fun h => (h.2.wc.filter (fun b => b.2.valid)).map (fun b => b.2.line))).flatten ++
    s.writesDue (fun l => decide (4 ≤ (homeSlice l).1))

/-- Modified lines of a die cache, and writes queued at its homes. -/
def State.dcModified (s : State) (d : Nat) : List Nat :=
  ((s.die d).dc.lines.filter (fun e => e.2.dirty)).map (fun e => e.2.line) ++ s.writesDue (fun l => decide ((homeSlice l).1 = d))

/-- Writes of a die's TDM channels and collective engines that are not acknowledged, by the addresses they go to (R199). -/
def State.dieWrites (s : State) (d : Nat) : List Nat :=
  (((s.die d).remote ++ (s.die d).orphans).filter (fun q => decide (q.op = 3) && !q.done)).map (fun q => q.off / 128)

/-- Forget every copy, directory entry and message of the core caches. -/
def State.clearCaches (s : State) : State :=
  { s with
    pool := { s.pool with agents := [], homes := [], msgs := [], misses := [], heldBack := [] },
    host := { s.host with harts := (s.host.harts.map (fun h => (h.1, { h.2 with wc := [] }))).filter (fun h => decide (h.2 ≠ {})) } }

/-- The HD drains: buffers, the writes under way, then every modified line, reach their homes. -/
def State.drainHd (s : State) : State :=
  let s := (s.host.harts.foldl (fun s h => s.wcDrainAll h.1) s).settleAll
  let s := s.pool.agents.foldl (fun s e =>
    let line := e.1 % 2 ^ 41
    let a : CacheId := Fin.ofNat 13 (e.1 / 2 ^ 41)
    if s.newer a line then
      match s.lineCtrl line with
      | some c => s.homePut ⟨cacheAgent a, 2, .anyone, e.2.key, false⟩ c line fullMask (s.agentLine a line).data
      | none => s
    else s) s
  s.clearCaches

/-- DRAIN_CUTOFF: after 1 ms what remains on the die (4: the HD) is discarded; the reset that follows logs it. -/
def execDrainCutoff (die : Fin 5) (s : State) : Out :=
  let lines := if die.val = 4 then s.hdModified else s.dcModified die ++ s.dieWrites die
  let s := { s with svc := { s.svc with discarded := s.svc.discarded ++ lines } }
  let s := s.tear lines
  .next (if die.val = 4 then s.clearCaches else s.modDie die (fun x => { x with dc := { x.dc with lines := [], side := [] } }))

/-! ## WIN_SYNC (R204, R205) -/

/-- WIN_SYNC: every device write already released is visible through BAR2, so the read-ahead lines go; the read returns its sync point. Where
writes are still under way when it arrives, whether they are visible within 20 µs is time that the model has not: a free value, and all ones when
they are not. -/
def execWinSync (s : State) : Out :=
  let due := !s.pool.msgs.isEmpty || !(s.writesDue (fun _ => true)).isEmpty || s.dies.any (fun e => !(s.dieWrites e.1).isEmpty)
  let (late, s) := if due then s.free 1 else (0, s)
  if late = 1 then .next (s.reply (.bytes (List.replicate 8 255))) else .next ((s.release).reply (.bytes (leBytes 8 s.timeNs)))

end Sys2Proof.Machine
end

