-- ==== Sys2Proof/Machine/Tiers.lean ====
section
/-! DEFINITION. The memory tiers (10_memory_tiers): the symbol code RS(36,32) (R226 to R228), fenced lines and channels (R229, R232), the
rake (R233), row repair (R234 to R237), saturation (R238). -/
namespace Sys2Proof.Machine

/-! ## The symbol code (R226 to R228) -/

/-- Multiplication by α = 2 in GF(2^8), field polynomial x^8 + x^4 + x^3 + x^2 + 1. -/
def gfTwo (x : Nat) : Nat := if x < 128 then 2 * x else (2 * x) ^^^ 0x11D

/-- Multiplication in GF(2^8), with fuel for the bits of the second factor. -/
def gfMulGo : Nat → Nat → Nat → Nat
  | 0, _, _ => 0
  | n + 1, a, b => (if b % 2 = 1 then a else 0) ^^^ gfMulGo n (gfTwo a) (b / 2)

/-- Multiplication in GF(2^8). -/
def gfMul (a b : Nat) : Nat := gfMulGo 8 a b

/-- α^n. -/
def gfPow : Nat → Nat
  | 0 => 1
  | n + 1 => gfTwo (gfPow n)

/-- Value at α^j of a word of 36 symbols, highest coefficient first. -/
def syndrome (w : List Byte) (j : Nat) : Nat := w.foldl (fun a b => gfMul a (gfPow j) ^^^ b.toNat) 0

/-- Remainder of d(x) × x^4 by the generator: the four check bytes of 32 data bytes. -/
def rsCheck (d : List Byte) : List Byte :=
  let g := [(1 : Nat), 2, 4, 8].foldl (fun p r => ((p ++ [0]).zip (0 :: p.map (fun c => gfMul c r))).map (fun (q : Nat × Nat) => q.1 ^^^ q.2)) [1]
  let step (r : List Nat) (b : Byte) : List Nat :=
    let f := b.toNat ^^^ r.headD 0
    ((r.drop 1 ++ [0]).zip ((g.drop 1).map (gfMul f))).map (fun (q : Nat × Nat) => q.1 ^^^ q.2)
  (d.foldl step [0, 0, 0, 0]).map (BitVec.ofNat 8)

/-- What the decoder makes of a codeword (Table 10-2). -/
inductive Decoded where
  | good
  | corrected (at_ value : Nat)
  | detected
  deriving DecidableEq, Repr

/-- Decode a received word of 36 symbols; the code is linear, so its error vector alone decides. -/
def rsDecode (w : List Byte) : Decoded :=
  let s (j : Nat) := syndrome w j
  if s 0 = 0 ∧ s 1 = 0 ∧ s 2 = 0 ∧ s 3 = 0 then .good
  else
    match (List.range 36).find? (fun p =>
        let x := gfPow p
        decide (s 0 ≠ 0) && decide (gfMul (s 0) x = s 1) && decide (gfMul (s 1) x = s 2) && decide (gfMul (s 2) x = s 3)) with
    | some p => .corrected (35 - p) (s 0)
    | none => .detected

/-- The error that remains in what the decoder delivers. -/
def rsResidue (w : List Byte) : List Byte :=
  match rsDecode w with
  | .corrected i v => w.set i (w.getD i 0 ^^^ BitVec.ofNat 8 v)
  | _ => w

/-- The four error vectors of a line, each of 36 symbols. -/
def lineErrors (errors : List (List Byte)) : List (List Byte) := (List.range 4).map (fun k => bytesAt (errors.getD k []) 0 36)

/-- Is some codeword uncorrectable? -/
def lineBad (errors : List (List Byte)) : Bool := (lineErrors errors).any (fun w => decide (rsDecode w = .detected))

/-- Corrected codewords. -/
def lineFixed (errors : List (List Byte)) : Nat :=
  ((lineErrors errors).filter (fun w => match rsDecode w with | .corrected _ _ => true | _ => false)).length

/-- The 16-byte cipher blocks of a line that an undetected error garbles (R228: the code covers ciphertext). -/
def garbled (errors : List (List Byte)) : List Nat :=
  (List.range 8).filter (fun b => ((rsResidue ((lineErrors errors).getD (b / 2) [])).drop (16 * (b % 2))).take 16 |>.any (fun x => decide (x ≠ 0)))

/-! ## Fences -/

/-- Source byte of an event of a controller (Table 15-9): base die 5, capacity controller 6. -/
def ctrlSource (c : Nat) : Nat := if c < 12 then 5 + 8 * c else 6 + 8 * (c - 12)

/-- Fence a channel (R232). -/
def State.fenceChannel (s : State) (c ch : Nat) : State :=
  if (s.ctrl c).chanFenced.getLsbD ch then s
  else (s.modCtrl c (fun m => { m with chanFenced := m.chanFenced ||| BitVec.ofNat 32 (2 ^ ch) })).event 0x2002 (ctrlSource c) (leBytes 1 ch)

/-- A second in nanoseconds. -/
def secondNs : Nat := 1000000000

/-- Spare rows of a bank (Table 10-4, R234). -/
def spareRows (c : Nat) : Nat := if c < 12 then 2 else 1

/-- Index of a bank. -/
def bankIndex (r : RowAddr) : Nat := (r.ch * 2 + r.pc) * 16 + r.bank

/-- Arguments of event 0x2003; outcome 0 repaired, 1 no spare left (DESIGN CHOICE); the bank byte is 16 × pc + bank. -/
def repairArgs (outcome : Nat) (r : RowAddr) : List Byte :=
  leBytes 1 outcome ++ leBytes 1 r.ch ++ leBytes 1 (16 * r.pc + r.bank) ++ leBytes 4 r.row

/-- Start a soft repair of a row (R235, R237): false when its bank has no spare left. A row that a spare already serves takes a further one. -/
def State.softRepair (s : State) (c : Nat) (r : RowAddr) : Bool × State :=
  let m := s.ctrl c
  if m.repairing.contains r then (true, s)
  else if spareRows c ≤ Map.get 0 m.spareUsed (bankIndex r) then (false, s.event 0x2003 (ctrlSource c) (repairArgs 1 r))
  else (true, s.modCtrl c (fun m => { m with
    repairing := m.repairing ++ [r], spareUsed := Map.modify 0 m.spareUsed (bankIndex r) (· + 1) }))

/-- Automatic repair of a row, while it is enabled (R237). -/
def State.autoRepairRow (s : State) (c : Nat) (r : RowAddr) : State :=
  if (s.ctrl c).autoRepair then (s.softRepair c r).2 else s

/-- Note that a line was found uncorrectable: 16 distinct lines of a channel within 1 s fence it (R232). A line that is found again counts from its
latest time. -/
def State.noteBad (s : State) (c line : Nat) : State :=
  let ch := (s.lineRow c line).ch
  let times := (s.ctrl c).badTimes.filter (fun e => decide (s.timeNs < e.2.2 + secondNs) && decide (e.2.1 ≠ line)) ++ [(ch, line, s.timeNs)]
  let s := s.modCtrl c (fun m => { m with badTimes := times })
  if 16 ≤ (times.filter (fun e => decide (e.1 = ch))).length then s.fenceChannel c ch else s

/-- Fence a line (R229, R237); no side buffer keeps it (R220). source: 0 demand read, 1 rake, 2 row repair. -/
def State.fenceLine (s : State) (c line source : Nat) : State :=
  let m := s.ctrl c
  let row := s.lineRow c line
  let s := if c < 12 then s.dropSide (c / 3) line else s
  let s := match (List.range 256).find? (fun i => !(Map.get {} m.fence i).valid) with
    | none => s.fenceChannel c row.ch
    | some i =>
      (s.modCtrl c (fun m => { m with fence := Map.put {} m.fence i ⟨true, line, source, row.ch⟩ })).event 0x2001 (ctrlSource c)
        (leBytes 8 (128 * line) ++ leBytes 1 source)
  s.autoRepairRow c row

/-- Count an uncorrectable line. -/
def State.countBad (s : State) (c : Nat) : State :=
  s.modCtrl c (fun m => { m with uncorrectable := satAdd 32 m.uncorrectable 1 })

/-- Count corrected codewords of a read, and repair the row at its third corrected read within 24 h (R237). -/
def State.countFixed (s : State) (c line n : Nat) : State :=
  if n = 0 then s
  else
    let row := s.lineRow c line
    let m := s.ctrl c
    let recent := m.corrTimes.filter (fun e => decide (s.timeNs < e.2 + dayNs)) ++ [(row, s.timeNs)]
    let s := s.modCtrl c (fun m => { m with corrected := satAdd 32 m.corrected n, corrTimes := recent })
    if 3 ≤ (recent.filter (fun e => decide (e.1 = row))).length then s.autoRepairRow c row else s

/-- The line a good read delivers: a cipher block with an undetected error decrypts to bits that the received word alone fixes (Table 10-2), which
the model does not compute (Config.garbled). -/
def State.delivered (s : State) (line : Nat) (errors : List (List Byte)) (blocks : List Nat) : List Byte :=
  let tag := Map.get {} s.pool.tags line
  let plain := s.rawLine tag.key line
  blocks.foldl (fun l b =>
    let e := leNat (((rsResidue ((lineErrors errors).getD (b / 2) [])).drop (16 * (b % 2))).take 16)
    patch l (16 * b) (leBytes 16 (Config.garbled (8 * line + b) (tag.key + 64 * tag.gen) (fieldAt plain (16 * b) 16) e).toNat)) plain

/-- Contents of a line replaced without a write by any agent (a write-back of the controller). -/
def State.rewrite (s : State) (line : Nat) (l : List Byte) : State :=
  { s with pool := { s.pool with cells := putCells s.pool.cells (line * 128) (bytesAt l 0 128) } }

/-- A read of a line at its controller (R228, R229): source 0 demand, 1 rake, 2 row repair. A rake read of a line that the die cache holds takes the
copy instead of a fence. -/
def State.controllerRead (s : State) (c line source : Nat) (errors : List (List Byte)) : Option (List Byte) × State :=
  if lineBad errors then
    let s := (s.countBad c).noteBad c line
    let copy := if source = 1 ∧ c < 12 then
        ((s.die (c / 3)).dc.find line).map (fun w => Map.get {} (s.die (c / 3)).dc.lines (dcSet line + w)) else none
    match copy with
    | some l => (none, ((s.rawWrite c l.key line l.data).logNote 2 (leBytes 8 (128 * line))).autoRepairRow c (s.lineRow c line))
    | none => (none, s.fenceLine c line source)
  else
    let n := lineFixed errors
    let blocks := garbled errors
    let l := s.delivered line errors blocks
    let s := s.countFixed c line n
    (some l, if n = 0 ∨ blocks = [] then s else s.rewrite line l)

/-- A fenced line's read is logged with its address and agent, which takes its response (R230). -/
def State.fencedRead (s : State) (line agent : Nat) : State :=
  (s.logAccess 1 (128 * line) agent).answerErr agent (128 * line) .read .fenced

/-- LINE_READ_RETURN (R228, R229): the demand read of an agent. -/
def execLineReadReturn (c : CtrlId) (line : LineAddr) (r : LineReturn) (s : State) : Out :=
  let n := line.toNat
  if s.place (n * 128) ≠ .mem c then .next s
  else if s.isFenced c n then .next (s.fencedRead n r.agent.toNat)
  else
    match s.controllerRead c n 0 r.errors with
    | (some l, s) => .next (s.reply (.bytes l))
    | (none, s) => .next (s.fencedRead n r.agent.toNat)

/-- CHANNEL_PARITY_FAILURE (R232): fenced when 3 retrainings do not help. -/
def execChannelParityFailure (c : CtrlId) (ch : Fin 32) (retrainings : Nat) (recovered : Bool) (s : State) : Out :=
  if recovered || decide (retrainings < 3) || decide (ctrlChans c ≤ ch.val) then .next s else .next (s.fenceChannel c ch)

/-! ## The rake (R233) -/

/-- Lines that a controller serves. -/
def State.ctrlLines (s : State) (c : Nat) : Nat := s.served c / 128

/-- Is the rake paused: disabled, in self-refresh, or with the module in M-IDLE or M-PILOT? -/
def State.rakePaused (s : State) (c : Nat) : Bool :=
  !(s.ctrl c).rakeEnable || (s.ctrl c).selfRefresh || decide (s.power.state ≠ .active)

/-- The next line from a position on that is not fenced, with fuel. -/
def State.rakeLine (s : State) (c : Nat) : Nat → Nat → Option Nat
  | 0, _ => none
  | n + 1, p =>
    if s.ctrlLines c ≤ p then none
    else if s.isFenced c (ctrlBase c / 128 + p) then State.rakeLine s c n (p + 1)
    else some p

/-- Position after a line: past the last one a new pass begins, under the period set for it. -/
def State.rakeStep (s : State) (c p : Nat) : State :=
  s.modCtrl c (fun m =>
    if s.ctrlLines c ≤ p then { m with rakePos := 0, rakePasses := m.rakePasses + 1, rakePeriod := m.rakeNext } else { m with rakePos := p })

/-- One rake read of the next line, fenced ones skipped. -/
def State.rake (s : State) (c : Nat) (errors : List (List Byte)) : State :=
  if s.rakePaused c ∨ s.ctrlLines c = 0 then s
  else
    match s.rakeLine c 4096 (s.ctrl c).rakePos with
    | none => s.rakeStep c (s.ctrlLines c)
    | some p => ((s.controllerRead c (ctrlBase c / 128 + p) 1 errors).2).rakeStep c (p + 1)

/-- RAKE_READ. -/
def execRakeRead (c : CtrlId) (errors : List (List Byte)) (s : State) : Out := .next (s.rake c errors)

/-- RAKE_WAIT_EXPIRY: the rake read that has waited 1 ms takes the next free cycle of its bank. -/
def execRakeWaitExpiry (c : CtrlId) (errors : List (List Byte)) (s : State) : Out := .next (s.rake c errors)

/-! ## Repair and saturation -/

/-- The reads of a row's two granules that a soft repair makes, with the errors each line shows: corrections count, an uncorrectable line is fenced,
fenced ones stay so (R235). -/
def State.repairReads (s : State) (c : Nat) (lines : List Nat) (errors : List (List (List Byte))) : State :=
  (lines.zip errors).foldl (fun s e => if s.isFenced c e.1 then s else (s.controllerRead c e.1 2 e.2).2) s

/-- ROW_SOFT_REPAIR_COMPLETE (R235): the oldest soft repair under way has read its row, is done and recorded. -/
def execRowSoftRepairComplete (r : RepairReturn) (s : State) : Out :=
  let c : Nat := r.ctrl
  match (s.ctrl c).repairing with
  | [] => .next s
  | row :: _ =>
    let s := s.repairReads c (s.rowLines c row) r.errors
    let s := s.modCtrl c (fun m => { m with repairing := m.repairing.drop 1, softRepairs := m.softRepairs ++ [row] })
    .next (s.event 0x2003 (ctrlSource c) (repairArgs 0 row))

/-- Controller clock cycles in 100 µs: CK_HBM or CK_LP. -/
def ctrlPersist (c : Nat) : Nat := if c < 12 then 125000 else 133300

/-- CHANNEL_SATURATION_PERSIST (R238). -/
def execChannelSaturationPersist (c : CtrlId) (ch : Fin 32) (s : State) : Out :=
  if ctrlChans c ≤ ch.val then .next s
  else
    .next ((s.modCtrl c (fun m => { m with
      satMask := m.satMask ||| BitVec.ofNat 32 (2 ^ ch.val), satEvent := true, satChannel := BitVec.ofNat 5 ch,
      satCycles := Map.modify 0 m.satCycles ch (· + ctrlPersist c) })).event 0x1002 (ctrlSource c) (leBytes 1 1 ++ leBytes 2 ch))

end Sys2Proof.Machine
end

