-- ==== Sys2Proof/Machine/Links.lean ====
section
/-! DEFINITION. Die-to-die bundles (11_die_links): lane maps, lane checks and module states (R249, R257, R258), handover (R259), physical sites
(R12, R13). -/
namespace Sys2Proof.Machine

/-! ## Bundles -/

/-- Good lanes of a half. -/
def goodLanes (bad : BitVec 68) : Nat := 68 - popcount 68 bad.toNat

/-- Physical lane of logical lane i of a half (R249). -/
def physLane (bad : BitVec 68) (i : Nat) : Option Nat := ((List.range 68).filter (fun j => !bad.getLsbD j))[i]?

/-- Module state after a sweep or a lane check (Table 11-2). -/
def laneState (badTx badRx : BitVec 68) (clockOk : Bool) : ModState :=
  let g := min (goodLanes badTx) (goodLanes badRx)
  if !clockOk || decide (g < 32) then .retired else if g < 64 then .half else .full

/-- Code of D2D_MSTAT_m.width. -/
def ModState.code (m : ModState) : Nat := match m with | .retired => 0 | .half => 1 | .full => 2

/-- Source byte of an event of a bundle end: its die, its bundle as the unit. -/
def endSource (e : Nat) : Nat := if e < 12 then e / 3 + 8 * (e % 3) else 4 + 8 * (e - 12)

/-- Bundle number of an end. -/
def endBundle (e : Nat) : Nat := if e < 12 then e % 3 else e - 12

/-- Event 0x4001 of a module (R258). -/
def State.bundleEvent (s : State) (e m : Nat) : State :=
  let x := (s.link e).module m
  let args := leBytes 1 (endBundle e) ++ leBytes 1 m ++ leBytes 1 x.st.code ++ leBytes 1 (min (goodLanes x.badTx) (goodLanes x.badRx))
  if e < 12 then (s.event 0x4001 (endSource e) args).raiseWired (9 + e / 3) else s.event 0x4001 (endSource e) args

/-- A bundle that has just gone down waits for its handover (R259). -/
def State.handoverIfDown (s : State) (e : Nat) : State :=
  if (s.link e).down e then s.modLink e (fun l => { l with handover := true }) else s

/-! ## Physical sites (R12, R13) -/

/-- The physical port sites of a tile die (Table 01-2), and the host ports of the HD. -/
inductive Site where
  | xe | xs | xh
  | ha (i : Nat)
  | n (i : Nat)
  | w (i : Nat)
  | hp (i : Nat)
  deriving DecidableEq, Repr

/-- Site of bundle b (0 HB, 1 NB0, 2 NB1) on a die at a position (Table 01-4). -/
def bundleSite (pos b : Nat) : Site :=
  match b with
  | 0 => .xh
  | 1 => if pos % 2 = 0 then .xe else .xs
  | _ => if pos % 2 = 0 then .xs else .xe

/-- Site of stack S(3d + i) on a die at a position. -/
def stackSite (pos i : Nat) : Site := .ha (if pos % 2 = 0 then i else [1, 0, 2].getD i i)

/-- Site of local fabric port Fk on a die at a position. -/
def portSite (pos k : Nat) : Site :=
  if k < 3 then .n (if pos % 2 = 0 then k else 2 - k) else .w (if pos % 2 = 0 then 5 - k else k - 3)

/-- The number that stands for a site in a lane-repair log entry (DESIGN CHOICE, notes/assumptions/90). -/
def Site.code (x : Site) : Nat :=
  match x with
  | .xe => 0
  | .xs => 1
  | .xh => 2
  | .ha i => 3 + i
  | .n i => 6 + i
  | .w i => 9 + i
  | .hp i => 12 + i

/-- Site of a bundle end, by the position its die has resolved. -/
def State.endSite (s : State) (e : Nat) : Site := if e < 12 then bundleSite (s.die (e / 3)).pos.toNat (e % 3) else .hp (e - 12)

/-- The lane-repair log entries of a module's half (R13, R250, R258): die (4: the HD), physical site, module, half (0 transmit) and lane, one entry
for each lane that is bad now and was not before. -/
def State.logLanes (s : State) (e m half : Nat) (now old : BitVec 68) : State :=
  ((List.range 68).filter (fun i => now.getLsbD i && !old.getLsbD i)).foldl (fun s i => s.logNote 0
    (leBytes 1 (if e < 12 then e / 3 else 4) ++ leBytes 1 (s.endSite e).code ++ leBytes 1 m ++ leBytes 1 half ++ leBytes 1 i)) s

/-- Start a lane check of a module at both ends (R257): its unacknowledged flits are replayed on the others, or on itself when it returns as the last
one. It is left due while it would leave the bundle without a module in service and another one will return. -/
def State.startCheck (s : State) (e m : Nat) : State :=
  let l := s.link e
  let x := l.module m
  let others := ((List.range (endModules e)).filter (fun k => decide (k ≠ m))).map l.module
  if x.st = .retired ∨ x.checking ∨ x.retraining then s
  else if !others.any LinkModule.serves && others.any (fun o => decide (o.st ≠ .retired)) then
    s.modLink e (fun l => l.modModule m (fun x => { x with checkDue := true }))
  else
    [e, partnerEnd e].foldl (fun s k => (s.modLink k (fun l => { (l.modModule m (fun x => { x with
        checking := true, checkDue := false, checks := BitVec.ofNat 8 (satAdd 8 x.checks.toNat 1),
        checkTimes := x.checkTimes.filter (fun t => decide (s.timeNs < t + secondNs)) ++ [s.timeNs] })) with
      resend := l.resend ++ (l.replay.filter (fun f => decide (f.module = m))).map (·.flit),
      cntChecks := BitVec.ofNat 16 (satAdd 16 l.cntChecks.toNat 1) })).linkPump k) s

/-- Checks that waited for a module to return. -/
def State.startDue (s : State) (e : Nat) : State :=
  match (List.range (endModules e)).find? (fun m => ((s.link e).module m).checkDue) with
  | some m => s.startCheck e m
  | none => s

/-- A replay on a module is counted; the 17th within 1 ms starts a lane check (R257). -/
def State.countReplay (s : State) (e m : Nat) : State :=
  let s := s.modLink e (fun l => l.modModule m (fun x => { x with
    replays := BitVec.ofNat 32 (satAdd 32 x.replays.toNat 1),
    replayTimes := x.replayTimes.filter (fun t => decide (s.timeNs < t + 1000000)) ++ [s.timeNs] }))
  if 16 < ((s.link e).module m).replayTimes.length then s.startCheck e m else s

/-! ## Degradation (R257 to R259) -/

/-- SPARE_MONITOR_ERROR. -/
def execSpareMonitorError (e : LinkEnd) (m : Fin 12) (s : State) : Out :=
  if m.val < endModules e then .next (s.startCheck e m) else .next s

/-- The state of a module under the common features (R263): without half-width operation (bit 1) a module below full width is retired. -/
def State.laneStateNow (s : State) (tx rx : BitVec 68) (clockOk : Bool) : ModState :=
  let st := laneState tx rx clockOk
  if st = .half ∧ s.fabric.commonFeatures.getLsbD 1 = false then .retired else st

/-- A module of both ends takes what a check or a failure gives it: this end's transmit half is the other's receive half. -/
def State.bothEnds (s : State) (e m : Nat) (f : Bool → LinkModule → LinkModule) : State :=
  (s.modLink e (fun l => l.modModule m (f false))).modLink (partnerEnd e) (fun l => l.modModule m (f true))

/-- After a module's change both ends look whether the bundle is down, start a check that was due, and send what they can. -/
def State.moduleDone (s : State) (e : Nat) : State :=
  let s := (s.handoverIfDown e).handoverIfDown (partnerEnd e)
  let s := (s.startDue e).startDue (partnerEnd e)
  (s.linkPump e).linkPump (partnerEnd e)

/-- A lane check ends: lanes with an error are bad until the next start (R258); the module takes the state of Table 11-2, retired at its
third check within 1 s, or with a new bad lane where lane repair in operation is no common feature (R263, DEDUCED), and retrains unless retired; a
change raises its event. -/
def State.checkEnd (s : State) (e m : Nat) (r : LaneResult) : State :=
  let x := (s.link e).module m
  let tx := x.badTx ||| r.badTx
  let rx := x.badRx ||| r.badRx
  let third := decide (3 ≤ (x.checkTimes.filter (fun t => decide (s.timeNs < t + secondNs))).length)
  let worn := !s.fabric.commonFeatures.getLsbD 0 && (decide (tx ≠ x.badTx) || decide (rx ≠ x.badRx))
  let st := if third || worn then .retired else s.laneStateNow tx rx (r.clockOk && !x.clockFail)
  let changed := decide (st ≠ x.st) || decide (tx ≠ x.badTx) || decide (rx ≠ x.badRx)
  let s := s.bothEnds e m (fun other y => { y with
    st := st, checking := false, retraining := decide (st ≠ .retired), badTx := if other then rx else tx, badRx := if other then tx else rx,
    clockFail := y.clockFail || !r.clockOk, replayTimes := [] })
  let s := (s.logLanes e m 0 tx x.badTx).logLanes e m 1 rx x.badRx
  (if changed then s.bundleEvent e m else s).moduleDone e

/-- LANE_CHECK_END. -/
def execLaneCheckEnd (e : LinkEnd) (m : Fin 12) (r : LaneResult) (s : State) : Out :=
  if ((s.link e).module m).checking then .next (s.checkEnd e m r) else .next s

/-- MODULE_RETRAIN_COMPLETE: at both ends. -/
def execModuleRetrainComplete (e : LinkEnd) (m : Fin 12) (s : State) : Out :=
  if !((s.link e).module m).retraining then .next s
  else .next ((s.bothEnds e m (fun _ x => { x with retraining := false })).moduleDone e)

/-- FORWARDED_CLOCK_FAILURE: retired at once, at both ends; its unacknowledged flits are replayed on the others. -/
def execForwardedClockFailure (e : LinkEnd) (m : Fin 12) (s : State) : Out :=
  if endModules e ≤ m.val ∨ ((s.link e).module m).st = .retired then .next s
  else
    let s := s.bothEnds e m (fun _ x => { x with
      st := .retired, clockFail := true, checking := false, checkDue := false, retraining := false })
    let s := [e.val, partnerEnd e].foldl (fun s k => s.modLink k (fun l => { l with
      resend := l.resend ++ (l.replay.filter (fun f => decide (f.module = m.val))).map (·.flit) })) s
    .next ((s.bundleEvent e m).moduleDone e)

/-- HANDOVER_COMPLETE (R259): on the new path the ends have told each other the last seq they delivered. Every message whose flits lie after it, and
every one that still waited, is sent again on the new path; the parts of it that had arrived are dropped. -/
def execHandoverComplete (e : LinkEnd) (delivered : BitVec 12) (s : State) : Out :=
  if !(s.link e).handover then .next s
  else
    let l := s.link e
    let late (q : Nat) : Bool := decide ((q + 4096 - delivered.toNat) % 4096 < 2048) && decide (q ≠ delivered.toNat)
    let again := (l.unacked.filter (fun x => late x.1)).map (·.2) ++ (l.outq.map (fun q => q.2.filterMap (·.last))).flatten
    let s := s.modLink e (fun l => { l with
      handover := false, replay := [], resend := [], unacked := [], outq := [], held := [], rxPart := [],
      cntReroutes := BitVec.ofNat 16 (satAdd 16 l.cntReroutes.toNat 1) })
    .next (again.foldl (fun s m => s.linkSend (endNode e) (decide (m.chan ≤ 1) && decide (m.tag % 2 = 1)) m) s)

end Sys2Proof.Machine
end

