-- ==== Sys2Proof/Machine/Keys.lean ====
section
/-! DEFINITION. Sealing and the preservation record (R244 to R247, R388, R389), debug sessions' end (R391), measurements (R379). -/
namespace Sys2Proof.Machine

/-! ## Measurements -/

/-- Firmware digest: SHA-384 of image bytes 0x000 to 0x0FF (R400). -/
def fwDigest (image : List Byte) : List Byte := sha384 (bytesAt image 0 256)

/-- Firmware svn. -/
def fwSvn (image : List Byte) : Nat := fieldAt image 0x0C 4

/-- Firmware version. -/
def fwVersion (image : List Byte) : Nat := fieldAt image 8 4

/-! ## Identity (R378, Table 17-1) -/

/-- HMAC-SHA-384 for keys of at most one block of 128 bytes. -/
def hmac384 (key msg : List Byte) : List Byte :=
  let pad (x : Byte) : List Byte := (bytesAt key 0 128).map (fun b => b ^^^ x)
  sha384 (pad 0x5C ++ sha384 (pad 0x36 ++ msg))

/-- CDI_D: HMAC of "JN8 DEVICEID" under the device secret. The UDS stands most significant byte first (DESIGN CHOICE). -/
def cdiDevice : List Byte := hmac384 (beBytes 48 Config.uds.toNat) [0x4A, 0x4E, 0x38, 0x20, 0x44, 0x45, 0x56, 0x49, 0x43, 0x45, 0x49, 0x44]

/-- What an alias key belongs to: firmware digest, svn in 4 bytes, lifecycle in 1 (the widths are a DESIGN CHOICE). -/
def aliasIdentityOf (image : List Byte) (lifecycle : Nat) : List Byte := fwDigest image ++ leBytes 4 (fwSvn image) ++ leBytes 1 lifecycle

/-- CDI_A of an alias identity. -/
def cdiAlias (identity : List Byte) : List Byte := hmac384 (beBytes 48 Config.uds.toNat) (sha384 identity)

/-- The DeviceID public key, 96 bytes (R390). -/
def deviceIdKey : List Byte := bytesAt (Config.keyPublic cdiDevice) 0 96

/-- A pass through the ROM derives the alias key of the image that runs next. -/
def State.romPass (s : State) (image : List Byte) : State :=
  { s with sec := { s.sec with aliasOf := aliasIdentityOf image s.sec.lifecycle.toNat } }

/-! ## Sealing -/

/-- Fenced lines inside a region. -/
def State.fencedIn (s : State) (r : Region) : Nat :=
  s.pool.ctrls.foldl (fun n c => n + (c.2.fence.filter (fun e => e.2.valid && decide (r.base ≤ 128 * e.2.line) &&
    decide (128 * e.2.line < r.base + r.size))).length) 0

/-- The key steps of a host restart or an M-PILOT entry (Table 10-7, R377): key IDs that no kept region names are destroyed and key ID 0
is replaced; kept keys are sealed; the preservation record is written. keep false keeps no region (R392). Regions sealed earlier
and not released stay in the record. Key ID 0 counts among the destroyed (DEDUCED from R386: the replacement is a destruction). -/
def State.sealStep (s : State) (keep : Bool) : State :=
  let named := s.sec.regions.map (·.key)
  let kept (k : Nat) (x : KeySlot) : Bool := keep && (decide (x.state = 4) || (decide (x.state = 3) && named.contains k))
  let toSeal := s.keysWhere (fun k x => kept k x && decide (x.state = 3))
  let gone := s.keysWhere (fun k x => decide (x.state ≠ 0) && !kept k x)
  let entry (k : Nat) : Sealed :=
    ⟨k, s.sec.osDigest, s.sec.osSigner, fwSvn s.svc.running, s.sec.ownerRoot⟩
  let new := s.sec.regions.filter (fun r => toSeal.contains r.key)
  let old := s.sec.record.filter (fun r => (s.sec.sealedKeys.map (·.key)).contains r.key)
  let s := { s with sec := { s.sec with
    sealedKeys := s.sec.sealedKeys ++ toSeal.map entry, record := if keep then old ++ new else s.sec.record, regions := [] } }
  let s := toSeal.foldl (fun s k => s.modKey k (fun x => { x with state := 4, bar2 := false, pe1 := false })) s
  let s := s.destroyKeys gone 2
  { s with sec := { s.sec with releasedBoot := false, releasedCount := 0 } }.freshKey 0 1 0

/-! ## Debug sessions (R391) -/

/-- A debug session ends: event 0x7001 with level LOCKED. -/
def State.debugEnd (s : State) : State :=
  if s.sec.session then
    { s with sec := { s.sec with session := false, level := 0 } }.hdEvent 0x7001 [0]
  else { s with sec := { s.sec with level := 0 } }

end Sys2Proof.Machine
end

