-- ==== Sys2Proof/Machine/Sparing.lean ====
section
/-! DEFINITION. Unit maps, sparing and the remap of fenced tiles (R105, R106, R108, R166, R409). -/
namespace Sys2Proof

/-- Does a physical tile pass its test in full? -/
def TileTest.passes (x : TileTest) : Bool :=
  x.memOk && decide (x.quads = 0xF) && decide (x.vxe = 3) && x.lanes32 && x.generatorOk

/-- Does it qualify as degraded (R106)? -/
def TileTest.qualifies (x : TileTest) : Bool :=
  x.memOk && decide (2 ≤ popcount 4 x.quads.toNat) && decide (x.vxe ≠ 0) && x.lanes16 && x.generatorOk

end Sys2Proof

namespace Sys2Proof.Machine

/-- Unit-map entry of a logical tile on a physical one: of three working quadrants two are used (the lowest two, DESIGN CHOICE), of two VXE halves
both. -/
def unitEntry (phys : Nat) (x : TileTest) : UnitEntry :=
  let q := if x.quads = 0xF then 0xF else ((maskBits 4 x.quads.toNat).take 2).foldl (fun a i => a + 2 ^ i) 0
  { phys := BitVec.ofNat 8 phys, present := true, mxeQ := BitVec.ofNat 4 q, vxeH := x.vxe, gxeHalf := !x.lanes32 }

/-- Tests of a die with the tiles that are marked for remap taken as not passing (R103): they still qualify. -/
def passing (tests : Map TileTest) (marked : List Nat) (p : Nat) : Bool := (Map.get {} tests p).passes && !marked.contains p

/-- Steps 1 to 3 of R105 for the logical tiles in ascending order: entry, or none for a tile that does not qualify; spares as they
are taken. -/
def mapTiles (tests : Map TileTest) (marked : List Nat) (held : Nat → Nat) : List Nat → List Nat → List (Option UnitEntry)
  | [], _ => []
  | t :: r, spares =>
    let p := held t
    if p < 136 ∧ passing tests marked p then some (unitEntry p (Map.get {} tests p)) :: mapTiles tests marked held r spares
    else
      match spares with
      | x :: xs => some (unitEntry x (Map.get {} tests x)) :: mapTiles tests marked held r xs
      | [] =>
        (if p < 136 ∧ (Map.get {} tests p).qualifies then some (unitEntry p (Map.get {} tests p)) else none) ::
          mapTiles tests marked held r []

/-- Step 4 of R105: a lost logical number takes the physical tile of the highest one. With fuel. -/
def closeGaps : Nat → List (Option UnitEntry) → List (Option UnitEntry)
  | 0, l => l
  | n + 1, l =>
    match l.getLast? with
    | none => l
    | some none => closeGaps n l.dropLast
    | some (some e) =>
      match (List.range l.length).find? (fun i => decide (l[i]? = some none)) with
      | none => l
      | some i => closeGaps n ((l.set i (some e)).dropLast)

/-- Physical tile of a logical one at the last start; its own number before any start (DESIGN CHOICE). -/
def heldPhys (units : Map UnitEntry) (t : Nat) : Nat := if units.isEmpty then t else (Map.get {} units t).phys.toNat

/-- The unit map of R105. -/
def buildMap (tests : Map TileTest) (marked : List Nat) (units : Map UnitEntry) : Map UnitEntry :=
  let kept := ((List.range 128).map (heldPhys units)).filter (fun p => decide (p < 136) && passing tests marked p)
  let spares := (List.range 136).filter (fun p => passing tests marked p && !kept.contains p)
  let l := closeGaps 256 (mapTiles tests marked (heldPhys units) (List.range 128) spares)
  ((List.range l.length).zip l).filterMap (fun e => e.2.map (fun u => (e.1, u)))

/-- A die takes a unit map: TD_TILE_COUNT and TD_UNIT_MAP_t. -/
def Die.takeMap (x : Die) (tests : Map TileTest) (m : Map UnitEntry) : Die :=
  let used := m.map (fun e => e.2.phys.toNat)
  { x with
    tests := tests, units := m, count := BitVec.ofNat 8 m.length,
    sparesFree := BitVec.ofNat 4 ((List.range 136).filter (fun p => (Map.get {} tests p).passes && !used.contains p)).length,
    degraded := BitVec.ofNat 8 (m.filter (fun e => !(Map.get {} tests e.2.phys.toNat).passes)).length,
    mapGen := if m = x.units then x.mapGen else x.mapGen + 1 }

/-- Fenced logical tiles of a die. -/
def Die.fencedTiles (x : Die) : List Nat := (x.units.filter (fun e => e.2.fenced)).map (·.1)

/-- Can the context of slot n be read (R130)? -/
def Tile.ctxReads (k : Tile) (n : Nat) : Bool := k.regBad.all (fun w => decide (w / 2048 ≠ n))

/-- A tile on its new physical tile (R108, R130): the TS when every line reads, else zeros; the resident groups that park with it resume
from their contexts; those whose context cannot be read are lost and leave their kernel incomplete. -/
def Tile.moved (k : Tile) : Tile :=
  let ok := k.slots.filter (fun g => k.ctxReads g.1)
  let lost := k.slots.length - ok.length
  let kern := if lost = 0 then k.kernel else k.kernel.map (fun o => { o with incomplete := true, gone := o.gone + lost })
  let ended := match kern with | some o => decide (o.groups ≤ o.gone) && ok.isEmpty | none => false
  { power := k.power, ts := if k.tsBad.isEmpty then k.ts else [], launches := k.launches,
    slots := ok.map (fun g => (g.1, if g.2.st = .parked then { g.2 with st := .running, fault := 0, faultAddr := 0 } else g.2)),
    kernel := if ended then none else kern, barErr := if ended then [] else k.barErr }

/-- The groups that a remap loses: a note in the error log with die, tile and group index, the job's kernel incomplete (R130). -/
def State.lostGroups (s : State) (d t : Nat) : State :=
  let k := s.tile d t
  let lost := k.slots.filter (fun g => !k.ctxReads g.1)
  let s := lost.foldl (fun s g => s.logNote 0 (leBytes 1 d ++ leBytes 1 t ++ leBytes 4 g.2.group)) s
  if !lost.isEmpty && (match k.kernel with | some o => o.src.isStream | none => false) then s.modJob (fun j => { j with kernelIncomplete := true })
  else s

/-- Remap of a die's fenced and marked tiles (R108, R409): the replacement holds the old TS when every line reads without an
uncorrectable error, else zeros, and the job status reports the tile as lost; the groups' contexts go on unless they cannot be read
(R130). -/
def State.remapDie (s : State) (d : Nat) : State :=
  let x := s.die d
  let fenced := x.fencedTiles
  let marked := ((List.range 128).filter (fun t => (s.tile d t).remapMark)).map (fun t => (Map.get {} x.units t).phys.toNat)
  if fenced.isEmpty && marked.isEmpty then s
  else
    let tests := fenced.foldl (fun m t => Map.ins m (Map.get {} x.units t).phys.toNat { memOk := false }) x.tests
    let m := buildMap tests marked x.units
    let s := s.modDie d (fun x => x.takeMap tests m)
    let moved := (List.range 128).filter (fun t => decide ((Map.get {} x.units t).phys ≠ (Map.get {} m t).phys))
    moved.foldl (fun s t =>
      let k := s.tile d t
      let present := (Map.get {} m t).present
      let s := s.logNote 2 (leBytes 1 d ++ leBytes 1 t ++ leBytes 1 (Map.get {} m t).phys.toNat)
      let lost := present && !k.tsBad.isEmpty
      let s := if lost || (!present && decide (k.power ≠ .off)) then s.modJob (fun j => { j with tileLost := true }) else s
      (s.lostGroups d t).modTile d t (fun k => if present then k.moved else {})) s

/-- Remap on every die, at a job boundary or a quiesce (R108, R409). -/
def State.remap (s : State) : State := (List.range 4).foldl State.remapDie s

end Sys2Proof.Machine
end

