-- ==== Sys2Proof/Machine/Power.lean ====
section
/-! DEFINITION. Power, clocks and thermal control (16): loss of power, droop, input samples and the cap, the power brake, throttling, tile
power states, frequency switches, M-IDLE; the sideband pins of 19. -/
namespace Sys2Proof.Machine

/-! ## Loss of power (R354, R367, R420) -/

/-- A die as it stands without power: the position fuses and the unit map of the last start, which R105 keeps. -/
def Die.cold (x : Die) : Die := { fuse := x.fuse, fuseWritten := x.fuseWritten, units := x.units, mapGen := x.mapGen }

/-- A controller as it stands without power: the row repair record (Table 18-5). -/
def MemCtrl.cold (m : MemCtrl) : MemCtrl :=
  { pendingRetire := m.pendingRetire, spareUsed := m.spareUsed, softRepairs := m.softRepairs, hardPending := m.hardPending,
    hardRepairs := m.hardRepairs, rowErrors := m.rowErrors }

/-- The module without power (M-OFF): what stands in fuses and flash stays (Table 18-5, R379, R390), the reset-cause latch holds a cause
(R411); everything else, memory contents and keys included, is lost. A flash write under way leaves the slot invalid (R403). -/
def State.powerLoss (s : State) (cause : Nat) : State :=
  { lnVariant := s.lnVariant, freeCount := s.freeCount, pending := s.pending,
    dies := (s.dies.map (fun e => (e.1, e.2.cold))).filter (fun e => decide (e.2 ≠ {})),
    pool := { tested := s.pool.tested, ctrls := (s.pool.ctrls.map (fun e => (e.1, e.2.cold))).filter (fun e => decide (e.2 ≠ {})) },
    host := { pe1RoleNew := s.host.pe1RoleNew },
    sec := {
      lifecycle := s.sec.lifecycle, store := s.sec.store, storeSeq := s.sec.storeSeq, storeOn := s.sec.storeOn,
      ownerRoot := s.sec.ownerRoot, deviceCert := s.sec.deviceCert },
    svc := {
      flash := if s.svc.fwState = 4 then [] else s.svc.flash, minSvn := s.svc.minSvn, logs := s.svc.logsFlash,
      logsFlash := s.svc.logsFlash, boots := s.svc.boots, resetCause := cause, baseline := s.svc.baseline },
    pins := {
      resetN := s.pins.resetN, inputOk := s.pins.inputOk, thermtrip := s.pins.thermtrip, slotId := s.pins.slotId,
      slotIdNew := s.pins.slotIdNew, refclk := s.pins.refclk } }

/-- INPUT_POWER_FAIL (R354): below 42 V for 1 ms (cause 2) or above 62 V (cause 3). -/
def execInputPowerFail (excess : Bool) (s : State) : Out :=
  let s := { s with pins := { s.pins with inputOk := excess, thermtrip := s.pins.thermtrip && excess } }
  if s.power.state = .off then .next s else .next (s.powerLoss (if excess then 3 else 2))

/-- THERMAL_TRIP (R367, R421): THERMTRIP_N latches low, unless RESET_N is asserted. -/
def execThermalTrip (s : State) : Out :=
  if s.power.state = .off ∨ !s.pins.resetN then .next s
  else .next ({ s with pins := { s.pins with thermtrip := true } }.powerLoss 4)

/-- RESET_N_ASSERT (R420, R421): no drain; every key and kept region is lost; THERMTRIP_N clears. -/
def execResetNAssert (s : State) : Out :=
  .next ({ s with pins := { s.pins with resetN := false, thermtrip := false } }.powerLoss 1)

/-- CORE_RAIL_POWER_GOOD (R15): the straps are sampled once while the rail is up. -/
def execCoreRailPowerGood (d : DieId) (pos : BitVec 3) (s : State) : Out :=
  if (s.die d).railUp then .next s else .next (s.modDie d (fun x => { x with railUp := true, strap := pos }))

/-- SLOT_ID_CHANGE (R419): logged; in effect at the next start from M-OFF. -/
def execSlotIdChange (id : BitVec 6) (s : State) : Out :=
  let s := { s with pins := { s.pins with slotIdNew := id } }
  if s.power.state = .off then .next s else .next (s.logNote 0 (leBytes 1 id.toNat))

/-- REFCLK_LOSS (R423): on the tree root, or before joining, the reference PLL holds its frequency. -/
def execRefclkLoss (s : State) : Out :=
  let s := { s with pins := { s.pins with refclk := false } }
  if s.fabric.isRoot || !s.fabric.inTree then
    .next ({ s with fabric := { s.fabric with refHoldover := true, holdSince := some s.timeNs } }.timeEvent)
  else .next s

/-- PE0_LINK_READY (R424). -/
def execPe0LinkReady (s : State) : Out :=
  if s.power.state = .off then .next s else .next { s with host := { s.host with pe0Ready := true, pe0Link := true } }

/-- The tile ratio code applied on a die: the deepest that any active cause requests (R352). During a DEV_HALT quiesce the deep brake row is
relaxed to 1/8 (R362). -/
def State.tileRatio (s : State) (d : Nat) : Nat :=
  let p := s.diePower d
  let w := s.power
  let brake := max w.brakeRatio (if w.underVolt then brakeTile w.brakeSet else 0)
  let brake := if s.lantern.haltBusy then min brake 4 else brake
  max (max brake w.capRatio) (max (if p.droop then 2 else 0) (if p.deep then 5 else p.thermal))

/-- The CPU ratio code applied: brake and thermal throttling only. -/
def State.cpuRatio (s : State) : Nat :=
  max (max s.power.cpuBrake (if s.power.underVolt then brakeCpuCode s.power.brakeSet else 0)) s.power.hdThermal

/-- The brake setting is applied to the dies' clocks. -/
def State.brakeApply (s : State) (held : Nat) : State := (s.brakeOn held).noteClocks

/-- The release begins: one step of Table 16-2 at once (R363). -/
def State.brakeRelease (s : State) : State :=
  let held := s.power.held.toNat
  { s with power := { s.power with
    brake := false, brakeRatio := s.power.brakeRatio - 1, cpuBrake := s.power.cpuBrake - 1, toggle := false, held := 0,
    releasing := decide (1 < s.power.brakeRatio) || decide (1 < s.power.cpuBrake) } }.brakeEvent 0 held

/-- A change of cap or level: the setting changes at once, under a held brake too (DEDUCED from R360). -/
def State.brakeReset (s : State) : State :=
  if s.power.brake then
    { s with power := { s.power with brakeRatio := brakeTile s.power.brakeSet, cpuBrake := brakeCpuCode s.power.brakeSet } }
  else s

/-! ## Input rows -/

/-- INPUT_UNDER_VOLTAGE (R354). -/
def execInputUnderVoltage (s : State) : Out :=
  if s.power.underVolt ∨ s.power.state = .off then .next s
  else .next ({ s with power := { s.power with underVolt := true } }.brakeEvent 1 3).noteClocks

/-- UNDER_VOLTAGE_END (R354): the stretch ends at once (DEDUCED: the steps of R363 are the brake's). -/
def execUnderVoltageEnd (s : State) : Out :=
  if !s.power.underVolt then .next s
  else .next ({ s with power := { s.power with underVolt := false } }.brakeEvent 0 3)

/-- DROOP_DETECT (R356), on a die whose tile rail is up. -/
def execDroopDetect (d : DieId) (s : State) : Out :=
  if !s.domainOn .tile then .next s else .next ((s.modDiePower d (fun p => { p with droop := true })).noteClock d)

/-- DROOP_RECOVERY (R356). -/
def execDroopRecovery (d : DieId) (s : State) : Out := .next (s.modDiePower d (fun p => { p with droop := false }))

/-- Is a rail fitted (Table 16-3)? Those of the LPDDR6 are not on JN8-3K4-LN. -/
def State.railFitted (s : State) (r : Nat) : Bool := !s.lnVariant || decide (r < 19) || decide (21 < r)

/-- PMBUS_POLL (R357): PWR_RAIL_r from the fitted regulators' readings in rail order. -/
def execPmbusPoll (rails : List RailReading) (s : State) : Out :=
  if s.power.state = .off then .next s
  else
  .next { s with power := { s.power with
    rails := (((List.range 23).zip rails).filter (fun e => s.railFitted e.1)).foldl (fun m e => Map.put 0 m e.1 (BitVec.ofNat 64
      (e.2.mv.toNat + 2 ^ 16 * e.2.current.toNat + 2 ^ 32 * e.2.watts.toNat + 2 ^ 48 * e.2.temp.toNat + 2 ^ 56 * e.2.phases.toNat))) s.power.rails } }

/-- INPUT_SAMPLE (R359): PWR_IN; one step deeper while a limit is at risk, one shallower when all are safe. An episode above the cap that begins
less than 40 ms after the last one is at risk. -/
def execInputSample (volts amps watts avg : BitVec 16) (s : State) : Out :=
  let w := s.power
  let cap := w.limit s.timeNs
  let above := decide (cap < watts.toNat)
  let early := above && w.overSince.isNone && (match w.capEnd with | some t => decide (s.timeNs < t + 40000000) | none => false)
  let forced := (w.capForced || early) && above
  let risk := decide (3950 < watts.toNat) || decide (8200 < amps.toNat) || decide (99 * cap ≤ 100 * avg.toNat) || forced
  let ratio := if risk then min 4 (w.capRatio + 1) else w.capRatio - 1
  if w.state = .off then .next s
  else
  .next ({ s with power := { w with
    volts := volts, amps := amps, watts := watts, avg := avg, capRatio := ratio, capForced := forced,
    capShort := decide (w.capRatio = 4) && above,
    overSince := if above then (if w.overSince.isNone then some s.timeNs else w.overSince) else none,
    capEnd := if !above && w.overSince.isSome then some s.timeNs else w.capEnd } } : State).noteClocks

/-- CAP_EXCURSION_LIMIT (R359): the input has been above the cap for 10 ms. -/
def execCapExcursionLimit (s : State) : Out :=
  if s.power.overSince.isSome then .next ({ s with power := { s.power with capForced := true } } : State).noteClocks else .next s

/-! ## The brake input (R361 to R364) -/

/-- PWRBRAKE_ASSERT: applied in M-ACTIVE; recorded in M-IDLE for the next wake, and in M-PILOT. An onset less than 1 ms after the one before
starts a toggle hold. -/
def execPwrbrakeAssert (s : State) : Out :=
  if s.power.brakeIn ∨ s.power.state = .off then .next s
  else
    let toggle := s.power.toggle || (match s.power.onset with | some t => decide (s.timeNs < t + 1000000) | none => false)
    let s := { s with power := { s.power with brakeIn := true, onset := some s.timeNs } }
    if s.power.state = .active then .next ({ s with power := { s.power with toggle := toggle } }.brakeApply (if toggle then 1 else 0))
    else .next { s with power := { s.power with brakeRecorded := true } }

/-- PWRBRAKE_DEASSERT: the release begins 0.7 µs later, unless a toggle hold applies. -/
def execPwrbrakeDeassert (s : State) : Out :=
  if !s.power.brakeIn then .next s
  else
    let s := { s with power := { s.power with brakeIn := false, brakeRecorded := false } }
    if s.power.brake && !s.power.toggle then .next s.brakeRelease else .next s

/-- BRAKE_RELEASE_STEP (R363). -/
def execBrakeReleaseStep (s : State) : Out :=
  if !s.power.releasing then .next s
  else .next { s with power := { s.power with
    brakeRatio := s.power.brakeRatio - 1, cpuBrake := s.power.cpuBrake - 1,
    releasing := decide (1 < s.power.brakeRatio) || decide (1 < s.power.cpuBrake) } }

/-- TOGGLE_HOLD_EXPIRY (R364). -/
def execToggleHoldExpiry (s : State) : Out := if s.power.toggle && !s.power.brakeIn then .next s.brakeRelease else .next s

/-- BRAKE_HELD_TIMEOUT (R363). -/
def execBrakeHeldTimeout (s : State) : Out :=
  if s.power.brakeIn && s.power.brake then
    .next ({ s with power := { s.power with held := 2 } }.hdEvent 0x6001 (leBytes 1 1 ++ leBytes 1 2))
  else .next s

/-! ## Thermal control (R365, R366) -/

/-- Event 0x6002 and wired source 8. -/
def State.thermalEvent (s : State) (u temp : Nat) : State :=
  (if u < 4 then s.event 0x6002 u (leBytes 1 u ++ leBytes 1 temp) else s.hdEvent 0x6002 (leBytes 1 u ++ leBytes 1 temp)).raiseWired 8

/-- A reading in a byte of THERM_STATUS: 0 to 3 TDd, 4 the HD, 5 the hottest stack, 6 that stack's index. -/
def setTempByte (t u temp : Nat) : Nat := t - slice t (8 * u + 7) (8 * u) * 2 ^ (8 * u) + temp * 2 ^ (8 * u)

/-- The hottest readings of a unit and of the stacks in THERM_STATUS. -/
def State.setTemp (s : State) (u temp : Nat) (hot : StackReading) : State :=
  { s with power := { s.power with
    temps := BitVec.ofNat 64 (setTempByte (setTempByte (setTempByte s.power.temps.toNat u temp) 5 hot.temp.toNat) 6 hot.stack.val) } }

/-- Is a unit's chip running: a tile die, or the HD (u = 4), whose core rails are up? -/
def State.unitUp (s : State) (u : Nat) : Bool := s.domainOn (if u < 4 then .tile else .cpu)

/-- THROTTLE_DEEPEN: unit 0 to 3 TDd, 4 the HD. A die below 100 °C that a stack of its own makes throttle leaves the deep ratio (R366). -/
def execThrottleDeepen (u : Fin 5) (r : Heat) (s : State) : Out :=
  if !s.unitUp u then .next s
  else
  let s := s.setTemp u r.temp.toNat r.hot
  if h : u.val < 4 then
    let d : Nat := (⟨u.val, h⟩ : Fin 4)
    let first := !(s.diePower d).throttled
    let s := s.modDiePower d (fun p => { p with thermal := min 4 (p.thermal + 1), deep := p.deep && decide (100 ≤ r.temp.toNat), throttled := true })
    .next ((if first then s.thermalEvent u r.temp.toNat else s).noteClock d)
  else
    let first := !s.power.hdThrottled
    let s := { s with power := { s.power with hdThermal := min 4 (s.power.hdThermal + 1), hdThrottled := true } }
    .next (if first then s.thermalEvent u r.temp.toNat else s)

/-- THROTTLE_RELAX. The deep ratio of R366 ends with it. -/
def execThrottleRelax (u : Fin 5) (r : Heat) (s : State) : Out :=
  if !s.unitUp u then .next s
  else
  let s := s.setTemp u r.temp.toNat r.hot
  if u.val < 4 then
    let p := s.diePower u
    if !p.throttled then .next s
    else
      let s := s.modDiePower u (fun p => { p with thermal := p.thermal - 1, deep := false, throttled := decide (1 < p.thermal) })
      .next (if p.thermal ≤ 1 then s.thermalEvent u r.temp.toNat else s)
  else if !s.power.hdThrottled then .next s
  else
    let last := decide (s.power.hdThermal ≤ 1)
    let s := { s with power := { s.power with hdThermal := s.power.hdThermal - 1, hdThrottled := !last } }
    .next (if last then s.thermalEvent u r.temp.toNat else s)

/-- THERMAL_DEEP_RATIO (R366). -/
def execThermalDeepRatio (d : DieId) (s : State) : Out :=
  if (s.diePower d).thermal = 4 then .next ((s.modDiePower d (fun p => { p with deep := true })).noteClock d) else .next s

/-- PWR_CPU.step as it reads back. -/
def cpuStepOf (v : Nat) : BitVec 4 := BitVec.ofNat 4 (min (v % 16) 13)

/-- PWR_CPU (R358). -/
def execPwrCpu (v : Word) (s : State) : Out := .next { s with host := { s.host with cpuStep := cpuStepOf v.toNat } }

/-! ## Frequency switches (R368, R369) -/

/-- Nominal rail of a TCLK code in mV (Table 16-4). -/
def railNominal (code : Nat) : Nat := match code with | 0 => 720 | 1 => 690 | 2 => 660 | 3 => 630 | 4 => 600 | _ => 560

/-- A die takes a TCLK code: its ES goes on at the new slot length (R131). -/
def State.setCode (s : State) (d code : Nat) : State :=
  let es := s.es d
  (s.modDie d (fun x => { x with esBase := es, esTime := s.timeNs })).modDiePower d (fun p => { p with code := code, railMv := railNominal code })

/-- Has a die nothing left to switch: it has switched, or takes no part in the job any more? -/
def State.switched (s : State) (j : Job) (d : Nat) : Bool :=
  j.freqAt.any (fun e => decide (e.1 = d)) || (s.die d).ended || (s.die d).stream.isEmpty

/-- The change is over when every die has switched: the PWR_FREQ response gives each die's frame instance (R369). -/
def State.freqDone (s : State) : State :=
  match s.lantern.job with
  | none => s
  | some j =>
    if j.freqNew.isSome ∧ j.state ≠ 3 ∧ j.state ≠ 4 ∧ j.state ≠ 5 then
      (match j.freqReq with | some r => s.respond 0x0403 r 5 [] | none => s).modJob (fun j => { j with freqNew := none, freqReq := none })
    else if j.freqNew.isSome ∧ (List.range 4).all (s.switched j) then
      let s := match j.freqReq with
        | some r => s.respond 0x0403 r 0 (((List.range 4).map (fun d =>
            leBytes 2 (match j.freqAt.find? (fun (e : Nat × Nat) => decide (e.1 = d)) with | some e => e.2 - 1 | none => (s.die d).frames))).flatten)
        | none => s
      s.modJob (fun j => { j with freqNew := none, freqReq := none })
    else s

/-- FREQUENCY_SWITCH (R369): at the start of a frame instance at or after the change time. -/
def execFrequencySwitch (d : DieId) (s : State) : Out :=
  match s.lantern.job with
  | none => .next s
  | some j =>
    match j.freqNew with
    | none => .next s
    | some (code, tc) =>
      let x := s.die d
      if j.state = 3 ∧ x.running ∧ tc ≤ s.timeNs ∧ x.sc = x.frameStart ∧ !s.switched j d then
        let s := s.setCode d code
        .next (s.modJob (fun j => { j with code := code, freqAt := Map.ins j.freqAt d (x.frames + 1) })).freqDone
      else .next s.freqDone

/-- FLARE_PHASE_SET (R370): phases for the highest class whose interval is open or opens within 2 µs, 16 without one. -/
def execFlarePhaseSet (d : DieId) (s : State) : Out :=
  let x := s.die d
  let lead := cdiv (2000 * tclk (s.diePower d).code) 2560
  let live := x.flares.filter (fun f => decide (f.start ≤ x.sc + lead) && decide (x.sc < f.stop))
  let phases := if live.isEmpty then 16 else 2 * (live.foldl (fun a f => max a f.cls) 0 + 1)
  .next ((s.modDie d (fun x => { x with flares := x.flares.filter (fun f => decide (x.sc < f.stop)) })).modDiePower d (fun p => { p with phases := phases }))

/-! ## Tile power states (R371 to R374) -/

/-- Are all units of a tile idle? -/
def Tile.idle (k : Tile) : Bool :=
  k.mxe.isEmpty && k.packs.isEmpty && k.launches.isEmpty && k.slots.all (fun g => decide (g.2.st = .free) || decide (g.2.st = .parked))

/-- No unit of a tile has work, and no descriptor in flight has it among its targets but for an ISLAND, whose groups the slots show: a MOVE that
waits for remote data and a held VLOOP or MOVE keep their units busy (R89). -/
def State.unitsIdle (s : State) (d t : Nat) : Bool :=
  (s.tile d t).idle && (s.die d).inflight.all (fun o => match unitOf o.raw with
    | none => true
    | some .gxe => true
    | some (.ce _) => true
    | some _ => !(dTiles o.raw).contains t)

/-- T_GATE_ENTRY. -/
def execTGateEntry (d : DieId) (t : TileId) (s : State) : Out :=
  if (s.tile d t).power = .run ∧ s.unitsIdle d t then .next (s.modTile d t (fun k => k.enter .gate)) else .next s

/-- Nominal slot of the first descriptor naming a tile from a place in the stream on, with fuel; each later frame is read through once.
start is the slot at which the current instance starts, len its length, left the instances after it, first the frame's first byte. -/
def nextSlot (l : List Byte) (t : Nat) : Nat → Nat → Nat → Nat → Nat → Nat → Bool → Option Nat
  | 0, _, _, _, _, _, _ => none
  | n + 1, pos, start, len, left, first, whole =>
    let raw := streamDesc l pos
    if l.length ≤ pos then none
    else if dKind raw = 1 ∨ dKind raw = 0x0B then
      if 0 < left ∧ !whole then nextSlot l t n first (start + len) len (left - 1) first true
      else if dKind raw = 0x0B then none
      else nextSlot l t n (pos + 64) (start + len * (1 + left)) (fb raw 8 4) (fb raw 0xC 4 - 1) (pos + 64) true
    else if (dTiles raw).contains t then some (start + dOffset raw)
    else nextSlot l t n (pos + dSize raw) start len left first whole

/-- Is a tile a target of an open island? -/
def State.inIsland (s : State) (d t : Nat) : Bool := (s.die d).islands.any (fun i => decide (i.first ≤ t) && decide (t < i.first + i.count))

/-- Has the tile stores that are not acknowledged (R200)? -/
def State.tileWrites (s : State) (d t : Nat) : Bool :=
  ((s.die d).remote ++ (s.die d).orphans).any (fun q => decide (q.op = 3) && !q.done && decide (q.tile = t))

/-- A tile enters a state without its clock or rail; with stores not yet performed it stays in T-GATE and retries (R200). -/
def State.tileSleeps (s : State) (d t : Nat) (p : TilePower) : State :=
  s.modTile d t (fun k => k.enter (if s.tileWrites d t then .gate else p))

/-- TILE_IDLE (R372): by the gap G to the next descriptor that names the tile. -/
def execTileIdle (d : DieId) (t : TileId) (s : State) : Out :=
  let x := s.die d
  let k := s.tile d t
  if s.jobState ≠ 3 ∨ !x.running ∨ !s.unitsIdle d t ∨ s.inIsland d t ∨ (k.power ≠ .run ∧ k.power ≠ .gate) then .next s
  else
    let n := match x.due.find? (fun u => (dTiles u.raw).contains t.val) with
      | some _ => some x.sc
      | none => nextSlot x.stream t (2 * (x.stream.length / 64) + 4) x.next x.frameStart x.frameL (x.frameRepeat - x.frameRep - 1) x.framePos false
    match n with
    | none => .next (s.tileSleeps d t .doze)
    | some n =>
      let g := n - x.sc
      if 2344 ≤ g then .next (s.tileSleeps d t .doze)
      else if 63 ≤ g then .next (s.tileSleeps d t .nap)
      else .next s

/-- TILE_WAKE (R372): from T-OFF the store comes back as zeros. Tiles have states of their own in M-ACTIVE only (Table 01-11). -/
def execTileWake (d : DieId) (t : TileId) (s : State) : Out :=
  if s.domain .tile ≠ .perTile then .next s else .next ((s.restoreTs d t).modTile d t (fun k => { k with power := .run }))

/-- Does an entry that waits in queue q name tile t? Entries from number h on, with fuel. -/
def State.queueNames (s : State) (d q t : Nat) : Nat → Nat → Bool
  | 0, _ => false
  | f + 1, h =>
    let w := s.wq d q
    if BitVec.ofNat 32 h = w.tail then false
    else
      match (s.readMem (wqAcc d w) (w.base.toNat + h % w.size * 64) 64).1 with
      | .ok raw => (dTiles raw).contains t || State.queueNames s d q t f (h + dSize raw / 64)
      | .error _ => false

/-- Does an entry of an enabled queue, waiting or in flight, name a tile? -/
def State.entryNames (s : State) (d t : Nat) : Bool :=
  (s.die d).inflight.any (fun o => (dTiles o.raw).contains t) ||
    (s.die d).wqs.any (fun e => e.2.enable && s.queueNames d e.1 t (e.2.tail - e.2.head).toNat e.2.head.toNat)

/-- TILE_QUEUE_IDLE (R373): a tile without a schedule job, idle for idleNs, which no entry waiting in a queue or in flight names. -/
def execTileQueueIdle (d : DieId) (t : TileId) (idleNs : Nat) (s : State) : Out :=
  let x := s.die d
  let k := s.tile d t
  let cfg := x.tileCfg.toNat
  if s.jobState = 3 ∨ !k.idle ∨ s.inIsland d t ∨ k.power = .off ∨ k.power = .doze ∨ s.entryNames d t then .next s
  else if slice cfg 11 2 * 100000 ≤ idleNs ∧ (x.wqs.all (fun w => !w.2.enable) ∨ bit cfg 1) then .next (s.tileSleeps d t .doze)
  else if 4000 ≤ idleNs then .next (s.tileSleeps d t .nap)
  else .next s

/-- TOFF_IDLE_EXPIRY (R374): no job exists, not even one that has ended. -/
def execToffIdleExpiry (d : DieId) (t : TileId) (s : State) : Out :=
  if bit (s.die d).tileCfg.toNat 0 ∧ s.lantern.job.isNone ∧ (s.tile d t).power = .doze then .next (s.tileSleeps d t .off) else .next s

/-! ## M-IDLE (R375, R376) -/

/-- Entry to M-IDLE (Table 01-11): tiles in T-DOZE, memory in self-refresh, once buffered stores are performed (R200). -/
def State.enterIdle (s : State) : State :=
  let s := (s.host.harts.foldl (fun s h => s.wcDrainAll h.1) s).settleAll
  (({ s with power := { s.power with state := .idle } }.tilesEnter .doze).selfRefresh true)

/-- MODULE_AUTO_IDLE (Table 16-9); the event says that every hart has been in WFI for the time set. -/
def execModuleAutoIdle (s : State) : Out :=
  if s.power.state = .active ∧ bit s.power.modCfg.toNat 0 ∧ s.lantern.job.isNone ∧ !s.queueEnabled then .next s.enterIdle else .next s

/-- MODULE_WAKE. -/
def execModuleWake (_w : WakeTrigger) (s : State) : Out := .next s.wake

end Sys2Proof.Machine
end

