-- ==== Sys2Proof/Machine/Startup.lean ====
section
/-! DEFINITION. Starting the module (01, 11, 18): firmware check and recovery (R379, R399, R400, R403), the self-test steps of Table 18-3, the
verification of the operating-system stage (R380), entry to M-PILOT (R31, R377) and the exit from it, the host restart (Table 10-7). -/
namespace Sys2Proof.Machine

/-! ## Firmware -/

/-- Verify result of an image (R400, R401): 0 accepted, 1 format or length, 2 body_hash, 3 signature, 4 svn below the fused minimum, 5 min_svn
above svn. -/
@[irreducible] def imageCheck (minSvn : Nat) (img : List Byte) : Nat :=
  let len := fieldAt img 0x20 8
  if fieldAt img 0 4 ≠ 0x4A384657 ∨ fieldAt img 4 2 ≠ 1 ∨ len ≠ img.length ∨ len < 512 ∨ 2 ^ 25 < len then 1
  else if sha384 (img.drop 0x200) ≠ bytesAt img 0x30 48 then 2
  else if !Config.ecdsaVerify Config.firmwareKey (fwDigest img) (bytesAt img 0x100 96) then 3
  else if fwSvn img < minSvn then 4
  else if fwSvn img < fieldAt img 0x10 4 then 5
  else 0

/-- Copy the logs to flash (R411). -/
def State.logsCopy (s : State) : State := { s with svc := { s.svc with logsFlash := s.svc.logs } }

/-- Event 0x8002 (R404). -/
def State.fwEvent (s : State) (step : Nat) : State := s.hdEvent 0x8002 (leBytes 1 step ++ leBytes 4 (fwVersion s.svc.running))

/-! ## M-PILOT -/

/-- The power control's part of an M-PILOT entry: clocks of the tile dies are off; an asserted brake is recorded (R361). -/
def Power.toPilot (w : Power) (code : Nat) : Power :=
  { w with
    state := .pilot, pilot := BitVec.ofNat 16 code, brake := false, brakeRatio := 0, cpuBrake := 0, releasing := false, held := 0,
    toggle := false, brakeRecorded := w.brakeIn, hdThermal := 0, hdThrottled := false, dies := [] }

/-- The module is in M-PILOT with a code: event 0x8003 (R397), logs copied (R411). -/
def State.pilotAt (s : State) (code : Nat) : State :=
  ({ s with power := s.power.toPilot code }.hdEvent 0x8003 (leBytes 2 code)).logsCopy

/-- A tile die while its domains are off: fuses, and what the Lantern keeps of its unit map. -/
def Die.parked (x : Die) : Die :=
  { fuse := x.fuse, fuseWritten := x.fuseWritten, units := x.units, mapGen := x.mapGen, tests := x.tests, count := x.count, sparesFree := x.sparesFree, degraded := x.degraded, cap := x.cap }

/-- A bundle end while PD_D2D is off: its lane maps (R377). -/
def LinkEnd_.parked (l : LinkEnd_) : LinkEnd_ :=
  { modules := (l.modules.map (fun e => (e.1, ({ st := e.2.st, badTx := e.2.badTx, badRx := e.2.badRx, clockFail := e.2.clockFail } : LinkModule)))).filter
      (fun e => decide (e.2 ≠ {})) }

/-- The host die after its reset (R245, R328): PE0's part and WIN_BASE stay, so do the counters the Lantern keeps; PE1 is down. -/
def Host_.afterReset (h : Host_) : Host_ :=
  { msixTable := h.msixTable, msixEnable := h.msixEnable, msixPba := h.msixPba, msixSent := h.msixSent, winBase := h.winBase,
    regwin := h.regwin, pe1Root := h.pe1Root, pe1RoleNew := h.pe1RoleNew, perst1Driven := h.pe1Root, pe0Ready := h.pe0Ready,
    pe0Link := h.pe0Link, bars := h.bars, missed := h.missed, restarts := h.restarts, restarting := h.restarting,
    bar2Discarded := h.bar2Discarded, reply := h.reply }

/-- A capacity controller through the HD's reset (R245): its registers start over; fenced lines, retirements and repairs, with the training values,
are restored. -/
def MemCtrl.hdReset (m : MemCtrl) : MemCtrl :=
  { fence := m.fence, chanFenced := m.chanFenced, retired := m.retired, pendingRetire := m.pendingRetire, rakePos := m.rakePos,
    rakePasses := m.rakePasses, autoRepair := m.autoRepair, badTimes := m.badTimes, corrTimes := m.corrTimes, rowErrors := m.rowErrors,
    spareUsed := m.spareUsed, softRepairs := m.softRepairs, hardPending := m.hardPending, hardRepairs := m.hardRepairs, repairing := m.repairing,
    selfRefresh := m.selfRefresh }

/-- The HD is reset: its registers, cores and caches, the capacity controllers; the OS mailbox, which lies in its register block (DEDUCED). -/
def State.hdReset (s : State) : State :=
  let s := (List.range 16).foldl (fun s c => s.modCtrl (12 + c) MemCtrl.hdReset) s
  { s.clearCaches with
    host := s.host.afterReset, lantern := { s.lantern with boxes := Map.del s.lantern.boxes 0 } }

/-- PD_CPU, PD_UNC, PD_NOC, PD_TILE, PD_D2D and PD_FAB go off with memory in self-refresh (Table 01-11). -/
def State.domainsOff (s : State) : State :=
  let s := (s.selfRefresh true).hdReset
  let s : State := { s with
    dies := (s.dies.map (fun (e : Nat × Die) => (e.1, e.2.parked))).filter (fun (e : Nat × Die) => decide (e.2 ≠ {})), tiles := [],
    links := (s.links.map (fun (e : Nat × LinkEnd_) => (e.1, e.2.parked))).filter (fun (e : Nat × LinkEnd_) => decide (e.2 ≠ {})), ports := [],
    fabric := {
      commonAdr := s.fabric.commonAdr, commonFeatures := s.fabric.commonFeatures, newer := s.fabric.newer, proto := s.fabric.proto,
      hdCap := s.fabric.hdCap } }
  s.jobSettle

/-- Entry to M-PILOT from M-ACTIVE or M-IDLE (R31, R377, R391): drain, flush, key steps, domains off. -/
def State.enterPilot (s : State) (code : Nat) : State :=
  let s := (List.range 4).foldl State.dcFlushAll s.drainHd
  let s := { s with svc := { s.svc with discarded := [] } }
  (((s.sealStep true).domainsOff).debugEnd).pilotAt code

/-- Tile dies without power: what stays is in fuses and flash. -/
def State.darkDies (s : State) : State :=
  { s with
    dies := (s.dies.map (fun (e : Nat × Die) => (e.1, e.2.cold))).filter (fun (e : Nat × Die) => decide (e.2 ≠ {})), tiles := [],
    links := [], ports := [], fabric := {} }

/-- Memory without power. -/
def State.darkPool (s : State) : State :=
  { s with pool := {
      tested := s.pool.tested,
      ctrls := (s.pool.ctrls.map (fun (e : Nat × MemCtrl) => (e.1, e.2.cold))).filter (fun (e : Nat × MemCtrl) => decide (e.2 ≠ {})) } }

/-- A start from M-OFF, or a full sequence, fails (R397): the domains go off and memory is unpowered. -/
def State.failStart (s : State) (code : Nat) : State :=
  let s := s.domainsOff.darkDies.darkPool
  ({ s with sec := { s.sec with keys := [] }, lantern := { s.lantern with job := none } }.debugEnd).pilotAt code

/-! ## The operating-system stage (R380) -/

/-- Is a stage accepted, and what is its signer digest? In RETIRED no certificate is named, so none verifies (DESIGN CHOICE). -/
def State.osSignerOf (s : State) (o : OsStage) : Option (List Byte) :=
  let ok := Config.ecdsaVerify o.certificate (sha384 o.bytes) o.signature
  match s.sec.lifecycle.toNat with
  | 2 => if s.sec.store.contains (.os, o.certificate) && ok then some (sha384 o.certificate) else none
  | 3 => none
  | l =>
    if o.certificate = Config.testSigner && ok then some (sha384 o.certificate)
    else if l = 0 && o.certificate.isEmpty then some (zeros 48)
    else none

/-- The stage's bytes are in memory and the module reads M-ACTIVE: tiles of every die run, the heartbeat is off, the PE1 role takes
effect, later jobs default to TCLK code 0 (R345); a brake held since the start is applied with held 2, as it has been asserted for far more than
100 ms (R361, R363, DEDUCED). -/
def State.bootOs (s : State) (o : OsStage) (signer : List Byte) : State :=
  let tiles := ((List.range 4).map (fun d =>
    (List.range (s.die d).count.toNat).map (fun t => (128 * d + t, { s.tile d t with power := .run })))).flatten
  let s := { s with
    tiles := tiles, sec := { s.sec with osDigest := sha384 o.bytes, osSigner := signer },
    host := { s.host with hbEnable := false, missed := 0, pe1Root := s.host.pe1RoleNew, perst1Driven := false },
    power := { s.power with state := .active, pilot := 0 }, lantern := { s.lantern with defaultCode := 0 } }
  let s := s.selfRefresh false
  if s.power.brakeIn then { s with power := { s.power with brakeRecorded := false } }.brakeApply 2 else s

/-- Step 9 of Table 18-3: the pilot code of a stage that does not boot. -/
def State.osStep (s : State) (os : Option OsStage) : State × Nat :=
  match os with
  | none => (s, 0x0902)
  | some o => match s.osSignerOf o with | none => (s, 0x0901) | some d => (s.bootOs o d, 0)

/-! ## Self-test (Table 18-3): a step answers the state and its pilot code, 0 when it passes -/

/-- Mask of the tile dies that p accepts. -/
def dieMask (p : Nat → Bool) : Nat := ((List.range 4).filter p).foldl (fun a d => a + 2 ^ d) 0

/-- A pilot code with a mask of causes: 0 for none. -/
def codeOf (base mask : Nat) : Nat := if mask = 0 then 0 else base + mask

/-- Report of TDd. -/
def StartReport_die (r : StartReport) (d : Nat) : DieReport := match d with | 0 => r.td0 | 1 => r.td1 | 2 => r.td2 | _ => r.td3

/-- The position fuses: written once, after assembly test, and never again (R14). -/
def Die.burn (x : Die) (code : Option (BitVec 3)) : Die :=
  match code with
  | some c => if x.fuseWritten then x else { x with fuse := c, fuseWritten := true }
  | none => x

/-- Straps are sampled as the core rails come up, and a rail that is up holds its sample (R15); fabric ports begin to train (step 7, R265). -/
def State.railsUp (s : State) (r : StartReport) : State :=
  let s := (List.range 4).foldl (fun s d => s.modDie d (fun x =>
    { x.burn (StartReport_die r d).fuse with railUp := true, strap := if x.railUp then x.strap else (StartReport_die r d).strap })) s
  (List.range 24).foldl (fun s p => s.modPort p (fun x => { x with state := 1 })) s

/-- Step 1: die-level and HD SRAM. -/
def stepSram (r : StartReport) : Nat :=
  codeOf 0x0300 (dieMask (fun d => !(StartReport_die r d).sramOk) + 16 * b2n (!r.hdSramOk))

/-- The value accepted from the copies heard on a site (R16): at least two agree and no other value has as many; else impossible. DESIGN CHOICE:
of the four impossible codes it is 000 that an exchange without an accepted value leaves (notes/assumptions/88). -/
def acceptCopies (l : List (BitVec 3)) : BitVec 3 :=
  let n (v : BitVec 3) := (l.filter (fun x => decide (x = v))).length
  let all : List (BitVec 3) := (List.range 8).map (BitVec.ofNat 3)
  (all.find? (fun v => decide (2 ≤ n v) && all.all (fun w => decide (w = v) || decide (n w < n v)))).getD 0

/-- Table 01-5. -/
def decodePos (c : BitVec 3) : Option Nat := match c.toNat with | 4 => some 0 | 1 => some 1 | 2 => some 2 | 7 => some 3 | _ => none

/-- Does a code name a position whose expected neighbours were heard? -/
def posFrom (own east south : BitVec 3) : Option Nat :=
  match decodePos own with
  | none => none
  | some p => if decodePos east = some (p ^^^ 1) ∧ decodePos south = some (3 - p) then some p else none

/-- Resolution of R16: position and source. DESIGN CHOICE: after a failed resolution, where R18 gives the position no meaning, pos reads 0
(notes/assumptions/88). -/
def resolvePos (strap fuse hE hS fE fS : BitVec 3) : Nat × Nat :=
  match posFrom strap hE hS with
  | some p => (p, 0)
  | none => match posFrom fuse fE fS with | some p => (p, 1) | none => (0, 2)

/-- TD_POSITION as a word. -/
def Die.position (x : Die) : Nat :=
  x.pos.toNat + 4 * x.posSource.toNat + 16 * x.strap.toNat + 128 * x.fuse.toNat + 1024 * x.heardE.toNat + 2 ^ 13 * x.heardS.toNat +
    2 ^ 16 * x.heardfE.toNat + 2 ^ 19 * x.heardfS.toNat

/-- What a site of n link modules accepts of a code that is sent on lane 0 of each: the copies arrive as sent, but for those changed on the way. -/
def hearCode (n : Nat) (sent : BitVec 3) (changed : Map (BitVec 3)) : BitVec 3 := acceptCopies ((List.range n).map (Map.get sent changed))

/-- The position exchange (R16): the die at HPd hears on XE the codes of its horizontal neighbour and on XS those of its vertical one, whatever
the orientation (Table 01-3), and the HD hears the die on XH. -/
def State.exchangeCodes (s : State) (r : StartReport) : State :=
  (List.range 4).foldl (fun (t : State) d =>
    let h := StartReport_die r d
    let e := s.die (d ^^^ 1)
    let v := s.die (3 - d)
    let hE := hearCode 12 e.strap h.heardE
    let hS := hearCode 12 v.strap h.heardS
    let fE := hearCode 12 e.fuse h.heardfE
    let fS := hearCode 12 v.fuse h.heardfS
    let t := t.modDie d (fun x =>
      let q := resolvePos x.strap x.fuse hE hS fE fS
      { x with heardE := hE, heardS := hS, heardfE := fE, heardfS := fS, pos := BitVec.ofNat 2 q.1, posSource := BitVec.ofNat 2 q.2 })
    let x := s.die d
    { t with fabric := { t.fabric with hpHeard := Map.put (0, 0) t.fabric.hpHeard d (hearCode 6 x.strap h.heardH, hearCode 6 x.fuse h.heardfH) } }) s

/-- Step 2: the position exchange (R16, R17); a die resolved from its fuses is logged as a strap fault (R18). -/
def State.stepPosition (s : State) (r : StartReport) : State × Nat :=
  let s := s.exchangeCodes r
  let bad := dieMask (fun d => decide ((s.die d).posSource = 2) || decide ((s.die d).pos.toNat ≠ d))
  let s := if bad = 0 then (List.range 4).foldl (fun s d =>
      if (s.die d).posSource = 1 then s.logNote 0 (leBytes 1 d ++ leBytes 4 (s.die d).position) else s) s else s
  (s, codeOf 0x0200 bad)

/-- What a sweep or lane check finds on module m of end e; its map key is 16e + m. -/
def laneFound (r : StartReport) (e m : Nat) : LaneResult := Map.get {} r.lanes (16 * e + m)

/-- Every (end, module) of the package. -/
def allModules : List (Nat × Nat) := ((List.range 16).map (fun e => (List.range (endModules e)).map (fun m => (e, m)))).flatten

/-- The lane sweep (R250, R251): module states, lanes good in the baseline and bad now, modules below full width logged. -/
def State.laneSweep (s : State) (r : StartReport) : State :=
  allModules.foldl (fun s em =>
    let f := laneFound r em.1 em.2
    let base := Map.get {} s.svc.baseline (16 * em.1 + em.2)
    let st := laneState f.badTx f.badRx f.clockOk
    let s := s.modLink em.1 (fun l => l.modModule em.2 (fun _ => { st := st, badTx := f.badTx, badRx := f.badRx, clockFail := !f.clockOk }))
    let s := (s.logLanes em.1 em.2 0 f.badTx base.badTx).logLanes em.1 em.2 1 f.badRx base.badRx
    if st = .full then s else s.logNote 2 (leBytes 1 em.1 ++ leBytes 1 em.2 ++ leBytes 1 st.code)) s

/-- Tile dies without a path to the HD (R251). -/
def State.lostDies (s : State) : Nat := dieMask (fun d => (s.diePath d 4 false).isNone)

/-- Without half-width operation in the common set, modules at half width are retired (R263, DEDUCED). -/
def State.halvesRetired (s : State) : State :=
  allModules.foldl (fun s em => s.modLink em.1 (fun l => l.modModule em.2 (fun x => if x.st = .half then { x with st := .retired } else x))) s

/-- The capability exchange (R262, R263): a die not heard, another ADR, a die fenced for want of HD forwarding. -/
def State.capExchange (s : State) : State × Nat :=
  let hd : CapWord := s.fabric.hdCap.getD ⟨0, 0, 0, 0⟩
  let caps := (List.range 4).map (fun d => ((s.die d).cap).getD hd)
  let unheard := dieMask (fun d => (s.die d).cap.isNone)
  let other := dieMask (fun d => match (s.die d).cap with | some c => decide (c.adr ≠ hd.adr) | none => false)
  let feats := caps.foldl (fun a c => a &&& c.features) hd.features
  let cut := dieMask (fun d => !feats.getLsbD 3 && (s.link (3 * d + 1)).down (3 * d + 1) && (s.link (3 * d + 2)).down (3 * d + 2))
  let above (f : Word) : Bool := decide (f &&& ~~~ feats ≠ 0)
  let newer := dieMask (fun d => match (s.die d).cap with | some c => above c.features | none => false) + 16 * b2n (above hd.features)
  if unheard ≠ 0 then (s, codeOf 0x0400 unheard)
  else if other ≠ 0 then (s, codeOf 0x0500 other)
  else
    let proto := caps.foldl (fun a c => min a c.proto.toNat) hd.proto.toNat
    let s := { s with fabric := { s.fabric with
      commonAdr := hd.adr, commonFeatures := feats, newer := BitVec.ofNat 5 newer, proto := BitVec.ofNat 16 proto } }
    let s := if newer = 0 then s else s.logNote 0 (leBytes 1 newer ++ leBytes 4 feats.toNat)
    let s := if feats.getLsbD 1 then s else s.halvesRetired
    (s, codeOf 0x0400 cut)

/-- Step 3. -/
def State.stepLinks (s : State) (r : StartReport) : State × Nat :=
  let s := s.laneSweep r
  let s := (List.range 4).foldl (fun s d => s.modDie d (fun x => { x with cap := (StartReport_die r d).cap })) s
  let lost := s.lostDies
  if lost ≠ 0 then (s, codeOf 0x0400 lost) else { s with fabric := { s.fabric with hdCap := some r.hdCap } }.capExchange

/-- Pilot code of a controller that does not respond. -/
def silentCode (c : Nat) : Nat := if c < 12 then 0x0600 + c else 0x0610 + (c - 12)

/-- A controller as step 4 leaves it: recorded soft repairs and pending hard repairs become hard while spare rows last (R235); failing and
pending channels are retired (R239). The pending marks go when the start succeeds. -/
def MemCtrl.started (m : MemCtrl) (c : Nat) (bad : BitVec 32) : MemCtrl :=
  let soft : MemCtrl := { pendingRetire := m.pendingRetire, rowErrors := m.rowErrors, spareUsed := m.spareUsed, hardRepairs := m.hardRepairs ++ m.softRepairs }
  let hard := m.hardPending.foldl (fun (x : MemCtrl) r =>
    if x.hardRepairs.contains r || decide (spareRows c ≤ Map.get 0 x.spareUsed (bankIndex r)) then x
    else { x with hardRepairs := x.hardRepairs ++ [r], spareUsed := Map.modify 0 x.spareUsed (bankIndex r) (· + 1) }) soft
  { hard with retired := (bad ||| m.pendingRetire) &&& BitVec.ofNat 32 (2 ^ ctrlChans c - 1) }

/-- Step 4: every controller responds, those of an unpopulated capacity tier too (R2); training, repairs, the test of every line under a test
key, retirement, where memory is populated. -/
def State.stepMemory (s : State) (r : StartReport) : State × Nat :=
  let ctrls := (List.range 28).filter (fun c => decide (c < 12) || !s.lnVariant)
  match (List.range 28).find? (fun c => r.silent.any (fun x => decide (x.val = c))) with
  | some c => (s, silentCode c)
  | none =>
    let s := ctrls.foldl (fun s c => s.modCtrl c (fun m => m.started c (Map.get 0 r.badChannels c))) s
    let gone := ctrls.filter (fun c => decide ((s.ctrl c).retired ≠ 0))
    let s := gone.foldl (fun s c =>
      let args := leBytes 1 c ++ leBytes 4 (s.ctrl c).retired.toNat
      (s.logNote 1 args).logNote 2 args) s
    ({ s with pool := { ctrls := s.pool.ctrls, tested := s.pool.tested + 1 } }, 0)

/-- Step 5 in part: DSQ and collective engines. -/
def stepDsq (r : StartReport) : Nat := codeOf 0x0700 (dieMask (fun d => !(StartReport_die r d).dsqOk))

/-- Step 6: the unit map of each die (R105); tiles that do not pass are logged. -/
def State.stepUnits (s : State) (r : StartReport) : State :=
  (List.range 4).foldl (fun s d =>
    let tests := (StartReport_die r d).tiles
    let m := buildMap tests [] (s.die d).units
    let s := s.modDie d (fun x => x.takeMap tests m)
    (tests.filter (fun e => !e.2.passes)).foldl (fun s e => s.logNote 2 (leBytes 1 d ++ leBytes 1 0xFF ++ leBytes 1 e.1)) s) s

/-- Run a step unless an earlier one has failed. -/
def State.andThen (p : State × Nat) (f : State → State × Nat) : State × Nat := if p.2 = 0 then f p.1 else p

/-- Steps 1 to 9 of Table 18-3. -/
def State.selfTest (s : State) (r : StartReport) : State × Nat :=
  let p : State × Nat := (s.railsUp r, stepSram r)
  let p := State.andThen p (fun s => s.stepPosition r)
  let p := State.andThen p (fun s => s.stepLinks r)
  let p := State.andThen p (fun s => s.stepMemory r)
  let p := State.andThen p (fun s => (s, stepDsq r))
  let p := State.andThen p (fun s => (s.stepUnits r, 0))
  let p := State.andThen p (fun s => (s.freshKey 0 1 0, 0))
  State.andThen p (fun s => s.osStep r.os)

/-! ## A full start (R394, R395) -/

/-- After self-test: the fused minimum rises after a start from flash (R405); pending retirements are done; a recovered image is written to
flash (R403). -/
def State.started (s : State) (r : StartReport) (fromOff : Bool) : State :=
  let s := (List.range 28).foldl (fun s c => s.modCtrl c (fun m => { m with pendingRetire := 0 })) s
  let s := { s with fabric := { s.fabric with root := r.fabricRoot } }
  if s.svc.recovered then ({ s with svc := { s.svc with fwState := 4 } }).fwEvent 4
  else if fromOff then
    { s with svc := { s.svc with minSvn := max s.svc.minSvn (min 64 (fieldAt s.svc.running 0x10 4)) } }
  else s

/-- The ROM boots an image from flash, or one from the tray controller; none: the code and the minimal responder (R379, R397, R403). The code
is 0x0102 when every image seen failed by svn only. -/
def State.romBoot (s : State) (recovery : Option (List Byte)) : State × Nat :=
  let c := imageCheck s.svc.minSvn s.svc.flash
  let boot (img : List Byte) (rec : Bool) : State :=
    { s.romPass img with
      svc := { s.svc with
        running := img, recovered := rec, flashMatch := !rec, fwState := 0, staging := [], staged := false },
      lantern := { s.lantern with rom := false, handover := false } }
  if c = 0 then (boot s.svc.flash false, 0)
  else
    let fail (svnOnly : Bool) : State × Nat :=
      ({ s with
        svc := { s.svc with running := [], recovered := false, flashMatch := false, fwState := 0, staging := [], staged := false },
        lantern := { s.lantern with rom := true, handover := false } }, if svnOnly then 0x0102 else 0x0101)
    match recovery with
    | none => fail (decide (c = 4))
    | some img =>
      let k := imageCheck s.svc.minSvn img
      if k = 0 then (boot img true, 0) else fail (decide (c = 4) && decide (k = 4))

/-- The whole sequence of R395, from M-OFF or from M-PILOT (R398): the volatile state is gone by then. -/
def State.fullStart (s : State) (r : StartReport) (fromOff : Bool) : State :=
  let s := { s with
    pins := { s.pins with slotId := if fromOff then r.slotId else s.pins.slotId },
    power := { s.power with brakeIn := s.power.brakeIn || r.brakeHeld } }
  let p := State.andThen (s.romBoot r.recovery) (fun s => s.selfTest r)
  if p.2 = 0 then p.1.started r fromOff else p.1.failStart p.2

/-- A start from M-OFF: the boot count, the reset-log entry of the latched cause (R411). -/
def State.coldStart (s : State) (r : StartReport) : State :=
  let s := { s with svc := { s.svc with boots := s.svc.boots + 1 }, lantern := {} }
  (s.logReset s.svc.resetCause []).fullStart r true

/-- POWER_ON (R395, R420): nothing starts while RESET_N is low or THERMTRIP_N is latched; the input is noted. -/
def execPowerOn (r : StartReport) (s : State) : Out :=
  if s.power.state ≠ .off then .next s
  else
    let s := { s with pins := { s.pins with inputOk := true, slotIdNew := r.slotId } }
    .next (if s.pins.resetN && !s.pins.thermtrip then s.coldStart r else s)

/-- RESET_N_RELEASE (R394, R420). -/
def execResetNRelease (r : StartReport) (s : State) : Out :=
  if s.pins.resetN then .next s
  else
    let s := { s with pins := { s.pins with resetN := true } }
    .next (if s.pins.inputOk then s.coldStart r else s)

/-- A start under way fails with a code: what it has done so far is lost, and memory is unpowered. -/
def State.startLost (s : State) (code : Nat) : State := if s.power.state = .off then s else s.failStart code

/-- CAPABILITY_EXCHANGE_TIMEOUT (R262): the die-link step fails. -/
def execCapabilityExchangeTimeout (d : DieId) (s : State) : Out := .next (s.startLost (0x0400 + 2 ^ d.val))

/-- SELF_TEST_STEP_TIMEOUT (R395), of a step that has a limit in Table 18-3: 1 to 9 but for 7. -/
def execSelfTestStepTimeout (n : Fin 10) (s : State) : Out :=
  if n.val = 0 ∨ n.val = 7 then .next s else .next (s.startLost (0x0C00 + n))

/-- FIRMWARE_RECOVERY_TIMEOUT (R403). -/
def execFirmwareRecoveryTimeout (svnOnly : Bool) (s : State) : Out :=
  if s.power.state = .off then .next s
  else
    let s := { s with svc := { s.svc with running := [] }, lantern := { s.lantern with rom := true } }
    .next (s.startLost (if svnOnly then 0x0102 else 0x0101))

/-! ## Exit from M-PILOT (R377, R394, R398) -/

/-- The die links come back with their maps and a lane check: bad lanes add up, a retired module stays retired. -/
def State.linksBack (s : State) (r : StartReport) : State :=
  allModules.foldl (fun s em =>
    let f := laneFound r em.1 em.2
    s.modLink em.1 (fun l => l.modModule em.2 (fun x =>
      let tx := x.badTx ||| f.badTx
      let rx := x.badRx ||| f.badRx
      let clockFail := x.clockFail || !f.clockOk
      { x with st := if x.st = .retired then .retired else laneState tx rx (!clockFail), badTx := tx, badRx := rx, clockFail := clockFail }))) s

/-- A start ends the channel fences of the time before it (R232, Table 18-1). -/
def State.chansUnfenced (s : State) : State :=
  (List.range 28).foldl (fun s c => s.modCtrl c (fun m => { m with chanFenced := 0, badTimes := [] })) s

/-- Does a region touch the range of a controller? -/
def Region.touches (g : Region) (c : Nat) : Bool :=
  decide (g.base < ctrlBase c + ctrlChans c * chanBytes c) && decide (ctrlBase c < g.base + g.size)

/-- Channels that fail while memory is kept are fenced, and the record marks the regions they touch as torn (R239). Every region of 2 MiB
reaches each channel of its stack. -/
def State.channelsFail (s : State) (r : StartReport) : State :=
  r.badChannels.foldl (fun s e =>
    let s := (maskBits (ctrlChans e.1) e.2.toNat).foldl (fun s ch => s.fenceChannel e.1 ch) s
    if e.2 = 0 then s
    else { s with sec := { s.sec with record := s.sec.record.map (fun g =>
      if g.state = 0 ∧ g.touches e.1 then { g with state := 1 } else g) } }) s

/-- Does step n of the exit fail? -/
def exitFails (r : StartReport) (n : Nat) : Nat := match r.exitFail with | some k => if k.val = n then 0x0D00 + n else 0 | none => 0

/-- Steps 1 to 3 of R377: the code of the first that fails. -/
def State.exitEarly (s : State) (r : StartReport) : State × Nat :=
  let p := s.stepPosition r
  (p.1, firstStatus [exitFails r 1, exitFails r 2, if p.2 = 0 then 0 else 0x0D03, exitFails r 3])

/-- Steps 4 to 6 of R377. -/
def State.exitLate (s : State) (r : StartReport) : State × Nat :=
  let s := s.linksBack r
  (s, firstStatus [if s.lostDies = 0 then 0 else 0x0D04, exitFails r 4, exitFails r 5, exitFails r 6])

/-- The boot after an exit. Key ID 0 is replaced at every host boot (R386). -/
def State.exitBoot (s : State) (r : StartReport) : State × Nat :=
  let s := (((s.chansUnfenced.channelsFail r).destroyKeys [0] 2).freshKey 0 1 0).debugEnd
  ({ s with
    sec := { s.sec with releasedBoot := false, releasedCount := 0 }, fabric := { s.fabric with root := r.fabricRoot } }).osStep r.os

/-- The exit that keeps memory and sealed keys; a failure leaves the module in M-PILOT with memory in self-refresh. -/
def State.warmExit (s : State) (r : StartReport) : State :=
  let p := State.andThen ((s.railsUp r).exitEarly r) (fun s => s.exitLate r)
  let p := State.andThen p (fun s => s.exitBoot r)
  if p.2 = 0 then p.1 else (p.1.domainsOff).pilotAt p.2

/-- PWR_STATE 0 in M-PILOT (R398): entered on request or at the restart limit, memory is kept; else every sealed key is destroyed and the
full sequence runs. A lifecycle change asks for a start that keeps nothing (R390). -/
def State.pilotExit (s : State) (r : StartReport) : State :=
  let s := { s with pins := { s.pins with slotIdNew := r.slotId }, host := { s.host with restarting := false } }
  if (s.power.pilot = 1 ∨ s.power.pilot = 2) ∧ !s.sec.rebootPending then s.warmExit r
  else
    let s := (s.destroyKeys (s.sec.sealedKeys.map (·.key)) 2).debugEnd.darkDies.darkPool
    { s with sec := { s.sec with
      keys := [], sealedKeys := [], regions := [], record := [], rebootPending := false } }.fullStart r false

/-! ## Stopping all work (R348) -/

/-- Completion records of queue entries that a halt ends: status 0x000F. -/
def State.haltRecords (s : State) : State :=
  s.dies.foldl (fun s e => e.2.inflight.foldl (fun s o =>
    match o.src with | .queue q h => s.wqRecord e.1 q h o.raw 0x0F | .stream _ _ => s) s) s

/-- What each engine records of the collectives a halt ends: the failed rank is its own (R307). -/
def State.haltAborts (s : State) : State :=
  s.dies.foldl (fun s e => e.2.ces.foldl (fun s c => c.2.steps.foldl (fun s st =>
    let x := collFields st.raw
    if (s.ce e.1 c.1).aborted.contains x.collId then s else s.recordAbort e.1 c.1 x.collId x.step false x.rank) s) s) s

/-- Control commands in progress end with a status (R348). -/
def State.cancelControls (s : State) (status : Nat) : State :=
  let s := s.beaconCancel status
  match s.lantern.job with
  | none => s
  | some j =>
    let s := match j.suspending with | some r => s.respond 0x0204 r status [] | none => s
    let s := match j.freqReq with | some r => s.respond 0x0403 r status [] | none => s
    s.modJob (fun j => { j with suspending := none, freqReq := none, freqNew := none })

/-- All tile-die work stops: DSQs, units, queues, collectives; a job of state 1 to 4 is aborted (R348, Table 15-11). -/
def State.haltAll (s : State) : State :=
  let s := s.cancelControls 0x0F
  let packets := s.jobAborts
  let s := s.haltAborts
  let s := packets.foldl (fun s p => (s.send p.1 p.2).2) s
  let s := s.haltRecords
  let n := s.inflightCount true
  let s := s.mapWork (fun x => { (x.stopWork true).jobOver with
    wqs := (x.wqs.map (fun e => (e.1, { e.2 with enable := false, state := 0 }))).filter (fun e => decide (e.2 ≠ {})) }) (Tile.stopWork true)
  if 1 ≤ s.jobState ∧ s.jobState ≤ 4 then
    (s.modJob (fun j => { j with suspending := none })).jobEnds 7 n
  else s

/-! ## Host restart (Table 10-7, R326 to R328) -/

/-- The restart under way: from its start to the HD's reset. The heartbeat count of the ended system is cleared. -/
def State.restartDown (s : State) (keep : Bool) : State :=
  let s := { s with host := { s.host with
    restarting := true, restarts := s.host.restarts.filter (fun t => decide (s.timeNs < t + 600000000000)) ++ [s.timeNs] } }
  let s := s.hdEvent 0x8001 (leBytes 1 0 ++ leBytes 1 s.host.restarts.length)
  let s := s.haltAll
  let s := (List.range 4).foldl State.dcFlushAll s.drainHd
  let s := s.logReset 5 s.svc.discarded
  let s := { s with
    svc := { s.svc with discarded := [] },
    sec := { s.sec with restartCount := BitVec.ofNat 8 (satAdd 8 s.sec.restartCount.toNat 1) } }
  let s := ((s.sealStep keep).selfRefresh true).hdReset
  { s with host := { s.host with missed := 0 } }.logsCopy

/-- A host restart with the stage that boots next; the third within 10 min ends in M-PILOT (R327). -/
def State.hostRestart (s : State) (os : Option OsStage) (keep : Bool) : State :=
  let s := s.restartDown keep
  if 3 ≤ s.host.restarts.length then (s.domainsOff.debugEnd).pilotAt 2
  else
    let p := s.chansUnfenced.osStep os
    if p.2 = 0 then
      let s := { p.1 with host := { p.1.host with restarting := false } }
      s.hdEvent 0x8001 (leBytes 1 1 ++ leBytes 1 s.host.restarts.length)
    else (s.domainsOff.debugEnd).pilotAt p.2

/-- HEARTBEAT_PERIOD_EXPIRY (R326): a whole period without a beat; none is counted during an activation handover (R402). -/
def execHeartbeatPeriodExpiry (os : Option OsStage) (s : State) : Out :=
  if !s.host.hbEnable ∨ s.lantern.handover ∨ (s.power.state ≠ .active ∧ s.power.state ≠ .idle) then .next s
  else
    let n := s.host.missed.toNat + 1
    let s := { s with host := { s.host with missed := BitVec.ofNat 4 (min n 15) } }
    let s := if n = 2 then s.raiseWired 13 else s
    .next (if 3 ≤ n then s.wake.hostRestart os true else s)

/-- HOST_HB_RESTART (R326): whether or not the heartbeat is enabled. -/
def execHostHbRestart (os : Option OsStage) (s : State) : Out :=
  if s.power.state ≠ .active ∧ s.power.state ≠ .idle then .next s else .next (s.wake.hostRestart os true)

/-! ## Tile-die reset (R199, R262) -/

/-- TILE_DIE_RESET: the die drains, and what a drain cut off is logged; then it starts without work, and the capability exchange runs
again. Its straps and unit map stand (R15: a warm reset does not resample). -/
def execTileDieReset (d : DieId) (cap : Option CapWord) (s : State) : Out :=
  let dn : Nat := d
  let s := s.dcFlushAll dn
  let s := s.logReset 6 s.svc.discarded
  let old := s.die dn
  let s := { s with svc := { s.svc with discarded := [] } }
  let s := s.modDie dn (fun x => { x.parked with
    railUp := x.railUp, strap := x.strap, heardE := x.heardE, heardS := x.heardS, heardfE := x.heardfE, heardfS := x.heardfS, pos := x.pos,
    posSource := x.posSource, cap := cap })
  let s := (List.range 128).foldl (fun s t => s.modTile dn t (fun k => if t < old.count.toNat then { power := .run } else k)) s
  let p : State × Nat := s.jobSettle.capExchange
  .next (if p.2 = 0 then p.1 else s.enterPilot p.2)

end Sys2Proof.Machine
end

