-- ==== Sys2Proof/Machine/Lantern.lean ====
section
/-! DEFINITION. The Lantern's mailboxes (15): how a request is received, checked and queued (R329 to R342), throttling (R341), the response and
event paths, and the turn a command waits for. -/
namespace Sys2Proof.Machine

/-! ## Commands (Table 15-6) -/

/-- A row of Table 15-6: who may send it, Q, P, the length of its fixed part, the payload bytes it names as (offset, length). -/
structure CommandInfo where
  os : Bool
  eh : Bool
  mg : Bool
  query : Bool
  pilot : Bool
  fixed : Nat
  used : List (Nat × Nat)
  deriving DecidableEq, Repr

/-- Table 15-6. PWR_STATE is served in M-PILOT too: Table 16-9 leaves M-PILOT by it (DEDUCED). -/
def commandInfo (cmd : Nat) : Option CommandInfo :=
  match cmd with
  | 0x0101 => some ⟨true, true, true, true, true, 0, []⟩
  | 0x0102 => some ⟨true, true, true, true, true, 0, []⟩
  | 0x0103 => some ⟨true, true, true, false, true, 0, []⟩
  | 0x0201 => some ⟨true, true, true, false, false, 40, [(0, 27), (32, 8)]⟩
  | 0x0202 => some ⟨true, true, true, false, false, 32, [(0, 17), (24, 8)]⟩
  | 0x0203 => some ⟨true, true, true, false, false, 8, [(0, 1), (4, 4)]⟩
  | 0x0204 => some ⟨true, true, true, false, false, 0, []⟩
  | 0x0205 => some ⟨true, true, true, false, false, 8, [(4, 4)]⟩
  | 0x0206 => some ⟨true, true, true, false, true, 1, [(0, 1)]⟩
  | 0x0207 => some ⟨true, true, true, true, true, 0, []⟩
  | 0x0301 => some ⟨true, true, true, true, false, 0, []⟩
  | 0x0302 => some ⟨true, false, false, false, false, 2, [(0, 2)]⟩
  | 0x0303 => some ⟨true, false, true, false, false, 13, [(0, 5), (8, 5)]⟩
  | 0x0304 => some ⟨true, false, true, false, false, 24, [(0, 3), (8, 16)]⟩
  | 0x0401 => some ⟨true, true, true, false, false, 3, [(0, 3)]⟩
  | 0x0402 => some ⟨true, false, true, false, true, 1, [(0, 1)]⟩
  | 0x0403 => some ⟨true, true, true, false, false, 8, [(0, 1), (4, 4)]⟩
  | 0x0501 => some ⟨true, true, true, true, true, 49, [(0, 49)]⟩
  | 0x0502 => some ⟨true, true, true, false, false, 4, [(0, 4)]⟩
  | 0x0503 => some ⟨false, false, true, false, true, 1, [(0, 1), (4, 4092)]⟩
  | 0x0504 => some ⟨false, true, true, false, true, 1, [(0, 1), (4, 4092)]⟩
  | 0x0601 => some ⟨true, true, true, false, true, 16, [(0, 9), (16, 4080)]⟩
  | 0x0602 => some ⟨true, true, true, false, true, 48, [(0, 48)]⟩
  | 0x0603 => some ⟨true, false, true, false, false, 4, [(0, 4)]⟩
  | 0x0604 => some ⟨true, true, true, true, true, 10, [(0, 1), (4, 6)]⟩
  | _ => none

/-- May a source send the command? -/
def CommandInfo.permits (i : CommandInfo) (k : Source) : Bool := match boxOf k with | 0 => i.os | 1 => i.eh | _ => i.mg

/-- Payload bytes that a command names, the regions that MEM_KEEP declares or drops included. -/
def usedBytes (cmd : Nat) (i : CommandInfo) (p : List Byte) : List (Nat × Nat) :=
  if cmd = 0x0302 ∧ (fieldAt p 0 1 = 0 ∨ fieldAt p 0 1 = 3) then i.used ++ (List.range (fieldAt p 1 1)).map (fun k => (8 + 24 * k, 17)) else i.used

/-- Is a payload malformed (R339, R344): shorter than its fixed part, a reserved byte, bit or TCLK code? -/
def badPayload (cmd : Nat) (i : CommandInfo) (p : List Byte) : Bool :=
  let used := usedBytes cmd i p
  let reserved := (List.range p.length).any (fun k =>
    decide (p.getD k 0 ≠ 0) && !used.any (fun u => decide (u.1 ≤ k) && decide (k < u.1 + u.2)))
  let code (c : Nat) : Bool := decide (5 < c)
  let extra : Bool := match cmd with
    | 0x0201 => (code (fieldAt p 25 1) && decide (fieldAt p 25 1 ≠ 0xFF)) || decide (1 < fieldAt p 26 1)
    | 0x0203 => code (fieldAt p 0 1)
    | 0x0403 => code (fieldAt p 0 1)
    | 0x0302 => (decide (fieldAt p 0 1 = 0) || decide (fieldAt p 0 1 = 3)) && decide (p.length < 8 + 24 * fieldAt p 1 1) && decide (0 < fieldAt p 1 1)
    | 0x0501 => decide (1 < fieldAt p 48 1)
    | 0x0601 => decide (1 < fieldAt p 8 1)
    | 0x0603 => decide (15 < fieldAt p 0 4)
    | _ => false
  decide (p.length < i.fixed) || reserved || extra

/-- An operation number that no row of the command's table has: an argument out of its range (R344). -/
def badOp (cmd : Nat) (p : List Byte) : Bool :=
  match cmd with
  | 0x0206 => decide (1 < fieldAt p 0 1)
  | 0x0302 => decide (3 < fieldAt p 0 1)
  | 0x0303 => decide (6 < fieldAt p 0 1)
  | 0x0304 => decide (2 < fieldAt p 0 1)
  | 0x0402 => decide (3 < fieldAt p 0 1)
  | 0x0502 => decide (5 < fieldAt p 0 1)
  | 0x0503 => decide (3 < fieldAt p 0 1)
  | 0x0504 => decide (3 < fieldAt p 0 1)
  | 0x0604 => decide (3 < fieldAt p 0 1)
  | _ => false

/-- Commands that the ROM's minimal responder answers (R397). -/
def romServes (cmd : Nat) : Bool := [0x0101, 0x0102, 0x0601, 0x0602, 0x0604].contains cmd

/-- Is a command refused in the module's present state? YST_PILOT, or 0. -/
def State.pilotRefuses (s : State) (cmd : Nat) (i : CommandInfo) : Bool := s.inPilot && (!i.pilot || (s.lantern.rom && !romServes cmd))

/-! ## Receiving (R335 to R341) -/

/-- The request a message carries. -/
def requestOf (k : Source) (raw : List Byte) : Request :=
  ⟨k, BitVec.ofNat 8 (fieldAt raw 0 1), BitVec.ofNat 16 (fieldAt raw 4 2), BitVec.ofNat 32 (fieldAt raw 12 4), raw.drop 16⟩

/-- Is a header malformed (R339)? Only JOB commands carry a handle. -/
def badHeader (raw : List Byte) : Bool :=
  let cmd := fieldAt raw 2 2
  decide (raw.length < 16) || decide (4096 < fieldAt raw 8 2) || decide (fieldAt raw 8 2 ≠ raw.length - 16) ||
    decide (fieldAt raw 1 1 ≠ 0) || decide (fieldAt raw 6 2 ≠ 0) || decide (fieldAt raw 10 2 ≠ 0) ||
    (decide (cmd / 256 ≠ 2) && decide (fieldAt raw 12 4 ≠ 0)) || decide (fieldAt raw 4 2 = 0xFFFF)

/-- Does a time lie in the second up to now, counted in 1 ms steps (R341)? -/
def State.inSecond (s : State) (t : Nat) : Bool := decide (s.timeNs / 1000000 < t / 1000000 + 1000)

/-- A malformed message is counted (R340); the 1,001st within 1 s throttles its mailbox (R341). -/
def State.countMalformed (s : State) (b : Nat) : State :=
  let m := s.box b
  let times := m.malTimes.filter s.inSecond ++ [s.timeNs]
  let s := s.modBox b (fun m => { m with
    malformed := if b = 2 then m.malformed else BitVec.ofNat 32 (satAdd 32 m.malformed.toNat 1),
    malformedAll := BitVec.ofNat 32 (satAdd 32 m.malformedAll.toNat 1), malTimes := times })
  if 1000 < times.length ∧ !m.throttled then
    (s.modBox b (fun m => { m with throttled := true, throttleNext := s.timeNs, dropped := 0 })).hdEvent 0x9001 (leBytes 1 b)
  else s

/-- Answer a request that is not accepted. -/
def State.reject (s : State) (k : Source) (raw : List Byte) (tag status : Nat) (payload : List Byte) : State :=
  s.post ⟨k, s.rspMsg (fieldAt raw 2 2) (requestOf k raw) tag status payload, false⟩ false

/-- The answer to a malformed message: its first 16 bytes, under its own tag where it can be (R340). -/
def State.malformedAnswer (s : State) (k : Source) (raw : List Byte) : State :=
  (s.countMalformed (boxOf k)).reject k raw (if raw.length < 6 then 0xFFFF else fieldAt raw 4 2) 1 (raw.take 16)

/-- An accepted request whose answer is known at once. -/
def State.answerNow (s : State) (cmd : Nat) (r : Request) (status : Nat) (payload : List Byte) : State :=
  (s.modBox (boxOf r.src) (fun m => { m with outstanding := m.outstanding ++ [(r.src, r.tag.toNat)] })).respond cmd r status payload

/-- Checks after the throttle and the limit: header, tag, version, command, mailbox, M-PILOT, payload (an order the spec does not fix,
DESIGN CHOICE). A request that passes waits for its turn. -/
def State.accept (s : State) (k : Source) (raw : List Byte) : State :=
  let cmd := fieldAt raw 2 2
  let r := requestOf k raw
  if badHeader raw then s.malformedAnswer k raw
  else if (s.box (boxOf k)).outstanding.contains (k, r.tag.toNat) then s.reject k raw 0xFFFF 0x0C (raw.take 16)
  else if r.version.toNat < s.yesiaMin ∨ s.yesiaMax < r.version.toNat then
    s.answerNow cmd { r with version := BitVec.ofNat 8 s.yesiaMax } 0x0B (leBytes 1 s.yesiaMin ++ leBytes 1 s.yesiaMax)
  else
    match commandInfo cmd with
    | none => s.answerNow cmd r 2 []
    | some i =>
      if !i.permits k then s.answerNow cmd r 3 []
      else if s.pilotRefuses cmd i then s.answerNow cmd r 0x0D []
      else if badPayload cmd i r.payload then s.malformedAnswer k raw
      else if badOp cmd r.payload then s.answerNow cmd r 6 []
      else
        let s := s.modBox (boxOf k) (fun m => { m with outstanding := m.outstanding ++ [(k, r.tag.toNat)] })
        { s with lantern := { s.lantern with waiting := s.lantern.waiting ++ [⟨cmd, r⟩] } }

/-- Is the message a well-formed DEV_HALT? -/
def isHalt (raw : List Byte) : Bool := !badHeader raw && decide (fieldAt raw 2 2 = 0x0103) && decide (raw.length = 16)

/-- A message is received (R336, R341): a throttled mailbox takes at most one request per 10 ms and DEV_HALT always; at 32 outstanding
requests the answer is YST_BUSY. -/
def State.receive (s : State) (k : Source) (raw : List Byte) : State :=
  let b := boxOf k
  let m := s.box b
  if m.throttled ∧ !isHalt raw ∧ s.timeNs < m.throttleNext then
    (s.countMalformed b).modBox b (fun m => { m with dropped := BitVec.ofNat 32 (satAdd 32 m.dropped.toNat 1) })
  else
    let s := if m.throttled && !isHalt raw then s.modBox b (fun m => { m with throttleNext := s.timeNs + 10000000 }) else s
    if 32 ≤ m.outstanding.length ∧ !(m.throttled && isHalt raw) then s.reject k raw (fieldAt raw 4 2) 4 [] else s.accept k raw

/-- The message in request buffer i of a register mailbox: the length field alone sets the payload length (R335). -/
def Mailbox.message (m : Mailbox) (i : Nat) : List Byte :=
  let raw := bytesAt (Map.get [] m.reqBufs i) 0 4112
  raw.take (16 + min (fieldAt raw 8 2) 4096)

/-- MBX_REQ_DB (R332): the named buffer is copied and is free again; during a handover it waits in the buffer (R402). A doorbell for a
buffer that is not free is counted as malformed. -/
def execMbxReqDb (eh : Bool) (v : Word) (s : State) : Out :=
  let b := if eh then 1 else 0
  let k : Source := if eh then .eh else .os
  let i := v.toNat % 4
  let m := s.box b
  if s.power.state = .off then .next s
  else if !m.free.getLsbD i then .next (s.countMalformed b)
  else if s.lantern.handover then
    .next (s.modBox b (fun m => { m with free := m.free &&& ~~~ (BitVec.ofNat 4 (2 ^ i)), held := m.held ++ [(k, m.message i)] }))
  else .next (s.receive k (m.message i))

/-- MG_REQUEST (R330): a message on I3C, or on a DTLS association, which is open from its first message on (DEDUCED). -/
def execMgRequest (src : Source) (raw : List Byte) (s : State) : Out :=
  if s.power.state = .off ∨ boxOf src ≠ 2 ∨ (src = .i3c ∧ s.pins.i3cAddr = none) then .next s
  else
    let s := match src with
      | .dtls k => { s with lantern := { s.lantern with dtlsOpen := s.lantern.dtlsOpen ||| BitVec.ofNat 4 (2 ^ k.val) } }
      | _ => s
    if s.lantern.handover then .next (s.modBox 2 (fun m => { m with held := m.held ++ [(src, raw)] }))
    else .next (s.receive src raw)

/-- What waited during a handover is received, mailbox by mailbox in order of arrival (R402; the order between mailboxes is a DESIGN
CHOICE). -/
def State.takeHeld (s : State) : State :=
  (List.range 3).foldl (fun s b =>
    let l := (s.box b).held
    l.foldl (fun s e => s.receive e.1 e.2) (s.modBox b (fun m => { m with held := [], free := 0xF }))) s

/-- DTLS_ASSOCIATION_CLOSE (R331): its commands run to their end, their responses are discarded; its challenges go. -/
def execDtlsAssociationClose (k : Fin 4) (s : State) : Out :=
  let s := s.modBox 2 (fun m => { m with outstanding := m.outstanding.filter (fun o => decide (o.1 ≠ .dtls k)) })
  .next { s with
    lantern := { s.lantern with dtlsOpen := s.lantern.dtlsOpen &&& ~~~ (BitVec.ofNat 4 (2 ^ k.val)) },
    sec := { s.sec with challenges := s.sec.challenges.filter (fun c => decide (c.src ≠ .dtls k)) } }

/-- MBX_RSP_ACK (R333): the response counts as delivered; the next one takes the buffer. -/
def execMbxRspAck (eh : Bool) (s : State) : Out :=
  let b := if eh then 1 else 0
  match (s.box b).rsp with
  | none => .next s
  | some x =>
    let s := s.modBox b (fun m => { m with
      rsp := m.rspQueue.head?, rspQueue := m.rspQueue.drop 1,
      outstanding := if x.counts then m.outstanding.filter (fun o => decide (o ≠ (x.src, fieldAt x.msg 4 2))) else m.outstanding })
    .next (if (s.box b).rsp.isSome then s.rspNotify b else s)

/-- MBX_EVT_TAIL (R334). -/
def execMbxEvtTail (eh : Bool) (w : Word) (s : State) : Out :=
  let b := if eh then 1 else 0
  let m := s.box b
  if (m.evtHead - w).toNat ≤ (m.evtHead - m.evtTail).toNat then .next (s.modBox b (fun m => { m with evtTail := w }))
  else .next (s.countMalformed b)

/-- MAILBOX_THROTTLE_END (R341): after a whole second with fewer than 10 malformed messages. -/
def execMailboxThrottleEnd (m : Fin 3) (s : State) : Out :=
  let b := s.box m
  let recent := b.malTimes.filter s.inSecond
  if !b.throttled ∨ 10 ≤ recent.length then .next s
  else
    .next ((s.modBox m (fun b => { b with throttled := false, dropped := 0 })).hdEvent 0x9002
      (leBytes 1 m.val ++ leBytes 4 b.dropped.toNat))

/-! ## Turns (R342) -/

/-- Is no control command in progress? JOB_SUSPEND, the Beacon of JOB_ARM, JOB_RESUME or PWR_FREQ, an activation, a halt. -/
def State.controlIdle (s : State) : Bool :=
  (match s.lantern.job with | some j => j.suspending.isNone && j.aborting.isNone | none => true) && s.fabric.beacon.request.isNone &&
    s.svc.activating.isNone && !s.lantern.haltBusy

/-- Is it a waiting command's turn? Q commands at once; control commands one at a time in order of receipt; DEV_HALT before them. -/
def State.turn (s : State) (cmd : Nat) (r : Request) : Bool :=
  let query (c : Nat) : Bool := match commandInfo c with | some i => i.query | none => false
  let first := s.lantern.waiting.find? (fun w => !query w.command && decide (w.command ≠ 0x0103))
  !s.lantern.handover && s.lantern.waiting.contains ⟨cmd, r⟩ &&
    (query cmd || decide (cmd = 0x0103) || (s.controlIdle && decide (first = some ⟨cmd, r⟩)))

/-- A command takes its turn: it leaves the queue; in M-PILOT it may be refused by now (R338). f is its effect, which answers the
request. -/
def State.serve (s : State) (cmd : Nat) (r : Request) (f : State → State) : State :=
  if !s.turn cmd r then s
  else
    let s := { s with lantern := { s.lantern with waiting := s.lantern.waiting.erase ⟨cmd, r⟩ } }
    let refused := match commandInfo cmd with | some i => s.pilotRefuses cmd i | none => true
    if refused then s.respond cmd r 0x0D [] else f s

/-- A command whose effect is a status, a payload and a state. -/
def State.serveNow (s : State) (cmd : Nat) (r : Request) (f : State → State × Nat × List Byte) : State :=
  s.serve cmd r (fun s => let q := f s; q.1.respond cmd r q.2.1 q.2.2)

end Sys2Proof.Machine

namespace Sys2Proof

/-- A field of a request's payload. -/
def Request.field (r : Request) (o k : Nat) : Nat := fieldAt r.payload o k

end Sys2Proof

namespace Sys2Proof.Machine

/-- The job that a JOB command names, for a mailbox that controls it (R343, Table 15-7): the job, or a status. -/
def State.jobOf (s : State) (r : Request) (anyone : Bool) : Except Nat Job :=
  match s.lantern.job with
  | none => .error 8
  | some j =>
    if j.handle ≠ r.handle.toNat then .error 8
    else if !anyone && decide (j.owner ≠ boxOf r.src) then .error 7
    else .ok j

end Sys2Proof.Machine
end

