-- ==== Sys2Proof/Machine/JobLoad.lean ====
section
/-! DEFINITION. Schedule images (R154, R155) and the load checks of Table 06-15 (R156). -/
namespace Sys2Proof.Machine

/-! ## The image -/

/-- What the image header says of one die (Table 06-14): offset and length of the stream, offset and count of the tensor table. -/
structure ImageDie where
  soff : Nat
  slen : Nat
  toff : Nat
  count : Nat
  deriving DecidableEq, Repr

/-- Header entry of TDd. -/
def imageDie (img : List Byte) (d : Nat) : ImageDie :=
  let o := 0x40 + 32 * d
  ⟨fieldAt img o 8, fieldAt img (o + 8) 8, fieldAt img (o + 16) 8, fieldAt img (o + 24) 4⟩

/-- Stream of a die. -/
def ImageDie.stream (x : ImageDie) (img : List Byte) : List Byte := bytesAt img x.soff x.slen

/-- Tensor-table entries with their offsets in the image. -/
def ImageDie.table (x : ImageDie) (img : List Byte) : List (Nat × List Byte) :=
  (List.range x.count).map (fun i => (x.toff + 128 * i, bytesAt img (x.toff + 128 * i) 128))

/-- Descriptors of a stream in order with their byte offsets, with fuel. -/
def streamWalk (l : List Byte) : Nat → Nat → List (Nat × List Byte)
  | 0, _ => []
  | n + 1, p => if l.length ≤ p then [] else (p, streamDesc l p) :: streamWalk l n (p + dSize (streamDesc l p))

/-- Descriptors of a die's stream. -/
def ImageDie.descs (x : ImageDie) (img : List Byte) : List (Nat × List Byte) := streamWalk (x.stream img) (x.slen / 64 + 1) 0

/-- The image digest (R155). -/
def imageDigest (img : List Byte) : List Byte := sha384 (bytesAt img 0 256)

/-- Where a check failed: die, descriptor status, byte offset in the image. -/
structure LoadFault where
  die : Nat := 0
  status : Nat := 0
  off : Nat
  deriving DecidableEq, Repr

/-- The first fault of a list of checks. -/
def firstFault : List (Option LoadFault) → Option LoadFault
  | [] => none
  | some f :: _ => some f
  | none :: r => firstFault r

/-- A fault when a condition holds. -/
def faultIf (c : Bool) (f : LoadFault) : Option LoadFault := if c then some f else none

/-- A check of each die in order. -/
def eachDie (f : Nat → Option LoadFault) : Option LoadFault := firstFault ((List.range 4).map f)

/-! ## Checks 0x01 to 0x06 -/

/-- 0x01. -/
def loadFormat (img : List Byte) : Option LoadFault :=
  let n := img.length
  firstFault
    ([faultIf (decide (fieldAt img 0 4 ≠ 0x4A385349)) { off := 0 }, faultIf (decide (fieldAt img 4 2 ≠ 1)) { off := 4 },
      faultIf (decide (fieldAt img 8 8 ≠ n) || decide (n < 0x200)) { off := 8 }] ++
     (List.range 4).map (fun d =>
      let x := imageDie img d
      let o := 0x40 + 32 * d
      firstFault
        [faultIf (decide (x.soff % 64 ≠ 0)) { die := d, off := o },
         faultIf (decide (x.slen % 64 ≠ 0) || decide (n < x.soff + x.slen)) { die := d, off := o + 8 },
         faultIf (decide (x.toff % 64 ≠ 0)) { die := d, off := o + 16 },
         faultIf (decide (n < x.toff + 128 * x.count)) { die := d, off := o + 24 }]) ++
     [faultIf (decide (n < fieldAt img 0xC0 8 + fieldAt img 0xC8 4)) { off := 0xC0 }])

/-- 0x02. -/
def loadBody (img : List Byte) : Option LoadFault := faultIf (decide (sha384 (img.drop 0x200) ≠ bytesAt img 0xD0 48)) { off := 0xD0 }

/-- Certificates that may sign a schedule image in the present lifecycle state (R155, R380). -/
def State.imageCerts (s : State) : List (List Byte) :=
  match s.sec.lifecycle.toNat with
  | 2 => (s.sec.store.filter (fun c => decide (c.1 = .image))).map (·.2)
  | 3 => []
  | _ => [Config.testSigner]

/-- 0x03. -/
def State.loadSigner (s : State) (img : List Byte) : Option LoadFault :=
  let ok := s.imageCerts.any (fun c => decide (sha384 c = bytesAt img 0x100 48) && Config.ecdsaVerify c (imageDigest img) (bytesAt img 0x130 96))
  faultIf (!ok) { off := 0x100 }

/-- Logical tiles that an image requires of TDd. -/
def reqTiles (img : List Byte) (d : Nat) : Nat := fieldAt img (0x14 + d) 1

/-- Is a tile degraded (R106)? -/
def UnitEntry.isDegraded (u : UnitEntry) : Bool := u.present && (decide (u.mxeQ ≠ 15) || decide (u.vxeH ≠ 3) || u.gxeHalf)

/-- Is a required tile of TDd degraded (R107)? -/
def State.degradedReq (s : State) (d req : Nat) : Bool :=
  (List.range req).any (fun t => (Map.get {} (s.die d).units t).isDegraded)

/-- 0x04 to 0x06. -/
def State.loadModule (s : State) (img : List Byte) : Nat × Option LoadFault :=
  let few := eachDie (fun d => faultIf (decide ((s.die d).count.toNat < reqTiles img d)) { die := d, off := 0x14 + d })
  if fieldAt img 6 2 ≠ s.fabric.commonAdr.toNat then (4, some { off := 6 })
  else if few.isSome then (5, few)
  else (6, eachDie (fun d => faultIf (!bit (fieldAt img 0x10 4) 0 && s.degradedReq d (reqTiles img d)) { die := d, off := 0x10 }))

/-! ## The walk of checks 0x07, 0x0A, 0x0B: each descriptor with the tensor table as it stands there -/

/-- A descriptor and the repetition indices at which it is looked at: lo, lo + 1, …, n of them. -/
structure Visit where
  pos : Nat
  raw : List Byte
  lo : Nat
  n : Nat
  deriving DecidableEq, Repr

/-- Cut a stream at each FRAME and END. -/
def splitFrames : List (Nat × List Byte) → List (List (Nat × List Byte))
  | [] => [[]]
  | x :: r =>
    match splitFrames r with
    | [] => [[x]]
    | g :: gs => if dKind x.2 = 1 ∨ dKind x.2 = 0x0B then [] :: (x :: g) :: gs else (x :: g) :: gs

/-- Visits of one frame: repetition 0, then the others, in which a TENSOR of the first stands (R142). -/
def frameVisits (g : List (Nat × List Byte)) : List Visit :=
  let rep := match g with | x :: _ => if dKind x.2 = 1 then fb x.2 0xC 4 else 1 | [] => 1
  g.map (fun x => ⟨x.1, x.2, 0, 1⟩) ++ (if 1 < rep then g.map (fun x => ⟨x.1, x.2, 1, rep - 1⟩) else [])

/-- Visits of a stream. -/
def streamVisits (l : List (Nat × List Byte)) : List Visit := ((splitFrames l).map frameVisits).flatten

/-- The largest repeat count of a stream. -/
def maxRepeat (l : List (Nat × List Byte)) : Nat := l.foldl (fun a x => if dKind x.2 = 1 then max a (fb x.2 0xC 4) else a) 1

/-- A tensor table with one more entry. -/
def putTensor (m : Map (Option Tensor)) (raw : List Byte) : Map (Option Tensor) := Map.put none m (fb raw 8 2) (some (tensorOf raw))

/-- The first visit to which f gives a status other than 0. -/
def foldVisits (f : Map (Option Tensor) → Visit → Nat) : Map (Option Tensor) → List Visit → Option (Nat × Nat)
  | _, [] => none
  | m, v :: r =>
    let st := f m v
    if st ≠ 0 then some (st, v.pos) else foldVisits f (if dKind v.raw = 2 then putTensor m v.raw else m) r

/-- The tensor indices that a descriptor's kind and operation require (R142). -/
def named (raw : List Byte) : List Nat :=
  match dKind raw with
  | 3 => (if fb raw 0x10 2 = 0xFFFF then [] else [fb raw 0x10 2]) ++ [fb raw 0x12 2]
  | 4 =>
    let op := fb raw 0x10 1
    [fb raw 0x18 2] ++ (if vloopNeedsB (bit (fb raw 0x11 1) 6) then [fb raw 0x1A 2] else []) ++
      (if vloopNeedsC op then [fb raw 0x1C 2] else []) ++ [fb raw 0x1E 2]
  | 5 => [fb raw 0x10 2, fb raw 0x12 2]
  | 6 =>
    let x := collFields raw
    (if x.hasSrc then [x.src] else []) ++ (if x.hasDst then [x.dst] else [])
  | _ => []

/-- The issuer as which an image is checked. -/
def loadIssuer (m : Map (Option Tensor)) (rep : Nat) : Issuer := { queue := false, own := .job, rep := rep, jobRuns := false, tensors := m }

/-- Does the position of a named tensor change with the repetition index? -/
def moving (m : Map (Option Tensor)) (raw : List Byte) : Bool :=
  (named raw).any (fun k => match (loadIssuer m 0).tensor k with | some t => decide (t.iterStep ≠ 0) || decide (t.mxIterStep ≠ 0) | none => false)

/-- The first status other than 0 over n repetition indices from lo on. -/
def overReps (f : Nat → Nat) : Nat → Nat → Nat
  | 0, _ => 0
  | n + 1, lo => if f lo ≠ 0 then f lo else overReps f n (lo + 1)

/-- Is a target status due to a missing tensor alone, which check 0x0A refuses? -/
def State.leftToRefs (s : State) (d : Nat) (m : Map (Option Tensor)) (raw : List Byte) (st : Nat) : Bool :=
  let x := collFields raw
  let counts := decide (x.n = 0) || decide (x.n ≤ x.rank) || decide (x.n ≤ x.root)
  decide (st = 0x10) && decide (headerStatus false raw = 0) &&
    (if dKind raw = 6 then !counts else decide (targetStatus s d raw = 0)) &&
    (named raw).any (fun k => ((loadIssuer m 0).tensor k).isNone)

/-- Decode status of a visit: a TENSOR at the first and the last repetition index of the stream, which bound the others (R141). -/
def State.visitStatus (s : State) (d reps : Nat) (m : Map (Option Tensor)) (v : Visit) : Nat :=
  let st (rep : Nat) : Nat := decodeStatus s d (loadIssuer m rep) (fun _ => 0) v.raw
  let r :=
    if dKind v.raw = 2 then firstStatus [st 0, st (reps - 1)]
    else if moving m v.raw then overReps st v.n v.lo
    else st v.lo
  if s.leftToRefs d m v.raw r then 0 else r

/-- 0x07 of one die: its tensor table, then its stream. -/
def State.loadDecode (s : State) (img : List Byte) (d : Nat) : Option LoadFault :=
  let x := imageDie img d
  let l := x.descs img
  let reps := maxRepeat l
  let entry (e : Nat × List Byte) : Nat :=
    if dKind e.2 ≠ 2 then 1
    else firstStatus [decodeStatus s d (loadIssuer [] 0) (fun _ => 0) e.2, decodeStatus s d (loadIssuer [] (reps - 1)) (fun _ => 0) e.2]
  match (x.table img).find? (fun e => decide (entry e ≠ 0)) with
  | some e => some { die := d, status := entry e, off := e.1 }
  | none =>
    let m := (x.table img).foldl (fun m e => putTensor m e.2) []
    (foldVisits (s.visitStatus d reps) m (streamVisits l)).map (fun r => { die := d, status := r.1, off := x.soff + r.2 })

/-! ## Checks 0x08 and 0x09 -/

/-- First descriptor that breaks the order of R149: f is the length of the open frame, last the latest offset. -/
def orderFault : Option Nat → Nat → List (Nat × List Byte) → Option Nat
  | _, _, [] => none
  | f, last, (p, raw) :: r =>
    if dKind raw = 0x0B then (match r with | [] => none | y :: _ => some y.1)
    else if r.isEmpty then some p
    else if dKind raw = 1 then (if dOffset raw ≠ 0 then some p else orderFault (some (fb raw 8 4)) 0 r)
    else
      match f with
      | none => some p
      | some n => if dOffset raw < last ∨ n ≤ dOffset raw then some p else orderFault f (dOffset raw) r

/-- First descriptor that is the seventeenth at its offset. -/
def crowdFault : Nat → Nat → List (Nat × List Byte) → Option Nat
  | _, _, [] => none
  | off, n, (p, raw) :: r =>
    if dKind raw = 1 ∨ dKind raw = 0x0B then crowdFault 0 0 r
    else
      let k := if dOffset raw = off then n + 1 else 1
      if 16 < k then some p else crowdFault (dOffset raw) k r

/-- 0x08 of one die. A stream without descriptors fails at its header entry. -/
def loadOrder (img : List Byte) (d : Nat) : Option LoadFault :=
  let x := imageDie img d
  if x.slen = 0 then some { die := d, off := 0x48 + 32 * d }
  else (orderFault none 0 (x.descs img)).map (fun p => { die := d, off := x.soff + p })

/-- 0x09 of one die. -/
def loadCrowd (img : List Byte) (d : Nat) : Option LoadFault :=
  let x := imageDie img d
  (crowdFault 0 0 (x.descs img)).map (fun p => { die := d, off := x.soff + p })

/-! ## Checks 0x0A to 0x0D -/

/-- First table entry whose index is not new or not below 3,840. -/
def tableFault : List Nat → List (Nat × List Byte) → Option Nat
  | _, [] => none
  | seen, (p, raw) :: r =>
    let k := fb raw 8 2
    if 3840 ≤ k ∨ seen.contains k then some p else tableFault (k :: seen) r

/-- 0x0A of one die. -/
def loadRefs (img : List Byte) (d : Nat) : Option LoadFault :=
  let x := imageDie img d
  match tableFault [] (x.table img) with
  | some p => some { die := d, off := p }
  | none =>
    let m := (x.table img).foldl (fun m e => putTensor m e.2) []
    let bad (m : Map (Option Tensor)) (v : Visit) : Nat :=
      rej ((dKind v.raw == 2 && decide (3840 ≤ fb v.raw 8 2)) ||
        (named v.raw).any (fun k => decide (3840 ≤ k) || ((loadIssuer m 0).tensor k).isNone)) 1
    (foldVisits bad m (streamVisits (x.descs img))).map (fun r => { die := d, off := x.soff + r.2 })

/-- Is every address from a up to e served (R23), with fuel for the ranges it crosses? -/
def State.servedGo (s : State) (e : Nat) : Nat → Nat → Bool
  | 0, _ => false
  | n + 1, a =>
    if e ≤ a then true
    else
      match s.place a with
      | .mem c => State.servedGo s e n (ctrlBase c + s.served c)
      | .ts _ _ off => State.servedGo s e n (a - off + 2 ^ 21)
      | _ => false

/-- Does a byte range lie inside served extents? -/
def State.servedRange (s : State) (r : Int × Int) : Bool := decide (0 ≤ r.1) && s.servedGo r.2.toNat 1024 r.1.toNat

/-- Byte ranges of a memory tensor of this module. -/
def Tensor.memRanges (t : Tensor) (rep : Nat) (step mxStep : Int) : List (Int × Int) :=
  if t.space ≠ .memory ∨ t.remote then []
  else t.ranges rep step mxStep ++ (if t.ceilPresent && !t.ceilEmit then [((t.ceil : Int), (t.ceil : Int) + 2 * t.ceilCount)] else [])

/-- Is a tensor outside the served extents at some of n repetition indices from lo on? -/
def State.unserved (s : State) (t : Tensor) (step mxStep : Int) (lo n : Nat) : Bool :=
  let at_ (rep : Nat) : Nat := rej ((t.memRanges rep step mxStep).any (fun r => !s.servedRange r)) 1
  decide ((if t.iterStep = 0 ∧ t.mxIterStep = 0 then at_ lo else overReps at_ n lo) ≠ 0)

/-- Does a MATMUL ceiling field name memory outside the served extents? -/
def State.ceilUnserved (s : State) (c cnt : Nat) : Bool :=
  decide (slice c 49 48 = 1) && !s.servedRange ((slice c 47 0 : Nat), (slice c 47 0 : Nat) + 2 * (cnt : Int))

/-- A memory range of a descriptor outside the served extents: a TENSOR, the ceilings of a MATMUL, the steps of a MOVE from tile to
tile. -/
def State.rangeBad (s : State) (reps : Nat) (m : Map (Option Tensor)) (v : Visit) : Nat :=
  let raw := v.raw
  match dKind raw with
  | 2 => rej (s.unserved (tensorOf raw) 0 0 0 reps) 1
  | 3 =>
    let x := mmFields raw
    rej (s.ceilUnserved x.ceilA x.m || s.ceilUnserved x.ceilB x.n) 1
  | 5 =>
    let side (k : Nat) (step mxStep : Int) : Bool :=
      match (loadIssuer m 0).tensor k with
      | some t => (List.range (dCount raw)).any (fun i => s.unserved t (step * i) (mxStep * i) v.lo v.n)
      | none => false
    let gather := bit (fb raw 0x15 1) 2
    rej ((!gather && side (fb raw 0x10 2) (signed 48 (fb raw 0x18 8)) (fs raw 0x34 6)) ||
      side (fb raw 0x12 2) (signed 48 (fb raw 0x20 8)) (fs raw 0x3A 6)) 1
  | _ => 0

/-- 0x0B of one die. -/
def State.loadRanges (s : State) (img : List Byte) (d : Nat) : Option LoadFault :=
  let x := imageDie img d
  let l := x.descs img
  let reps := maxRepeat l
  match (x.table img).find? (fun e => s.unserved (tensorOf e.2) 0 0 0 reps) with
  | some e => some { die := d, off := e.1 }
  | none =>
    let m := (x.table img).foldl (fun m e => putTensor m e.2) []
    (foldVisits (s.rangeBad reps) m (streamVisits l)).map (fun r => { die := d, off := x.soff + r.2 })

/-- 0x0C of one die. -/
def State.loadKeys (s : State) (img : List Byte) (d : Nat) : Option LoadFault :=
  let x := imageDie img d
  ((x.descs img).find? (fun e => decide (dKind e.2 = 0x0A) && !s.holds .job (fb e.2 0x1C 1 % 64))).map
    (fun e => { die := d, off := x.soff + e.1 })

/-- 0x0D. -/
def loadRanks (img : List Byte) : Option LoadFault :=
  let n := fieldAt img 0x1C 4
  firstFault
    [faultIf (decide (n ≤ fieldAt img 0x18 4)) { off := 0x18 }, faultIf (decide (fieldAt img 0xC8 4 ≠ 4 * n)) { off := 0xC8 }]

/-- The first check of Table 06-15 that an image fails: its code and where. -/
def State.loadCheck (s : State) (img : List Byte) : Option (Nat × LoadFault) :=
  let tag (code : Nat) (f : Option LoadFault) : Option (Nat × LoadFault) := f.map (fun x => (code, x))
  match tag 1 (loadFormat img) with
  | some r => some r
  | none => match tag 2 (loadBody img) with
  | some r => some r
  | none => match tag 3 (s.loadSigner img) with
  | some r => some r
  | none => match tag (s.loadModule img).1 (s.loadModule img).2 with
  | some r => some r
  | none => match tag 7 (eachDie (s.loadDecode img)) with
  | some r => some r
  | none => match tag 8 (eachDie (loadOrder img)) with
  | some r => some r
  | none => match tag 9 (eachDie (loadCrowd img)) with
  | some r => some r
  | none => match tag 0xA (eachDie (loadRefs img)) with
  | some r => some r
  | none => match tag 0xB (eachDie (s.loadRanges img)) with
  | some r => some r
  | none => match tag 0xC (eachDie (s.loadKeys img)) with
  | some r => some r
  | none => tag 0xD (loadRanks img)

/-! ## Loading -/

/-- A die takes its part of an image (R142): entries 0 to 3,839 invalid, then the image's table; the stream. -/
def Die.takeImage (img : List Byte) (d : Nat) (x : Die) : Die :=
  let i := imageDie img d
  { x with
    tensors := (i.table img).foldl (fun m e => putTensor m e.2) (x.tensors.filter (fun e => decide (3840 ≤ e.1))),
    stream := i.stream img, next := 0, running := false, ended := false, due := [], stretch := none, quiesced := false,
    frameL := 0, frameRepeat := 0, frameRep := 0, frameStart := 0, framePos := 0, frames := 0, sc := 0, slip := 0, behind := false }

/-- What the job takes from its image (R346, Table 06-14). -/
def Job.takeImage (img : List Byte) (j : Job) : Job :=
  { j with
    state := 1, digest := imageDigest img, tilesReq := (List.range 4).map (reqTiles img), degradedOk := bit (fieldAt img 0x10 4) 0,
    rank := fieldAt img 0x18 4, nranks := fieldAt img 0x1C 4,
    comm := (List.range (fieldAt img 0x1C 4)).map (fun k => fieldAt img (fieldAt img 0xC0 8 + 4 * k) 4 % 65536), image := img }

/-- An image that passed every check is loaded. -/
def State.takeImage (s : State) (img : List Byte) : State :=
  (((List.range 4).foldl (fun s d => s.modDie d (Die.takeImage img d)) s).modJob (Job.takeImage img)).jobEvent

end Sys2Proof.Machine
end

