-- ==== Sys2Proof/Machine/RegMap.lean ====
section
/-! DEFINITION. The device registers (R28 and the field tables of every chapter): which register stands at an address, and what it
reads as. A register is accessed whole, from its first byte (DESIGN CHOICE: the spec gives no partial accesses). -/
namespace Sys2Proof.Machine

/-- A register, or a byte range that is read and written as such. box: a mailbox register (0 OS, 1 EH) at an offset; mc: one of a
controller's; ce, wq, port, bundle likewise with the offset inside the unit's block. -/
inductive Reg where
  | tdPosition (d : Nat)
  | tdTileCount (d : Nat)
  | tdUnitMap (d t : Nat)
  | gxe (d t off : Nat)
  | wq (d q off : Nat)
  | dc (d off : Nat)
  | bundle (e off : Nat)
  | port (p off : Nat)
  | route (d n : Nat)
  | ce (d e off : Nat)
  | tileCfg (d : Nat)
  | mc (c off : Nat)
  | repair (c off : Nat)
  | common
  | fabNode
  | timeNow
  | intSteer (v : Nat)
  | pe1Dma (i : Nat)
  | pe1Win
  | hbCfg
  | hbBeat
  | box (b off : Nat)
  | pwrIn
  | pwrStatus
  | rail (r : Nat)
  | modCfg
  | pwrCpu
  | therm
  | secState
  | secKid (k : Nat)
  | fwStatus
  | imsicM (h off : Nat)
  | imsicS (h off : Nat)
  | aplic (off : Nat)
  | pe1Space (off : Nat)
  deriving DecidableEq, Repr

/-- The power domain that a register's block stands in (Tables 01-8 and 01-11): the tile dies' blocks and the stack controllers are reached over
the die networks. -/
def Reg.domain (r : Reg) : Domain :=
  match r with
  | .tdPosition _ => .noc
  | .tdTileCount _ => .noc
  | .tdUnitMap _ _ => .noc
  | .gxe _ _ _ => .noc
  | .wq _ _ _ => .noc
  | .dc _ _ => .noc
  | .bundle e _ => if e < 12 then .noc else .unc
  | .port _ _ => .noc
  | .route _ _ => .noc
  | .ce _ _ _ => .noc
  | .tileCfg _ => .noc
  | .mc c _ => if c < 12 then .noc else .unc
  | .repair c _ => if c < 12 then .noc else .unc
  | .common => .unc
  | .fabNode => .unc
  | .timeNow => .unc
  | .intSteer _ => .unc
  | .pe1Dma _ => .pe1
  | .pe1Win => .pe1
  | .hbCfg => .unc
  | .hbBeat => .unc
  | .box _ _ => .lnt
  | .pwrIn => .aon
  | .pwrStatus => .aon
  | .rail _ => .aon
  | .modCfg => .aon
  | .pwrCpu => .cpu
  | .therm => .aon
  | .secState => .lnt
  | .secKid _ => .lnt
  | .fwStatus => .lnt
  | .imsicM _ _ => .unc
  | .imsicS _ _ => .unc
  | .aplic _ => .unc
  | .pe1Space _ => .pe1

/-- The n-th of a row of registers of a stride, from a base. -/
def regIndex (o base stride n : Nat) : Option Nat :=
  if base ≤ o ∧ (o - base) % stride = 0 ∧ (o - base) / stride < n then some ((o - base) / stride) else none

/-- Register of a bundle end at an offset of its page. -/
def bundleReg (e o : Nat) : Option Reg :=
  if o = 0 ∨ o = 8 ∨ (regIndex o 0x100 0x10 (endModules e)).isSome ∨ (regIndex o 0x108 0x10 (endModules e)).isSome then some (.bundle e o) else none

/-- Registers of TDd by offset in its block. -/
def dieReg (d o : Nat) : Option Reg :=
  if o = 0x40 then some (.tdPosition d)
  else if o = 0x100 then some (.tdTileCount d)
  else if o < 0x1200 then (regIndex o 0x1000 4 128).map (.tdUnitMap d)
  else if 0x100000 ≤ o ∧ o < 0x180000 then
    let t := (o - 0x100000) / 0x1000
    let r := o % 0x1000
    if r = 0 ∨ r = 0x10 ∨ r = 0x18 ∨ r = 0x20 ∨ (regIndex r 0x100 0x10 24).isSome then some (.gxe d t r) else none
  else if 0x200000 ≤ o ∧ o < 0x201000 then
    (if o % 8 = 0 ∧ o % 0x100 ≤ 0x48 then some (.wq d ((o - 0x200000) / 0x100) (o % 0x100)) else none)
  else if 0x300000 ≤ o ∧ o < 0x300200 then
    let r := o - 0x300000
    if r = 0 ∨ r = 8 ∨ r = 0x10 ∨ r = 0x180 ∨ (regIndex r 0x100 0x10 4).isSome ∨ (regIndex r 0x108 0x10 4).isSome then some (.dc d r) else none
  else if 0x400000 ≤ o ∧ o < 0x403000 then bundleReg (3 * d + (o - 0x400000) / 0x1000) (o % 0x1000)
  else if 0x500000 ≤ o ∧ o < 0x506000 then
    (if o % 0x1000 = 0 ∨ o % 0x1000 = 8 ∨ o % 0x1000 = 0x10 then some (.port (6 * d + (o - 0x500000) / 0x1000) (o % 0x1000)) else none)
  else if 0x580000 ≤ o ∧ o < 0x5A0000 then (regIndex o 0x580000 2 65536).map (.route d)
  else if 0x600000 ≤ o ∧ o < 0x600400 then
    (if o % 8 = 0 ∧ o % 0x100 ≤ 0x20 then some (.ce d ((o - 0x600000) / 0x100) (o % 0x100)) else none)
  else if o = 0x700000 then some (.tileCfg d)
  else none

/-- Registers of a controller. -/
def ctrlReg (c o : Nat) : Option Reg :=
  if o = 0x100 ∨ o = 0x108 ∨ o = 0x200 ∨ o = 0x300 ∨ o = 0x400 ∨ (regIndex o 0x1000 8 256).isSome then some (.mc c o)
  else if 0x80000 ≤ o ∧ o < 0x100000 then some (.repair c (o - 0x80000))
  else none

/-- Registers of a mailbox (Table 15-2): the registers, the request buffers, the response buffer and the event ring by 8-byte words. -/
def boxReg (b o : Nat) : Option Reg :=
  if o < 0x1000 then (if o % 8 = 0 ∧ o ≤ 0x48 then some (.box b o) else none)
  else if 0x2000 ≤ o ∧ o < 0xA000 then (if o % 8 = 0 ∧ o % 0x2000 < 0x1010 then some (.box b o) else none)
  else if (0xA000 ≤ o ∧ o < 0xB010) ∨ (0xC000 ≤ o ∧ o < 0xE000) then (if o % 8 = 0 then some (.box b o) else none)
  else none

/-- Registers of the HD's block. -/
def hdReg (o : Nat) : Option Reg :=
  if o = 0x3000 then some .hbCfg
  else if o = 0x3008 then some .hbBeat
  else if 0x10000 ≤ o ∧ o < 0x12000 then (regIndex o 0x10000 4 2048).map .intSteer
  else if 0x20000 ≤ o ∧ o < 0x20080 then (regIndex o 0x20000 8 16).map .pe1Dma
  else if o = 0x20100 then some .pe1Win
  else if 0x30000 ≤ o ∧ o < 0x40000 then boxReg 0 (o - 0x30000)
  else if o = 0x70000 then some .pwrIn
  else if o = 0x70008 then some .pwrStatus
  else if o = 0x70200 then some .modCfg
  else if o = 0x70208 then some .pwrCpu
  else if o = 0x70300 then some .therm
  else if 0x70100 ≤ o ∧ o < 0x70200 then (regIndex o 0x70100 8 23).map .rail
  else if o = 0x80000 then some .secState
  else if 0x80100 ≤ o ∧ o < 0x80200 then (regIndex o 0x80100 4 64).map .secKid
  else if o = 0x90000 then some .fwStatus
  else if 0x400000 ≤ o ∧ o < 0x404000 then bundleReg (12 + (o - 0x400000) / 0x1000) (o % 0x1000)
  else if o = 0x410000 then some .common
  else if o = 0x500000 then some .fabNode
  else if o = 0x500008 then some .timeNow
  else if 0x2000000 ≤ o ∧ o < 0x2000000 + 96 * 0x1000 then some (.imsicM ((o - 0x2000000) / 0x1000) (o % 0x1000))
  else if 0x3000000 ≤ o ∧ o < 0x3000000 + 96 * 0x1000 then some (.imsicS ((o - 0x3000000) / 0x1000) (o % 0x1000))
  else if (0x4000000 ≤ o ∧ o < 0x4004000) ∨ (0x4008000 ≤ o ∧ o < 0x400C000) then some (.aplic (o - 0x4000000))
  else if (0x6000000 ≤ o ∧ o < 0x8000000) ∨ (0x8000000 ≤ o ∧ o < 0x10000000) then some (.pe1Space (o - 0x6000000))
  else none

/-- The register at a physical address (Table 01-8). -/
def regAt (a : Nat) : Option Reg :=
  let o := a - 0x0F0000000000
  if a < 0x0F0000000000 then none
  else if o < 0x10000000 then hdReg o
  else if o < 0x50000000 then dieReg ((o - 0x10000000) / 0x10000000) (o % 0x10000000)
  else if o < 0x80000000 then none
  else if o < 0x8C000000 then ctrlReg ((o - 0x80000000) / 0x1000000) (o % 0x1000000)
  else if o < 0x90000000 then none
  else if o < 0x91000000 then ctrlReg (12 + (o - 0x90000000) / 0x100000) (o % 0x100000)
  else none

/-- Bytes of a register. -/
def Reg.bytes (r : Reg) : Nat :=
  match r with
  | .route _ _ => 2
  | .gxe _ _ o => if o = 0x18 ∨ 0x100 ≤ o then 8 else 4
  | .wq _ _ o => if o = 8 ∨ o = 0x10 then 8 else 4
  | .dc _ o => if o = 0 then 4 else 8
  | .bundle _ o => if o = 0 then 4 else 8
  | .port _ o => if o = 8 then 8 else 4
  | .ce _ _ o => if o = 0x20 then 4 else 8
  | .mc _ o => if o = 0x200 then 4 else 8
  | .repair _ _ => 8
  | .common => 8
  | .timeNow => 8
  | .pe1Dma _ => 8
  | .pe1Win => 8
  | .box _ o => if o < 0x1000 then 4 else 8
  | .pwrIn => 8
  | .pwrStatus => 8
  | .rail _ => 8
  | .therm => 8
  | .fwStatus => 8
  | _ => 4

/-! ## Values -/

/-- Groups of a tile in a state that p accepts. -/
def Tile.groupsIn (k : Tile) (p : SlotState → Bool) : Nat := (k.slots.filter (fun g => p g.2.st)).length

/-- Code of GXE_SLOT_s.state. -/
def SlotState.code (x : SlotState) : Nat := match x with | .free => 0 | .running => 1 | .waiting => 2 | .parked => 3

/-- The GXE's registers. -/
def gxeValue (k : Tile) (o : Nat) : Nat :=
  if o = 0 then
    let h := match k.kernel with | some x => x.handle | none => 0
    b2n k.kernel.isSome + 2 * k.groupsIn (fun x => decide (x ≠ .free)) + 2 ^ 6 * k.groupsIn (fun x => decide (x = .parked)) + 2 ^ 12 * (h % 2 ^ 20)
  else if o = 0x10 then 0
  else if o = 0x18 then slice k.ctxAddr.toNat 47 7 * 128
  else if o = 0x20 then k.ctrlResult.toNat + 16 * k.ctrlSlot.toNat
  else
    let g := Map.get {} k.slots ((o - 0x100) / 0x10)
    g.st.code + 4 * (if g.st = .parked then g.fault.toNat else 0) + 2 ^ 16 * (g.group % 65536) + 2 ^ 32 * g.pc.toNat

/-- WQ_STATUS.state: an enabled queue that is idle or running reads held while a job holds the queues (R163). -/
def State.wqShown (s : State) (w : Wq) : BitVec 3 := if w.state = 3 ∨ w.state = 4 then w.state else s.wqState w

/-- A work queue's registers. -/
def State.wqValue (s : State) (w : Wq) (o : Nat) : Nat :=
  match o with
  | 0x00 => b2n w.enable + 2 * b2n w.cqEnable + 4 * b2n w.irqEnable + 2 ^ 8 * w.log2size.toNat + 2 ^ 12 * w.key.toNat
  | 0x08 => w.base.toNat
  | 0x10 => w.cqBase.toNat
  | 0x20 => w.head.toNat
  | 0x28 => (s.wqShown w).toNat + 8 * b2n w.early + 16 * b2n w.badDb
  | 0x38 => w.errStatus.toNat + 2 ^ 16 * w.errSeq.toNat
  | 0x40 => w.earlyCnt.toNat
  | 0x48 => w.msix.toNat
  | _ => 0

/-- A die cache's registers. -/
def dcValue (x : DieCache) (o : Nat) : Nat :=
  match o with
  | 0x00 => b2n x.streamBypass + 2 * b2n x.pfDetect + 8 * b2n x.locked
  | 0x08 => x.waymask.toNat
  | 0x10 => x.satMask.toNat + 2 ^ 32 * b2n x.satEvent + 2 ^ 33 * x.satSlice.toNat
  | 0x180 => x.pfUsed.toNat + 2 ^ 32 * x.pfDropped.toNat
  | _ => if o % 16 = 0 then (Map.get 0 x.hits ((o - 0x100) / 16)).toNat else (Map.get 0 x.misses ((o - 0x108) / 16)).toNat

/-- Modules of an end in a state. -/
def LinkEnd_.countIn (l : LinkEnd_) (e : Nat) (st : ModState) : Nat :=
  ((List.range (endModules e)).filter (fun m => decide ((l.module m).st = st))).length

/-- D2D_BSTAT: degraded stands for any module below full width (DEDUCED). -/
def LinkEnd_.bstat (l : LinkEnd_) (e : Nat) : Nat :=
  let full := l.countIn e .full
  let state := if l.handover then 3 else if l.down e then 0 else if full = endModules e then 1 else 2
  full + 16 * l.countIn e .half + 2 ^ 8 * l.countIn e .retired + 2 ^ 12 * state

/-- A bundle end's registers. -/
def bundleValue (l : LinkEnd_) (e o : Nat) : Nat :=
  if o = 0 then l.bstat e
  else if o = 8 then l.cntReplayed.toNat + 2 ^ 32 * l.cntChecks.toNat + 2 ^ 48 * l.cntReroutes.toNat
  else
    let x := l.module ((o - 0x100) / 0x10)
    let bad := (x.badTx ||| x.badRx).toNat
    if o % 16 = 0 then
      x.st.code + 4 * min (goodLanes x.badTx) (goodLanes x.badRx) + 2 ^ 9 * (bad / 2 ^ 64) + 2 ^ 13 * b2n x.clockFail +
        2 ^ 24 * x.checks.toNat + 2 ^ 32 * x.replays.toNat
    else bad % 2 ^ 64

/-- A fabric port's registers. -/
def portValue (x : Port) (o : Nat) : Nat :=
  if o = 0 then x.pstat
  else if o = 8 then x.replays.toNat + 2 ^ 32 * x.retrains.toNat + 2 ^ 48 * x.violations.toNat
  else x.cfg.toNat

/-- A collective engine's registers; held: the job is suspended (R308). -/
def ceValue (c : Ce) (suspended : Bool) (o : Nat) : Nat :=
  match o with
  | 0x00 =>
    match c.steps with
    | [] => 0
    | st :: _ =>
      let x := collFields st.raw
      let state := if suspended then 3 else if c.waitRank.isSome then 2 else 1
      state + 4 * min c.steps.length 7 + 2 ^ 5 * b2n c.probing.isSome + 2 ^ 6 * (x.step % 65536) + 2 ^ 32 * x.collId
  | 0x08 => c.sat.toNat + 16 * b2n c.satEvent + 32 * c.satLevel.toNat
  | 0x10 => c.cntSteps.toNat + 2 ^ 32 * c.cntAborts.toNat + 2 ^ 48 * c.cntProbes.toNat
  | 0x18 => c.abortColl.toNat + 2 ^ 32 * c.abortStep.toNat + 2 ^ 48 * b2n c.abortCause
  | _ => c.abortRank.toNat

/-- A controller's registers. -/
def mcValue (m : MemCtrl) (o : Nat) : Nat :=
  if o = 0x100 then
    let n := (m.fence.filter (fun e => e.2.valid)).length
    n + 2 ^ 9 * b2n (decide (n = 256)) + 2 ^ 32 * m.chanFenced.toNat
  else if o = 0x108 then m.retired.toNat + 2 ^ 32 * m.pendingRetire.toNat
  else if o = 0x200 then m.rakeNext.toNat + 2 ^ 8 * b2n m.rakeEnable
  else if o = 0x300 then m.corrected + 2 ^ 32 * m.uncorrectable
  else if o = 0x400 then m.satMask.toNat + 2 ^ 32 * b2n m.satEvent + 2 ^ 33 * m.satChannel.toNat
  else
    let e := Map.get {} m.fence ((o - 0x1000) / 8)
    if e.valid then e.line % 2 ^ 41 + 2 ^ 41 + 2 ^ 42 * (e.source % 4) + 2 ^ 44 * (e.channel % 32) else 0

/-- A mailbox's registers, buffers and ring (Table 15-2). -/
def boxValue (m : Mailbox) (b o : Nat) : Nat :=
  if o < 0x1000 then
    match o with
    | 0x08 => m.free.toNat + 16 * min m.outstanding.length 63 + 2 ^ 10 * b2n m.throttled
    | 0x10 => b2n m.rsp.isSome + 2 * min m.rspQueue.length 63
    | 0x20 => m.evtHead.toNat
    | 0x28 => m.evtTail.toNat
    | 0x30 => m.evtLost.toNat
    | 0x38 => m.evtMask.toNat
    | 0x40 => if b = 0 then 0 else m.irq.toNat
    | 0x48 => m.malformed.toNat
    | _ => 0
  else if o < 0xA000 then fieldAt (Map.get [] m.reqBufs ((o - 0x2000) / 0x2000)) (o % 0x2000) 8
  else if o < 0xB010 then (match m.rsp with | some x => fieldAt x.msg (o - 0xA000) 8 | none => 0)
  else fieldAt (Map.get [] m.ring ((o - 0xC000) / 32)) ((o - 0xC000) % 32) 8

/-- D2D_COMMON. -/
def Fabric.commonWord (f : Fabric) : Nat := f.commonAdr.toNat + 2 ^ 16 * f.commonFeatures.toNat + 2 ^ 48 * f.newer.toNat

/-- TD_TILE_COUNT. -/
def Die.tileCount (x : Die) : Nat := x.count.toNat + 2 ^ 8 * x.sparesFree.toNat + 2 ^ 16 * x.degraded.toNat + 2 ^ 24 * x.mapGen.toNat

/-- TD_UNIT_MAP_t. -/
def UnitEntry.word (u : UnitEntry) : Nat :=
  u.phys.toNat + 2 ^ 8 * b2n u.present + 2 ^ 9 * u.mxeQ.toNat + 2 ^ 13 * u.vxeH.toNat + 2 ^ 15 * b2n u.gxeHalf + 2 ^ 16 * b2n u.fenced

/-- Restarts within the last 10 min. -/
def State.recentRestarts (s : State) : Nat := (s.host.restarts.filter (fun t => decide (s.timeNs < t + 600000000000))).length

/-- PWR_STATUS; an under-voltage stretch reads as an applied brake (DEDUCED). -/
def State.pwrStatus (s : State) : Nat :=
  let w := s.power
  let thr := dieMask (fun d => (s.diePower d).throttled) + 16 * b2n w.hdThrottled
  let ratio := (List.range 4).foldl (fun a d => max a (s.tileRatio d)) 0
  w.cap % 4096 + 2 ^ 16 * w.brakeSet + 2 ^ 18 * b2n (w.brake || w.underVolt) + 2 ^ 19 * w.heldCode +
    2 ^ 22 * b2n (decide (w.capRatio ≠ 0) || w.capForced) + 2 ^ 23 * b2n w.capShort + 2 ^ 24 * thr + 2 ^ 29 * ratio + 2 ^ 32 * (w.pb % 4096)

/-- SEC_STATE. -/
def Security.word (x : Security) : Nat :=
  x.lifecycle.toNat + 4 * x.level.toNat + 16 * b2n x.session + 32 * b2n x.debugActive + 64 * b2n x.storeOn + 2 ^ 16 * (x.storeSeq.toNat % 65536)

/-- FW_STATUS. -/
def Service.word (x : Service) : Nat :=
  x.fwState.toNat + 8 * b2n x.recovered + 16 * b2n x.flashMatch + 32 * (x.minSvn % 128) + 2 ^ 32 * fwVersion x.running

/-- HOST_HB_CFG. -/
def State.hbWord (s : State) : Nat :=
  b2n s.host.hbEnable + 4 * s.host.hbPeriod.toNat + 2 ^ 16 * s.host.missed.toNat + 2 ^ 20 * min s.recentRestarts 15

/-- What an APLIC domain reads as at an offset (R317: DM reads 1; PRESUMED: RISC-V AIA). -/
def aplicValue (h : Host_) (child : Bool) (o : Nat) : Nat :=
  let a := h.aplic child
  let half (v : DWord) (b : Nat) : Nat := if o = b then v.toNat % 2 ^ 32 else if o = b + 4 then v.toNat / 2 ^ 32 else 0
  if o = 0 then 0x80000004 + 256 * b2n a.ie
  else if o < 0x100 then (Map.get 0 a.source (o / 4)).toNat
  else if o = 0x1C00 ∨ o = 0x1C04 then half a.pending 0x1C00
  else if o = 0x1D00 ∨ o = 0x1D04 then half h.wired 0x1D00
  else if o = 0x1E00 ∨ o = 0x1E04 then half a.enabled 0x1E00
  else if 0x3004 ≤ o ∧ o < 0x3100 then (Map.get 0 a.target ((o - 0x3000) / 4)).toNat
  else 0

/-- What a register reads as; none for a unit whose layout the spec does not give (repair windows, the configuration and memory space of PE1): their
value is free. A page of an interrupt file reads as 0 (PRESUMED: RISC-V AIA). -/
def State.regValue (s : State) (r : Reg) : Option Nat :=
  match r with
  | .tdPosition d => some (s.die d).position
  | .tdTileCount d => some (s.die d).tileCount
  | .tdUnitMap d t => some (Map.get {} (s.die d).units t).word
  | .gxe d t o => some (gxeValue (s.tile d t) o)
  | .wq d q o => some (s.wqValue (s.wq d q) o)
  | .dc d o => some (dcValue (s.die d).dc o)
  | .bundle e o => some (bundleValue (s.link e) e o)
  | .port p o => some (portValue (s.port p) o)
  | .route d n => some (Map.get 0 (s.die d).routes n).toNat
  | .ce d e o => some (ceValue (s.ce d e) (decide (s.jobState = 4)) o)
  | .tileCfg d => some (s.die d).tileCfg.toNat
  | .mc c o => some (mcValue (s.ctrl c) o)
  | .repair _ _ => if 2 ≤ s.sec.level.toNat then none else some 0
  | .common => some s.fabric.commonWord
  | .fabNode => some s.fabric.nodeWord
  | .timeNow => some (s.timeNs % 2 ^ 64)
  | .intSteer v => some (Map.get 0 s.host.intSteer v).toNat
  | .pe1Dma i => some (Map.get 0 s.host.dma i).toNat
  | .pe1Win => some s.host.pe1Win.toNat
  | .hbCfg => some s.hbWord
  | .hbBeat => some 0
  | .box b o => some (boxValue (s.box b) b o)
  | .pwrIn => some (s.power.volts.toNat + 2 ^ 16 * s.power.amps.toNat + 2 ^ 32 * s.power.watts.toNat + 2 ^ 48 * s.power.avg.toNat)
  | .pwrStatus => some s.pwrStatus
  | .rail r => some (Map.get 0 s.power.rails r).toNat
  | .modCfg => some s.power.modCfg.toNat
  | .pwrCpu => some s.host.cpuStep.toNat
  | .therm => some s.power.temps.toNat
  | .secState => some s.sec.word
  | .secKid k => some (s.keySlot k).word
  | .fwStatus => some s.svc.word
  | .imsicM _ _ => some 0
  | .imsicS _ _ => some 0
  | .aplic o => some (aplicValue s.host (decide (0x8000 ≤ o)) (o % 0x8000))
  | .pe1Space _ => none

/-- What a read clears (RC registers). -/
def State.regClear (s : State) (r : Reg) : State :=
  match r with
  | .wq d q o => if o = 0x40 then s.modWq d q (fun w => { w with earlyCnt := 0 }) else s
  | .dc d o =>
    if o = 0x180 then s.modDie d (fun x => { x with dc := { x.dc with pfUsed := 0, pfDropped := 0 } })
    else if 0x100 ≤ o then
      (if o % 16 = 0 then s.modDie d (fun x => { x with dc := { x.dc with hits := Map.del x.dc.hits ((o - 0x100) / 16) } })
       else s.modDie d (fun x => { x with dc := { x.dc with misses := Map.del x.dc.misses ((o - 0x108) / 16) } }))
    else s
  | .bundle e o => if o = 8 then s.modLink e (fun l => { l with cntReplayed := 0, cntChecks := 0, cntReroutes := 0 }) else s
  | .port p o => if o = 8 then s.modPort p (fun x => { x with replays := 0, retrains := 0, violations := 0 }) else s
  | .ce d e o => if o = 0x10 then s.modCe d e (fun c => { c with cntSteps := 0, cntAborts := 0, cntProbes := 0 }) else s
  | .mc c o => if o = 0x300 then s.modCtrl c (fun m => { m with corrected := 0, uncorrectable := 0 }) else s
  | .box b o =>
    if o = 0x30 then s.modBox b (fun m => { m with evtLost := 0 })
    else if o = 0x48 then s.modBox b (fun m => { m with malformed := 0 }) else s
  | _ => s

/-- Read a register: its bytes, and the state after; an access to a repair window below VENDOR is logged (R236). -/
def State.regRead (s : State) (r : Reg) (agent : Nat) : List Byte × State :=
  let s := match r with | .repair _ o => if 2 ≤ s.sec.level.toNat then s else (s.logAccess 3 o agent).logNote 3 (leBytes 8 o ++ leBytes 2 agent) | _ => s
  match s.regValue r with
  | some v => (leBytes r.bytes v, s.regClear r)
  | none => let (v, s) := s.free 64; (leBytes r.bytes v.toNat, s)

/-! ## The rows of read-to-clear registers: the read returns the counts and clears them. -/

/-- Read a register as a row of its own; one of a domain that is off answers as an unmapped address (notes/assumptions/89). -/
def State.readRow (s : State) (r : Reg) : State :=
  if s.domainOn r.domain then let q := s.regRead r 0; q.2.reply (.bytes q.1) else s.reply .unsupported

/-- WQ_EARLY_CNT (R160). -/
def execWqEarlyCnt (d : DieId) (q : Fin 16) (s : State) : Out := .next (s.readRow (.wq d q 0x40))

/-- DC_HIT (R218): DC_HIT_c, or DC_MISS_c. -/
def execDcHit (d : DieId) (c : Fin 4) (miss : Bool) (s : State) : Out := .next (s.readRow (.dc d (0x100 + 16 * c.val + 8 * b2n miss)))

/-- DC_PF_CNT (R220). -/
def execDcPfCnt (d : DieId) (s : State) : Out := .next (s.readRow (.dc d 0x180))

/-- MC_ECC_CNT (R233). -/
def execMcEccCnt (c : CtrlId) (s : State) : Out := .next (s.readRow (.mc c 0x300))

/-- D2D_BCNT (R256). -/
def execD2dBcnt (e : LinkEnd) (s : State) : Out := .next (s.readRow (.bundle e 8))

/-- FAB_PCNT. -/
def execFabPcnt (p : PortId) (s : State) : Out := .next (s.readRow (.port p 8))

/-- CE_CNT. -/
def execCeCnt (d : DieId) (e : CeId) (s : State) : Out := .next (s.readRow (.ce d e 0x10))

/-- MBX_EVT_LOST (R334). -/
def execMbxEvtLost (eh : Bool) (s : State) : Out := .next (s.readRow (.box (b2n eh) 0x30))

/-- MBX_MALFORMED (R340). -/
def execMbxMalformed (eh : Bool) (s : State) : Out := .next (s.readRow (.box (b2n eh) 0x48))

end Sys2Proof.Machine
end

