-- ==== Sys2Proof/Machine/YesiaJob.lean ====
section
/-! DEFINITION. The device and job commands of Yesia (15): DEV_QUERY, DEV_IDENTIFY, DEV_HALT (R348, R349), the job lifecycle (R345 to R347,
Table 15-11). -/
namespace Sys2Proof.Machine

/-! ## Device commands -/

/-- Module state as DEV_QUERY gives it. -/
def ModuleState.code (x : ModuleState) : Nat := match x with | .active => 0 | .idle => 1 | .pilot => 2 | .off => 3

/-- Served bytes of a tier: the sum over its controllers. -/
def State.tierServed (s : State) (first n : Nat) : Nat := ((List.range n).map (fun i => s.served (first + i))).sum

/-- DEV_QUERY response (Table 15-8). The twelve D2D_BSTAT words stand HB, NB0, NB1 of TD0, then of TD1, and so on (DEDUCED). -/
def State.deviceRecord (s : State) : List Byte :=
  leBytes 1 (b2n s.lnVariant) ++ leBytes 1 s.power.state.code ++ leBytes 1 s.sec.lifecycle.toNat ++
    leBytes 1 (s.sec.level.toNat + 128 * b2n s.sec.debugActive) ++ leBytes 2 s.fabric.node.toNat ++ leBytes 2 s.fabric.commonAdr.toNat ++
    leBytes 8 s.fabric.commonWord ++ leBytes 8 (s.tierServed 12 16) ++ leBytes 8 (s.tierServed 0 12) ++
    ((List.range 4).map (fun d => leBytes 4 (s.die d).tileCount)).flatten ++
    ((List.range 12).map (fun e => leBytes 4 ((s.link e).bstat e))).flatten ++
    ((List.range 24).map (fun p => leBytes 4 (s.port p).pstat)).flatten ++
    ((List.range 3).map (fun b => leBytes 4 (s.box b).malformedAll.toNat)).flatten ++
    leBytes 4 (fwVersion s.svc.running) ++ leBytes 1 (b2n s.host.pe1Root)

/-- DEV_QUERY. -/
def execDevQuery (r : Request) (s : State) : Out := .next (s.serveNow 0x0101 r (fun s => (s, 0, s.deviceRecord)))

/-- Part number, 16 ASCII bytes: the variant's name, zeros after it (DEDUCED). -/
def State.partNumber (s : State) : List Byte :=
  bytesAt ([0x4A, 0x4E, 0x38, 0x2D, 0x33, 0x4B, 0x34, 0x2D, 0x4C, if s.lnVariant then 0x4E else 0x46] : List Byte) 0 16

/-- DEV_IDENTIFY. -/
def execDevIdentify (r : Request) (s : State) : Out :=
  .next (s.serveNow 0x0102 r (fun s => (s, 0,
    leBytes 2 s.yesiaMin ++ leBytes 2 s.yesiaMax ++ leBytes 2 Config.pciVendor.toNat ++ leBytes 2 Config.pciDevice.toNat ++
      leBytes 16 Config.serial.toNat ++ s.partNumber ++ leBytes 2 Config.hdStepping.toNat ++ leBytes 2 s.fabric.commonAdr.toNat)))

/-- DEV_HALT (R348): all tile-die work stops; one that arrives during a halt joins it. -/
def execDevHalt (r : Request) (s : State) : Out :=
  .next (s.serve 0x0103 r (fun s =>
    let s := if s.lantern.haltBusy then s else s.haltAll
    { s with lantern := { s.lantern with halting := s.lantern.halting ++ [r], haltBusy := true } }))

/-- Is a write that was issued before the halt neither performed nor abandoned (R349)? -/
def State.writesPending (s : State) : Bool := s.dies.any (fun e => e.2.orphans.any (fun q => decide (q.op = 3)))

/-- DEV_HALT_QUIESCED (R349): every DEV_HALT of this halt is answered. The halt time is what the Lantern measured. -/
def execDevHaltQuiesced (s : State) : Out :=
  if !s.lantern.haltBusy then .next s
  else
    let payload := leBytes 1 (b2n s.writesPending) ++ zeros 3 ++ leBytes 4 (Config.elapsedMicros s.freeCount).toNat
    let l := s.lantern.halting
    let s := { s with freeCount := s.freeCount + 1, lantern := { s.lantern with halting := [], haltBusy := false } }
    .next (l.foldl (fun s r => s.respond 0x0103 r 0 payload) s)

/-! ## Creating and loading a job -/

/-- The lowest n free key IDs from 1 on (R385). -/
def State.freeKeys (s : State) (n : Nat) : List Nat := (s.keysWhere (fun k x => decide (1 ≤ k) && decide (x.state = 0))).take n

/-- JOB_CREATE (R345, R346, R385): a RETIRED module refuses it (R155). Tiles that wait for a remap get it at this job boundary (R108). -/
def State.jobCreate (s : State) (r : Request) : State × Nat × List Byte :=
  let n := r.field 24 1
  let keys := s.freeKeys n
  if s.lantern.job.isSome then (s, 5, [])
  else if s.sec.lifecycle = 3 then (s, 3, [])
  else if n = 0 ∨ 8 < n then (s, 6, [])
  else if keys.length < n then (s, 0x0A, [])
  else
    let s := keys.foldl (fun s k => s.freshKey k 2 0) s
    let handle := s.lantern.handles % 2 ^ 32 + 1
    let code := if r.field 25 1 = 0xFF then s.lantern.defaultCode else r.field 25 1
    let job : Job :=
      { handle := handle, owner := boxOf r.src, jobId := BitVec.ofNat 128 (r.field 0 16), seed := BitVec.ofNat 64 (r.field 16 8), code := code,
        bypass := bit (r.field 26 1) 0, waymask := BitVec.ofNat 64 (r.field 32 8), keys := keys }
    let s := s.remap
    let s := { s with lantern := { s.lantern with job := some job, handles := handle } }
    (s.jobEvent, 0, leBytes 4 handle ++ bytesAt (keys.map (BitVec.ofNat 8) ++ List.replicate 8 0xFF) 0 8)

/-- JOB_CREATE. -/
def execJobCreate (r : Request) (s : State) : Out := .next (s.serveNow 0x0201 r (fun s => s.jobCreate r))

/-- The request names a job the mailbox controls; f answers for it. -/
def State.forJob (s : State) (r : Request) (f : Job → State × Nat × List Byte) : State × Nat × List Byte :=
  match s.jobOf r false with
  | .error st => (s, st, [])
  | .ok j => f j

/-- Status of an image access that was not served: an address argument that names no memory, or memory that failed (DESIGN CHOICE). -/
def copyStatus (e : MemErr) : Nat := match e with | .unmapped => 6 | _ => 0x10

/-- JOB_LOAD (R156): the image is copied under the job's first key ID (DESIGN CHOICE among the job's), then checked. -/
def State.jobLoad (s : State) (r : Request) (j : Job) : State × Nat × List Byte :=
  let key := r.field 16 1
  let n := r.field 8 8
  if 1 < j.state.toNat then (s, 5, [])
  else if 63 < key then (s, 6, [])
  else if !s.holds .core key then (s, 0x0A, [])
  else
    match s.wake.readMem (lanternAcc key) (r.field 0 8) n with
    | (.error e, s) => (s, copyStatus e.1, [])
    | (.ok img, s) =>
      match s.writeMem (lanternAcc (j.keys.headD 0)) (r.field 24 8) img with
      | (some e, s) => (s, copyStatus e.1, [])
      | (none, s) =>
        match s.release.loadCheck img with
        | some (code, f) => (s, 9, leBytes 1 code ++ leBytes 1 f.die ++ leBytes 2 f.status ++ zeros 4 ++ leBytes 8 f.off)
        | none => (s.release.takeImage img, 0, imageDigest img)

/-- JOB_LOAD. -/
def execJobLoad (r : Request) (s : State) : Out := .next (s.serveNow 0x0202 r (fun s => s.forJob r (s.jobLoad r)))

/-! ## Arming, suspending, resuming -/

/-- A TCLK code, lead and rank that JOB_ARM or JOB_RESUME accept: lead 0, or 50 to 1,000,000 µs on rank 0. -/
def leadOk (j : Job) (lead : Nat) : Bool := decide (lead = 0) || (decide (j.rank = 0) && decide (50 ≤ lead) && decide (lead ≤ 1000000))

/-- The dies are armed (R346): seed, semaphores 0, die-cache configuration, the job's TCLK code. -/
def State.armDies (s : State) (j : Job) : State :=
  (List.range 4).foldl (fun s d =>
    (s.modDie d (fun x => { x with
      seed := j.seed, sems := [], dc := { x.dc with streamBypass := j.bypass, waymask := j.waymask } })).setCode d j.code) s

/-- Answer with outcome 0, or start the Beacon with the given lead, which answers later (R347). -/
def State.armAnswer (s : State) (cmd : Nat) (r : Request) (j : Job) (lead : Nat) : State :=
  if lead = 0 then s.respond cmd r 0 (zeros 20) else s.beaconStart (s.timeNs + 1000 * lead) j.code r

/-- JOB_ARM (R345 to R347). In state 2 it sends a new Beacon. -/
def State.jobArm (s : State) (r : Request) : State :=
  let lead := r.field 4 4
  match s.jobOf r false with
  | .error st => s.respond 0x0203 r st []
  | .ok j =>
    if j.state ≠ 1 ∧ ¬(j.state = 2 ∧ lead ≠ 0) then s.respond 0x0203 r 5 []
    else if r.field 0 1 ≠ j.code ∨ !leadOk j lead then s.respond 0x0203 r 6 []
    else
      let s := s.wake
      let s := if j.state = 1 then ((s.armDies j).modJob (fun j => { j with state := 2 })).jobEvent else s
      s.armAnswer 0x0203 r j lead

/-- JOB_ARM. -/
def execJobArm (r : Request) (s : State) : Out := .next (s.serve 0x0203 r (fun s => s.jobArm r))

/-- JOB_SUSPEND (R137): each die quiesces at its next frame-instance boundary. -/
def State.jobSuspend (s : State) (r : Request) : State :=
  match s.jobOf r false with
  | .error st => s.respond 0x0204 r st []
  | .ok j => if j.state ≠ 3 then s.respond 0x0204 r 5 [] else s.modJob (fun j => { j with suspending := some r })

/-- JOB_SUSPEND. -/
def execJobSuspend (r : Request) (s : State) : Out := .next (s.serve 0x0204 r (fun s => s.jobSuspend r))

/-- Is every open kernel of an ISLAND held by parked groups alone, which are saved with the others (R130)? -/
def State.islandParked (s : State) (d : Nat) (o : InFlight) : Bool :=
  decide (dKind o.raw = 10) && (dTiles o.raw).all (fun t =>
    let k := s.tile d t
    !k.hasKernel o.src || (!k.slots.isEmpty && k.slots.all (fun g => decide (g.2.st = .parked)) && k.hasParked o.src))

/-- Has a die quiesced: it stopped at its boundary or its stream has ended, and nothing of it is in flight but collective steps and
islands of parked groups? -/
def State.still (s : State) (d : Nat) : Bool :=
  let x := s.die d
  (x.quiesced || x.ended || x.stream.isEmpty) && (x.fenced.filter (fun f => f.src.isStream)).isEmpty &&
    x.inflight.all (fun o => !o.src.isStream || decide (dKind o.raw = 6) || s.islandParked d o)

/-- Held steps of the JOB_SUSPEND response (R308): the collective steps of the job still on their engines. -/
def State.heldSteps (s : State) : List (List Byte) :=
  ((List.range 4).map (fun d => ((List.range 4).map (fun e =>
    ((s.ce d e).steps.filter (fun st => st.src.isStream)).map (fun st =>
      let x := collFields st.raw
      leBytes 4 x.collId ++ leBytes 2 x.step ++ leBytes 1 d ++ leBytes 1 e ++ zeros 4))).flatten)).flatten

/-- JOB_SUSPEND_QUIESCE (R137, R308, R409): every die stands at its boundary; the job reads suspended, fenced tiles are remapped, and the
response lists frame instances and held steps. A job that ended on its way there answers YST_STATE. -/
def execJobSuspendQuiesce (s : State) : Out :=
  match s.lantern.job with
  | none => .next s
  | some j =>
    match j.suspending with
    | none => .next s
    | some r =>
      let done (s : State) : State := s.modJob (fun j => { j with suspending := none })
      if j.state ≠ 3 then .next ((done s).respond 0x0204 r 5 [])
      else if !(List.range 4).all (fun d => s.still d) then .next s
      else
        let l := s.heldSteps
        let payload := ((List.range 4).map (fun d => leBytes 4 (s.die d).frames)).flatten ++ leBytes 1 l.length ++ zeros 7 ++ l.flatten
        .next ((((done s).modJob (fun j => { j with state := 4 })).remap.jobEvent).respond 0x0204 r 0 payload)

/-- Does the module still meet what the loaded image requires (R409)? -/
def State.meetsImage (s : State) (j : Job) : Bool :=
  (List.range 4).all (fun d =>
    let req := j.tilesReq.getD d 0
    decide (req ≤ (s.die d).count.toNat) && (j.degradedOk || !s.degradedReq d req))

/-- JOB_RESUME (R137, R347, R409). A frequency change that was asked for while the job was suspended takes effect with it (R369). -/
def State.jobResume (s : State) (r : Request) : State :=
  let lead := r.field 4 4
  match s.jobOf r false with
  | .error st => s.respond 0x0205 r st []
  | .ok j =>
    if j.state ≠ 4 ∨ !s.meetsImage j then s.respond 0x0205 r 5 []
    else if !leadOk j lead then s.respond 0x0205 r 6 []
    else
      let s := (s.wake.modJob (fun j => { j with resuming := true }))
      match s.lantern.job with
      | some j => s.armAnswer 0x0205 r j lead
      | none => s

/-- JOB_RESUME. -/
def execJobResume (r : Request) (s : State) : Out := .next (s.serve 0x0205 r (fun s => s.jobResume r))

/-! ## Ending a job -/

/-- The job that a JOB_ABORT names: the MG mailbox may end any (R343). -/
def State.abortJob (s : State) (r : Request) : Except Nat Job := s.jobOf r (decide (boxOf r.src = 2))

/-- Work of a job in state 1 to 4 stops; a Beacon on its way is cancelled (R285). -/
def State.abortWork (s : State) (j : Job) : State :=
  if 1 ≤ j.state.toNat ∧ j.state.toNat ≤ 4 then (s.beaconCancel 0x0F).jobStop 7 else s

/-- JOB_ABORT with mode 0 (Table 15-11, R201): the response follows when the job reads aborted. -/
def State.jobAbort (s : State) (r : Request) : State :=
  match s.abortJob r with
  | .error st => s.respond 0x0206 r st []
  | .ok j =>
    if j.state = 0 ∨ 4 < j.state.toNat ∨ r.field 0 1 ≠ 0 then s.respond 0x0206 r 5 []
    else
      let s := s.abortWork j
      match s.lantern.job with
      | some j => if j.settling then s.modJob (fun j => { j with aborting := some r }) else s.abortDone r j
      | none => s

/-- JOB_ABORT, mode 0. -/
def execJobAbort (r : Request) (s : State) : Out := if r.field 0 1 = 0 then .next (s.serve 0x0206 r (fun s => s.jobAbort r)) else .next s

/-- JOB_ABORT with mode 1 (R346, R387): the job is aborted if it has to be; once its writes are settled its keys and seed are destroyed and it is removed; fenced tiles
are remapped at this boundary (R108). The final state is the one before the removal (DEDUCED). -/
def State.jobEnd (s : State) (r : Request) : State :=
  match s.abortJob r with
  | .error st => s.respond 0x0206 r st []
  | .ok j =>
    let s := (s.abortWork j).remap
    match s.lantern.job with
    | some j => if j.settling then s.modJob (fun j => { j with aborting := some r }) else s.abortDone r j
    | none => s

/-- JOB_ABORT, mode 1. -/
def execJobEnd (r : Request) (s : State) : Out := if r.field 0 1 = 1 then .next (s.serve 0x0206 r (fun s => s.jobEnd r)) else .next s

/-! ## Status -/

/-- Slip of a die as JOB_STATUS reads it while the job runs: a stretch under way counts (R9). -/
def State.jobSlip (s : State) (j : Job) (d : Nat) : Nat := if j.state = 3 then s.slipOf d else 0

/-- The job status record (Table 06-13). -/
def State.jobRecord (s : State) (j : Job) : List Byte :=
  let f := j.flags
  let flags := b2n f.nv + 2 * b2n f.ovf + 4 * b2n f.nanLost + 8 * b2n f.winOvf + 16 * b2n j.timingLost + 32 * b2n j.kernelIncomplete +
    64 * b2n j.tileLost
  let frames := if j.state = 0 then 0 else ((List.range 4).map (fun d => (s.die d).frames)).sum
  leBytes 1 j.shown.toNat ++ leBytes 1 flags ++ leBytes 2 j.failStatus.toNat ++ leBytes 1 j.failDie.toNat ++ leBytes 1 j.slipCause.toNat ++
    leBytes 1 j.slipDie.toNat ++ zeros 1 ++ leBytes 8 j.failPos.toNat ++ leBytes 8 j.slipSlot.toNat ++ leBytes 8 ((List.range 4).foldl (fun a d => max a (s.jobSlip j d)) j.slipMax.toNat) ++
    ((List.range 4).map (fun d => leBytes 4 (min (max (Map.get 0 j.slipDies d) (s.jobSlip j d)) (2 ^ 32 - 1)))).flatten ++ leBytes 4 j.slipEvents.toNat ++ leBytes 4 j.causeMask.toNat ++
    leBytes 4 j.aborted.toNat ++ leBytes 4 frames

/-- JOB_STATUS (R153, R343, R346): state 0 when there is no job. -/
def execJobStatus (r : Request) (s : State) : Out :=
  .next (s.serveNow 0x0207 r (fun s =>
    match s.lantern.job with
    | none => (s, 0, zeros 64)
    | some j => if j.handle ≠ r.handle.toNat then (s, 8, []) else (s, 0, s.jobRecord j)))

end Sys2Proof.Machine
end

