-- ==== Sys2Proof/Machine/YesiaMem.lean ====
section
/-! DEFINITION. The memory commands of Yesia: MEM_MAP, MEM_KEEP (R244, R247, R389), MEM_REPAIR (R236, Table 10-5), MEM_SCRUB (R233). -/
namespace Sys2Proof.Machine

/-! ## MEM_MAP -/

/-- MEM_MAP response: 28 entries (Table 15-6). -/
def State.memMapRecord (s : State) : List Byte :=
  ((List.range 28).map (fun c =>
    leBytes 8 (ctrlBase c) ++ leBytes 6 (s.served c) ++ leBytes 1 (popcount 32 (s.ctrl c).retired.toNat) ++
      leBytes 1 (popcount 32 (s.ctrl c).chanFenced.toNat))).flatten

/-- MEM_MAP. -/
def execMemMap (r : Request) (s : State) : Out := .next (s.serveNow 0x0301 r (fun s => (s, 0, s.memMapRecord)))

/-! ## MEM_KEEP -/

/-- An entry of the preservation record: base, size, key ID, state, fenced lines, two bytes of 0 (the order of Table 15-6). -/
def State.regionBytes (s : State) (g : Region) : List Byte :=
  leBytes 8 g.base ++ leBytes 8 g.size ++ leBytes 1 g.key ++ leBytes 1 g.state ++ leBytes 4 (s.fencedIn g) ++ zeros 2

/-- The preservation record (R247): 16 entries. -/
def State.keepRecord (s : State) : List Byte := bytesAt (s.sec.record.map s.regionBytes).flatten 0 384

/-- Record entries of regions that are sealed and not released. -/
def State.sealedRecord (s : State) : List Region := s.sec.record.filter (fun g => (s.sec.sealedKeys.map (·.key)).contains g.key)

/-- Region i of a request. -/
def requestRegion (r : Request) (i : Nat) : Region := { base := r.field (8 + 24 * i) 8, size := r.field (16 + 24 * i) 8, key := r.field (24 + 24 * i) 1 }

/-- Regions of a request. -/
def requestRegions (r : Request) : List Region := (List.range (r.field 1 1)).map (requestRegion r)

/-- Does a region satisfy R244: 2 MiB aligned, a multiple of 2 MiB, inside the served extent of one controller, key ID not 0? -/
def State.regionOk (s : State) (g : Region) : Bool :=
  decide (0 < g.size) && decide (g.base % 2 ^ 21 = 0) && decide (g.size % 2 ^ 21 = 0) && decide (g.key ≠ 0) && decide (g.key < 64) &&
    (match s.place g.base with | .mem c => decide (g.base - ctrlBase c + g.size ≤ s.served c) | _ => false)

/-- Do two regions overlap? -/
def Region.meets (a b : Region) : Bool := decide (a.base < b.base + b.size) && decide (b.base < a.base + a.size)

/-- Do no two of a list overlap? -/
def regionsApart : List Region → Bool
  | [] => true
  | g :: r => r.all (fun h => !g.meets h) && regionsApart r

/-- A MEM_KEEP row: the operation's number stands in the request. -/
def State.memKeep (s : State) (op : Nat) (r : Request) (f : State → State × Nat) : State :=
  if r.field 0 1 ≠ op then s else s.serveNow 0x0302 r (fun s => let q := f s; (q.1, q.2, if q.2 = 0 then q.1.keepRecord else []))

/-- MEM_KEEP declare: sets the kept regions, at most 16 with those that are sealed and apart from them; a key ID must be one drawn for keeping. -/
def State.keepDeclare (s : State) (r : Request) : State × Nat :=
  let l := requestRegions r
  if 16 < l.length + s.sealedRecord.length ∨ !l.all s.regionOk ∨ !regionsApart (l ++ s.sealedRecord) then (s, 6)
  else if l.any (fun g => decide ((s.keySlot g.key).state ≠ 3)) then (s, 0x0A)
  else ({ s with sec := { s.sec with regions := l, record := s.sealedRecord ++ l } }, 0)

/-- MEM_KEEP_DECLARE. -/
def execMemKeepDeclare (r : Request) (s : State) : Out := .next (s.memKeep 0 r (fun s => s.keepDeclare r))

/-- MEM_KEEP_READ_RECORD. -/
def execMemKeepReadRecord (r : Request) (s : State) : Out := .next (s.memKeep 1 r (fun s => (s, 0)))

/-- Does a sealed key pass its policy and the conditions of R389? -/
def State.releaseOk (s : State) (x : Sealed) : Bool :=
  let p := (s.keySlot x.key).policy.toNat
  decide (s.sec.lifecycle = 2) && decide (x.ownerRoot = s.sec.ownerRoot) && !s.sec.debugActive &&
    (!bit p 0 || decide (x.os = s.sec.osDigest)) && (!bit p 1 || (decide (x.signer = s.sec.osSigner) && decide (x.signer ≠ zeros 48))) &&
    (!bit p 2 || decide (x.svn ≤ fwSvn s.svc.running))

/-- MEM_KEEP release (R389): every sealed key passes and becomes a kept one, or all are destroyed. Released regions stay declared
(DESIGN CHOICE). -/
def State.keepRelease (s : State) : State × Nat :=
  if s.sec.releasedBoot then (s, 5)
  else
    let l := s.sec.sealedKeys
    let ids := l.map (·.key)
    let s := { s with sec := { s.sec with releasedBoot := true } }
    if l.all s.releaseOk then
      let back := s.sec.record.filter (fun g => ids.contains g.key)
      let s := ids.foldl (fun s k => s.modKey k (fun x => { x with state := 3 })) s
      ({ s with sec := { s.sec with
          sealedKeys := [], releasedCount := BitVec.ofNat 8 ids.length, regions := s.sec.regions ++ back.map (fun g => { g with state := 0 }),
          record := s.sec.record.map (fun g => if ids.contains g.key then { g with state := 3 } else g) } }, 0)
    else (s.destroyKeys ids 3, 0x0E)

/-- MEM_KEEP_RELEASE. -/
def execMemKeepRelease (r : Request) (s : State) : Out := .next (s.memKeep 2 r State.keepRelease)

/-- MEM_KEEP drop: the regions named are declared no more. -/
def State.keepDrop (s : State) (r : Request) : State × Nat :=
  let l := requestRegions r
  let same (a b : Region) : Bool := decide (a.base = b.base) && decide (a.size = b.size) && decide (a.key = b.key)
  if l.all (fun g => s.sec.regions.any (same g)) then
    let out (k : List Region) : List Region := k.filter (fun h => !l.any (same h))
    ({ s with sec := { s.sec with regions := out s.sec.regions, record := out s.sec.record } }, 0)
  else (s, 6)

/-- MEM_KEEP_DROP_REGION. -/
def execMemKeepDropRegion (r : Request) (s : State) : Out := .next (s.memKeep 3 r (fun s => s.keepDrop r))

/-! ## MEM_REPAIR -/

/-- The controller that a target byte names: 0–11 stack, 16–31 package; a package only where there are packages (R3). -/
def State.target (s : State) (b : Nat) : Option Nat :=
  if b < 12 then some b else if 16 ≤ b ∧ b < 32 ∧ !s.lnVariant then some (b - 4) else none

/-- A MEM_REPAIR row: the operation's number stands in the request; a target out of range is YST_ARG. -/
def State.memRepair (s : State) (op : Nat) (r : Request) (f : State → Nat → State × Nat × List Byte) : State :=
  if r.field 0 1 ≠ op then s
  else s.serveNow 0x0303 r (fun s => match s.target (r.field 1 1) with | some c => f s c | none => (s, 6, []))

/-- Free spare rows of a channel. -/
def State.freeRows (s : State) (c ch : Nat) : Nat :=
  ((List.range 32).map (fun b => spareRows c - Map.get 0 (s.ctrl c).spareUsed (32 * ch + b))).sum

/-- A channel's entry of a QUERY response: packages have no lane spares (R234). -/
def State.channelRecord (s : State) (c ch : Nat) : List Byte :=
  let m := s.ctrl c
  leBytes 2 (s.freeRows c ch) ++ leBytes 1 (if c < 12 then (Config.laneSpares s.pool.tested c ch).toNat else 0) ++
    leBytes 1 (b2n (m.chanFenced.getLsbD ch) + 2 * b2n (m.retired.getLsbD ch) + 4 * b2n (m.pendingRetire.getLsbD ch)) ++
    leBytes 4 (m.fence.filter (fun e => e.2.valid && decide (e.2.channel = ch))).length

/-- MEM_REPAIR_QUERY. -/
def execMemRepairQuery (r : Request) (s : State) : Out :=
  .next (s.memRepair 0 r (fun s c => (s, 0, ((List.range (ctrlChans c)).map (s.channelRecord c)).flatten)))

/-- The row that a request names; none when a number is out of its range (R225, R240). -/
def requestRow (r : Request) (c : Nat) : Option RowAddr :=
  let x : RowAddr := ⟨r.field 2 1, r.field 3 1, r.field 4 1, r.field 8 4⟩
  if x.ch < ctrlChans c ∧ x.pc < 2 ∧ x.bank < 16 ∧ x.row < (if c < 12 then 2 ^ 16 else 2 ^ 20) then some x else none

/-- Effect of ROW_SOFT (R235): the repair starts now; without a spare row the action is not completed, and event 0x2003 says so. -/
def State.rowSoft (s : State) (r : Request) (c : Nat) : State × Nat × List Byte :=
  match requestRow r c with
  | none => (s, 6, [])
  | some x => let q := s.softRepair c x; (q.2, if q.1 then 0 else 0x10, [])

/-- ROW_SOFT. -/
def execRowSoft (r : Request) (s : State) : Out := .next (s.memRepair 1 r (fun s c => s.rowSoft r c))

/-- Effect of ROW_HARD: recorded for the next start from M-OFF. -/
def State.rowHard (s : State) (r : Request) (c : Nat) : State × Nat × List Byte :=
  match requestRow r c with
  | none => (s, 6, [])
  | some x => (s.modCtrl c (fun m => { m with hardPending := if m.hardPending.contains x then m.hardPending else m.hardPending ++ [x] }), 0, [])

/-- ROW_HARD. -/
def execRowHard (r : Request) (s : State) : Out := .next (s.memRepair 2 r (fun s c => s.rowHard r c))

/-- Effect of an operation on a channel. -/
def State.onChannel (s : State) (r : Request) (c : Nat) (f : State → Nat → Nat → State) : State × Nat × List Byte :=
  if ctrlChans c ≤ r.field 2 1 then (s, 6, []) else (f s c (r.field 2 1), 0, [])

/-- CHANNEL_FENCE. -/
def execChannelFence (r : Request) (s : State) : Out := .next (s.memRepair 3 r (fun s c => s.onChannel r c State.fenceChannel))

/-- Mark a channel for retirement. -/
def State.retireMark (s : State) (c ch : Nat) : State :=
  s.modCtrl c (fun m => { m with pendingRetire := m.pendingRetire ||| BitVec.ofNat 32 (2 ^ ch) })

/-- CHANNEL_RETIRE. -/
def execChannelRetire (r : Request) (s : State) : Out := .next (s.memRepair 4 r (fun s c => s.onChannel r c State.retireMark))

/-- Withdraw a channel's retirement. -/
def State.retireUnmark (s : State) (c ch : Nat) : State :=
  s.modCtrl c (fun m => { m with pendingRetire := m.pendingRetire &&& ~~~ (BitVec.ofNat 32 (2 ^ ch)) })

/-- CHANNEL_KEEP. -/
def execChannelKeep (r : Request) (s : State) : Out := .next (s.memRepair 5 r (fun s c => s.onChannel r c State.retireUnmark))

/-- Effect of AUTO. -/
def State.autoSet (s : State) (r : Request) (c : Nat) : State × Nat × List Byte :=
  if 1 < r.field 12 1 then (s, 6, []) else (s.modCtrl c (fun m => { m with autoRepair := decide (r.field 12 1 = 1) }), 0, [])

/-- AUTO. -/
def execAuto (r : Request) (s : State) : Out := .next (s.memRepair 6 r (fun s c => s.autoSet r c))

/-- A write to a repair window performs the operations without the policy checks (R236). Which operation a write stands for is left open, as the
window has no layout: Config.repairWrite gives the payload. -/
def State.repairWindow (s : State) (c off v : Nat) : State :=
  let r : Request := { src := .os, version := 1, tag := 0, handle := 0, payload := Config.repairWrite off v }
  match r.field 0 1 with
  | 1 => (s.rowSoft r c).1
  | 2 => (s.rowHard r c).1
  | 3 => (s.onChannel r c State.fenceChannel).1
  | 4 => (s.onChannel r c State.retireMark).1
  | 5 => (s.onChannel r c State.retireUnmark).1
  | 6 => (s.autoSet r c).1
  | _ => s

/-! ## MEM_SCRUB -/

/-- MEM_SCRUB response: rake position as a line's physical address (DESIGN CHOICE), passes, MC_ECC_CNT, which this does not clear. -/
def State.scrubRecord (s : State) (c : Nat) : List Byte :=
  leBytes 8 (ctrlBase c + 128 * (s.ctrl c).rakePos) ++ leBytes 4 (s.ctrl c).rakePasses ++ leBytes 8 (mcValue (s.ctrl c) 0x300)

/-- A MEM_SCRUB row. -/
def State.memScrub (s : State) (op : Nat) (r : Request) (f : State → Nat → State × Nat) : State :=
  if r.field 0 1 ≠ op then s
  else
    s.serveNow 0x0304 r (fun s =>
      match s.target (r.field 1 1) with
      | some c => let q := f s c; (q.1, q.2, if q.2 = 0 then q.1.scrubRecord c else [])
      | none => (s, 6, []))

/-- MEM_SCRUB_READ. -/
def execMemScrubRead (r : Request) (s : State) : Out := .next (s.memScrub 0 r (fun s _ => (s, 0)))

/-- MEM_SCRUB_SET_PERIOD: in effect at the next pass. -/
def execMemScrubSetPeriod (r : Request) (s : State) : Out :=
  .next (s.memScrub 1 r (fun s c =>
    let p := r.field 2 1
    if p = 0 ∨ 168 < p then (s, 6) else (s.modCtrl c (fun m => { m with rakeNext := BitVec.ofNat 8 p }), 0)))

/-- A rake pass over a range now: lines without an error stay as they are, so the ones with errors, by line number, decide. -/
def State.scrubPass (s : State) (c base size : Nat) (errors : Map (List (List Byte))) : State :=
  (errors.filter (fun e => decide (base / 128 ≤ e.1) && decide (128 * e.1 < base + size))).foldl (fun s e =>
    if s.isFenced c e.1 then s else (s.controllerRead c e.1 1 e.2).2) s

/-- MEM_SCRUB_PASS: the range lies in the target's served extent. -/
def execMemScrubPass (r : Request) (errors : Map (List (List Byte))) (s : State) : Out :=
  .next (s.memScrub 2 r (fun s c =>
    let base := r.field 8 8
    let size := r.field 16 8
    if base < ctrlBase c ∨ ctrlBase c + s.served c < base + size then (s, 6) else (s.scrubPass c base size errors, 0)))

end Sys2Proof.Machine
end

