-- ==== Sys2Proof/Machine/YesiaPower.lean ====
section
/-! DEFINITION. The power commands of Yesia (16): PWR_CAP (R359 to R362), PWR_STATE (R375 to R377), PWR_FREQ (R345, R368), and a power entry that is
refused (R200). -/
namespace Sys2Proof.Machine

/-- PWR_CAP: 0 keeps a field. The brake power changes at once (R360), the limits of R359 with the new cap 1 ms after the response. -/
def State.pwrCap (s : State) (r : Request) : State × Nat × List Byte :=
  let cap := r.field 0 2
  let level := r.field 2 1
  if (cap ≠ 0 ∧ (cap < 1200 ∨ 3400 < cap)) ∨ (level ≠ 0 ∧ (level < 10 ∨ 100 < level)) then (s, 6, [])
  else
    let s := { s with power := { s.power with
      cap := if cap = 0 then s.power.cap else cap, capOld := if cap = 0 then s.power.capOld else s.power.limit s.timeNs,
      capFrom := if cap = 0 then s.power.capFrom else s.timeNs + 1000000, level := if level = 0 then s.power.level else level } }.brakeReset
    (s, 0, leBytes 2 s.power.cap ++ leBytes 1 s.power.level)

/-- PWR_CAP. -/
def execPwrCap (r : Request) (s : State) : Out := .next (s.serveNow 0x0401 r (fun s => s.pwrCap r))

/-- PWR_STATE 0: a wake, or the exit from M-PILOT; an exit that fails stays in M-PILOT with its code (event 0x8003) and answers
YST_HW_ERROR (DEDUCED from Table 15-7). -/
def State.toActive (s : State) (report : StartReport) : State × Nat :=
  match s.power.state with
  | .pilot => let s := s.pilotExit report; (s, if s.power.state = .active then 0 else 0x10)
  | _ => (s.wake, 0)

/-- PWR_STATE (Table 16-9); a state the module holds already is reached at once. -/
def State.pwrState (s : State) (r : Request) (report : StartReport) : State × Nat × List Byte :=
  let answer (p : State × Nat) : State × Nat × List Byte := (p.1, p.2, leBytes 1 p.1.power.state.code)
  if s.jobBlocks || s.queueEnabled then (s, 5, [])
  else
    match r.field 0 1 with
    | 0 => answer (s.toActive report)
    | 1 =>
      match s.power.state with
      | .active => answer (s.enterIdle, 0)
      | .idle => answer (s, 0)
      | _ => (s, 5, [])
    | 2 => answer (if s.power.state = .pilot then s else s.enterPilot 1, 0)
    | 3 => answer (s.powerLoss 0, 0)
    | _ => (s, 6, [])

/-- PWR_STATE. -/
def execPwrState (r : Request) (report : StartReport) (s : State) : Out :=
  .next (s.serveNow 0x0402 r (fun s => s.pwrState r report))

/-- PWR_FREQ (R345, R368): handle 0 sets the default of later jobs; the handle of the job starts a change over its start tree, with a change time
100 µs ahead (DESIGN CHOICE among "at least 100 µs"). -/
def State.pwrFreq (s : State) (r : Request) : State :=
  let code := r.field 0 1
  let handle := r.field 4 4
  if handle = 0 then { s with lantern := { s.lantern with defaultCode := code } }.respond 0x0403 r 0 (zeros 8)
  else
    match s.lantern.job with
    | none => s.respond 0x0403 r 8 []
    | some j =>
      if j.handle ≠ handle then s.respond 0x0403 r 8 []
      else if j.rank ≠ 0 ∨ (j.state ≠ 3 ∧ j.state ≠ 4) then s.respond 0x0403 r 5 []
      else (s.modJob (fun j => { j with freqReq := some r })).beaconStart (s.timeNs + 100000) code r

/-- PWR_FREQ. -/
def execPwrFreq (r : Request) (s : State) : Out := .next (s.serve 0x0403 r (fun s => s.pwrFreq r))

/-- POWER_ENTRY_REFUSED (R200): stores remain after 1 ms: a tile stays in T-GATE; the module stays in its state, and the PWR_STATE whose turn it
is answers YST_BUSY. -/
def execPowerEntryRefused (e : EntryTarget) (s : State) : Out :=
  match e with
  | .tile d t => .next (s.modTile d t (fun k => if k.power = .run then { k with power := .gate } else k))
  | .module r => .next (s.serveNow 0x0402 r (fun s => (s, 4, [])))

end Sys2Proof.Machine
end

