-- ==== Sys2Proof/Machine/YesiaSec.lean ====
section
/-! DEFINITION. Security commands (17): attestation reports (R381), SEC_KEY (R385 to R388), the lifecycle (R390), debug sessions (R391, R392). -/
namespace Sys2Proof.Machine

/-! ## Attestation -/

/-- A signature by the alias key (R378, R381). -/
def State.aliasSign (s : State) (digest : List Byte) : List Byte := bytesAt (Config.keySign (cdiAlias s.sec.aliasOf) digest) 0 96

/-- The digests of measurement blocks 1 to 6 (Table 17-2, R382). -/
def State.measurements (s : State) : List (List Byte) :=
  let image := match s.lantern.job with | some j => bytesAt j.digest 0 48 | none => zeros 48
  [beBytes 48 Config.romDigest.toNat, fwDigest s.svc.running, s.sec.osDigest, s.sec.osSigner, image, s.sec.ownerRoot]

/-- Report bytes 0x008 to 0x00F (Table 17-3). -/
def State.reportState (s : State) : List Byte :=
  leBytes 1 s.sec.lifecycle.toNat ++ leBytes 1 (s.sec.level.toNat + 128 * b2n s.sec.debugActive) ++ leBytes 1 s.power.state.code ++
    leBytes 1 (b2n s.lnVariant) ++ leBytes 2 s.fabric.commonAdr.toNat ++ leBytes 2 s.fabric.node.toNat

/-- Report bytes 0x000 to 0x19F for a nonce. -/
def State.reportBody (s : State) (nonce : List Byte) : List Byte :=
  let job := match s.lantern.job with | some j => j.jobId.toNat | none => 0
  leBytes 4 0x4A385250 ++ leBytes 2 1 ++ leBytes 2 0x200 ++ s.reportState ++ leBytes 4 (fwVersion s.svc.running) ++
    leBytes 4 (fwSvn s.svc.running) ++ leBytes 8 s.timeNs ++ leBytes 16 Config.serial.toNat ++ leBytes 16 job ++ bytesAt nonce 0 48 ++
    (s.measurements.map (fun m => bytesAt m 0 48)).flatten ++ leBytes 1 s.sec.restartCount.toNat ++ leBytes 1 s.sec.sealedKeys.length ++
    leBytes 1 s.sec.releasedCount.toNat ++ leBytes 1 (b2n s.fabric.unsync) ++ zeros 12

/-- The signed report of Table 17-3. -/
def State.report (s : State) (nonce : List Byte) : List Byte :=
  let body := s.reportBody nonce
  body ++ s.aliasSign (sha384 body)

/-- SEC_ATTEST (R381). -/
def execSecAttest (r : Request) (s : State) : Out :=
  .next (s.serveNow 0x0501 r (fun s =>
    (s, 0, s.report (bytesAt r.payload 0 48) ++
      (if bit (r.field 48 1) 0 then leBytes 2 2 ++ Config.aliasChain s.sec.aliasOf else []))))

/-! ## SEC_KEY (Table 17-5) -/

/-- A SEC_KEY row: the operation's number stands in the request. -/
def State.secKey (s : State) (op : Nat) (r : Request) (f : State → State × Nat × List Byte) : State :=
  if r.field 0 1 ≠ op then s else s.serveNow 0x0502 r f

/-- SEC_KEY_QUERY. -/
def execSecKeyQuery (r : Request) (s : State) : Out :=
  .next (s.secKey 0 r (fun s =>
    let k := r.field 1 1
    if k = 0xFF then (s, 0, ((List.range 64).map (fun k => leBytes 4 (s.keySlot k).word)).flatten)
    else if k < 64 then (s, 0, leBytes 4 (s.keySlot k).word)
    else (s, 6, [])))

/-- ALLOC_KEEP (R388): the lowest free key ID from 1 on (DESIGN CHOICE) becomes a kept one with a sealing policy. -/
def State.allocKeep (s : State) (r : Request) : State × Nat × List Byte :=
  let p := r.field 2 2
  if boxOf r.src ≠ 0 then (s, 0x0A, [])
  else if 7 < p ∨ p % 4 = 0 then (s, 6, [])
  else
    match s.freeKeys 1 with
    | k :: _ => (s.freshKey k 3 (BitVec.ofNat 3 p), 0, leBytes 1 k)
    | [] => (s, 0x0A, [])

/-- ALLOC_KEEP. -/
def execAllocKeep (r : Request) (s : State) : Out := .next (s.secKey 1 r (fun s => s.allocKeep r))

/-- Is the sender the holder of a key ID: the OS mailbox of os and keep IDs, the job's mailbox of job IDs? -/
def State.holderOf (s : State) (r : Request) (k : Nat) : Bool :=
  match (s.keySlot k).state.toNat with
  | 1 => decide (boxOf r.src = 0)
  | 2 => (match s.lantern.job with | some j => decide (j.owner = boxOf r.src) | none => false)
  | 3 => decide (boxOf r.src = 0)
  | _ => false

/-- A change of a key ID by its holder. -/
def State.byHolder (s : State) (r : Request) (f : State → Nat → State × Nat × List Byte) : State × Nat × List Byte :=
  let k := r.field 1 1
  if 63 < k then (s, 6, []) else if s.holderOf r k then f s k else (s, 0x0A, [])

/-- GRANT. -/
def execGrant (r : Request) (s : State) : Out :=
  .next (s.secKey 2 r (fun s => s.byHolder r (fun s k =>
    let g := r.field 2 2
    if 3 < g then (s, 6, [])
    else (s.modKey k (fun x => { x with bar2 := x.bar2 || bit g 0, pe1 := x.pe1 || bit g 1 }), 0, []))))

/-- REVOKE. Lines read ahead under the key go with the BAR2 grant. -/
def execRevoke (r : Request) (s : State) : Out :=
  .next (s.secKey 3 r (fun s => s.byHolder r (fun s k =>
    let g := r.field 2 2
    if 3 < g then (s, 6, [])
    else
      let s := s.modKey k (fun x => { x with bar2 := x.bar2 && !bit g 0, pe1 := x.pe1 && !bit g 1 })
      (if bit g 0 then s.release else s, 0, []))))

/-- ROTATE (R386): destruction, then a fresh key for the same holder; the sealing policy stays (R388). -/
def State.rotate (s : State) (k : Nat) : State × Nat × List Byte :=
  let x := s.keySlot k
  if k = 0 then (s, 0x0A, [])
  else
    let s := (s.destroyKeys [k] 1).freshKey k x.state x.policy
    (s, 0, leBytes 4 (s.keySlot k).gen.toNat)

/-- ROTATE. -/
def execRotate (r : Request) (s : State) : Out := .next (s.secKey 4 r (fun s => s.byHolder r State.rotate))

/-- DESTROY: kept and sealed IDs by the OS, job IDs by the job's mailbox; key ID 0 by no one; any other request is YST_NO_KEY. -/
def State.destroyByRequest (s : State) (r : Request) : State × Nat × List Byte :=
  let k := r.field 1 1
  let st := (s.keySlot k).state.toNat
  if 63 < k then (s, 6, [])
  else if (st ≠ 1 ∧ s.holderOf r k) ∨ (st = 4 ∧ boxOf r.src = 0) then (s.destroyKeys [k] 1, 0, [])
  else (s, 0x0A, [])

/-- DESTROY. -/
def execDestroy (r : Request) (s : State) : Out := .next (s.secKey 5 r (fun s => s.destroyByRequest r))

/-! ## Authorisation (R390, Table 17-7) -/

/-- The fields of an authorisation block. -/
structure AuthBlock where
  challenge : List Byte
  chain : List Byte
  body : List Byte
  signed : List Byte
  signature : List Byte
  deriving DecidableEq, Repr

/-- Cut a block; none when its length disagrees with its fields. -/
def authBlock (l : List Byte) : Option AuthBlock :=
  let c := fieldAt l 0x30 2
  let b := fieldAt l 0x32 2
  if l.length ≠ 0x34 + c + b + 96 then none
  else some ⟨l.take 0x30, bytesAt l 0x34 c, bytesAt l (0x34 + c) b, l.take (0x34 + c + b), l.drop (0x34 + c + b)⟩

/-- Does the block verify up to a root? -/
def AuthBlock.verifies (x : AuthBlock) (root : List Byte) : Bool :=
  Config.chainVerifies x.chain root && Config.ecdsaVerify (Config.chainLeaf x.chain) (sha384 x.signed) x.signature

/-- SHA-384 of the Helverin root certificate. -/
def helverin : List Byte := beBytes 48 Config.helverinRoot.toNat

/-- The first request: a challenge that replaces the one on this source; with it the serial number and the DeviceID public key. -/
def State.giveChallenge (s : State) (r : Request) (target : Nat) (debug : Bool) : State × Nat × List Byte :=
  let (v, s) := s.free 384
  let bytes := leBytes 48 v.toNat
  let rest := s.sec.challenges.filter (fun c => decide (c.src ≠ r.src))
  ({ s with sec := { s.sec with challenges := rest ++ [⟨r.src, bytes, target, debug⟩] } }, 0,
    bytes ++ leBytes 16 Config.serial.toNat ++ deviceIdKey)

/-- The second request takes the challenge of its source off the list and answers the block when it carries that challenge. -/
def State.takeChallenge (s : State) (r : Request) (target : Nat) (debug : Bool) : Option AuthBlock × State :=
  let mine := s.sec.challenges.find? (fun c => decide (c.src = r.src) && decide (c.target = target) && decide (c.debug = debug))
  let s := { s with sec := { s.sec with challenges := s.sec.challenges.filter (fun c => decide (c.src ≠ r.src)) } }
  match mine, authBlock (r.payload.drop 4) with
  | some c, some b => (if c.bytes = b.challenge then some b else none, s)
  | _, _ => (none, s)

/-- An authentication failure: logged (Table 18-9), YST_AUTH. -/
def State.authFails (s : State) (cmd : Nat) (r : Request) : State := (s.logNote 3 (leBytes 2 cmd)).respond cmd r 0x0E []

/-! ## Lifecycle -/

/-- Table 17-6: is there a transition? -/
def transition (a b : Nat) : Bool :=
  (a, b) = (0, 1) || (a, b) = (1, 2) || (a, b) = (2, 2) || (a, b) = (2, 1) || (decide (a < 3) && decide (b = 3))

/-- Root under which a transition is signed. -/
def State.signRoot (s : State) (a b : Nat) : List Byte := if a = 2 ∧ 1 ≤ b then s.sec.ownerRoot else helverin

/-- Is a new owner store good: at most 16 certificates, each chaining to its owner root (R390)? -/
def storeOk (l : List (BitVec 2 × List Byte)) (root : List Byte) : Bool :=
  decide (l.length ≤ 16) && l.all (fun c => Config.chainVerifies c.2 root)

/-- Role of a code. -/
def roleOf (c : BitVec 2) : CertRole := match c.toNat with | 0 => .image | 1 => .os | 2 => .management | _ => .debug

/-- Is the body of a transition good (Table 17-6)? -/
def State.bodyOk (s : State) (a b : Nat) (body : List Byte) : Bool :=
  match a, b with
  | 0, 1 => true
  | 1, 2 => decide (Config.bodySerial body = Config.serial) && storeOk (Config.bodyStore body) (bytesAt (Config.bodyOwnerRoot body) 0 48)
  | 2, 2 => decide (s.sec.storeSeq < Config.bodySequence body) && storeOk (Config.bodyStore body) s.sec.ownerRoot
  | _, _ => decide (Config.bodySerial body = Config.serial)

/-- The owner store of a body is installed. -/
def Security.takeStore (x : Security) (body root : List Byte) : Security :=
  { x with
    store := (Config.bodyStore body).map (fun c => (roleOf c.1, c.2)), storeSeq := Config.bodySequence body, storeOn := true, ownerRoot := root }

/-- The store is erased. -/
def Security.dropStore (x : Security) : Security := { x with store := [], storeSeq := 0, storeOn := false, ownerRoot := zeros 48 }

/-- What a transition writes to fuses and flash. -/
def Security.lifecycleTo (x : Security) (a b : Nat) (body : List Byte) : Security :=
  let x := { x with lifecycle := BitVec.ofNat 2 b }
  match a, b with
  | 0, 1 => { x with deviceCert := body }
  | 1, 2 => x.takeStore body (bytesAt (Config.bodyOwnerRoot body) 0 48)
  | 2, 1 => x.dropStore
  | _, _ => x

/-- A job is aborted by a security action (R201). -/
def State.abortAny (s : State) : State := match s.lantern.job with | some j => s.abortWork j | none => s

/-- A transition other than DEPLOYED to DEPLOYED (R390): the job aborts, every key is destroyed, the debug session ends; a start follows in
which nothing is kept, in M-PILOT at the next exit. The answer goes out before that start. -/
def State.transit (s : State) (r : Request) (report : StartReport) (a b : Nat) (body : List Byte) : State :=
  let s := s.abortAny
  let s := s.destroyKeys (s.keysWhere (fun _ x => decide (x.state ≠ 0))) 5
  let s := { s.debugEnd with sec := s.debugEnd.sec.lifecycleTo a b body }
  let s := { s with sec := { s.sec with regions := [] } }
  let s := (s.logNote 3 (leBytes 1 a ++ leBytes 1 b)).respond 0x0503 r 0 []
  let s := { s with sec := { s.sec with rebootPending := true } }
  if s.inPilot then s else s.domainsOff.pilotExit report

/-- SEC_LIFECYCLE (R390). -/
def State.secLifecycle (s : State) (r : Request) (report : StartReport) : State :=
  let a := s.sec.lifecycle.toNat
  let b := r.field 0 1
  if !transition a b then s.respond 0x0503 r 3 []
  else if r.payload.length ≤ 4 then
    let q := s.giveChallenge r b false
    q.1.respond 0x0503 r q.2.1 q.2.2
  else
    match s.takeChallenge r b false with
    | (none, s) => s.authFails 0x0503 r
    | (some x, s) =>
      if !x.verifies (s.signRoot a b) || !s.bodyOk a b x.body then s.authFails 0x0503 r
      else if a = 2 ∧ b = 2 then
        ({ s with sec := s.sec.takeStore x.body s.sec.ownerRoot }.logNote 3 (leBytes 1 a ++ leBytes 1 b)).respond 0x0503 r 0 []
      else s.transit r report a b x.body

/-- SEC_LIFECYCLE. -/
def execSecLifecycle (r : Request) (report : StartReport) (s : State) : Out :=
  .next (s.serve 0x0503 r (fun s => s.secLifecycle r report))

/-- LIFECYCLE_CHALLENGE_EXPIRY (R390): a challenge not answered within 60 s goes. -/
def execLifecycleChallengeExpiry (src : Source) (s : State) : Out :=
  .next { s with sec := { s.sec with challenges := s.sec.challenges.filter (fun c => decide (c.src ≠ src)) } }

/-! ## Debug -/

/-- May a level be asked for in a lifecycle state (Table 17-9)? 1 OWNER only in DEPLOYED, 3 OPEN only in BLANK. -/
def levelAllowed (lifecycle level : Nat) : Bool :=
  match level with | 1 => decide (lifecycle = 2) | 2 => true | 3 => decide (lifecycle = 0) | _ => false

/-- Does a block open a level (R391)? -/
def State.debugAuth (s : State) (level : Nat) (x : AuthBlock) : Bool :=
  if level = 1 then x.verifies s.sec.ownerRoot && s.sec.store.contains (.debug, Config.chainLeaf x.chain) else x.verifies helverin

/-- The steps of R392 before a session in DEPLOYED becomes usable; VENDOR also restarts the host with no region kept, unless in M-PILOT. -/
def State.debugSteps (s : State) (level : Nat) (os : Option OsStage) : State :=
  if s.sec.lifecycle ≠ 2 then s
  else
    let s := s.abortAny
    let s := s.destroyKeys (s.keysWhere (fun k x => decide (k ≠ 0) && decide (x.state ≠ 0))) 4
    let s := { s with sec := { s.sec with debugActive := true, regions := [] } }
    if level = 2 ∧ !s.inPilot then s.hostRestart os false else s

/-- A session opens. -/
def State.debugOpen (s : State) (r : Request) (level : Nat) (os : Option OsStage) : State :=
  let s := s.debugSteps level os
  ({ s with sec := { s.sec with session := true, sessionVia := r.src, level := BitVec.ofNat 2 level } }.hdEvent 0x7001
    (leBytes 1 level)).respond 0x0504 r 0 []

/-- SEC_DEBUG (R391, R392): level 0 closes the session; OPEN needs no authorisation; a level that is not higher than the present one is
YST_STATE (DESIGN CHOICE). -/
def State.secDebug (s : State) (r : Request) (os : Option OsStage) : State :=
  let level := r.field 0 1
  if level = 0 then s.debugEnd.respond 0x0504 r 0 []
  else if !levelAllowed s.sec.lifecycle.toNat level then s.respond 0x0504 r 3 []
  else if level ≤ s.sec.level.toNat then s.respond 0x0504 r 5 []
  else if level = 3 then s.debugOpen r level os
  else if r.payload.length ≤ 4 then
    let q := s.giveChallenge r level true
    q.1.respond 0x0504 r q.2.1 q.2.2
  else
    match s.takeChallenge r level true with
    | (none, s) => s.authFails 0x0504 r
    | (some x, s) => if s.debugAuth level x then s.debugOpen r level os else s.authFails 0x0504 r

/-- SEC_DEBUG. -/
def execSecDebug (r : Request) (os : Option OsStage) (s : State) : Out := .next (s.serve 0x0504 r (fun s => s.secDebug r os))

/-- DEBUG_SESSION_EXPIRY (R391): 24 h after it opened. -/
def execDebugSessionExpiry (s : State) : Out := .next (if s.sec.session then s.debugEnd else s)

end Sys2Proof.Machine
end

