-- ==== Sys2Proof/Machine/YesiaSvc.lean ====
section
/-! DEFINITION. The service commands (18): staging and activation of firmware (R401 to R404), self-test in operation (R410), logs (R411, R412). -/
namespace Sys2Proof.Machine

/-! ## Staging (R401) -/

/-- Size of the staging area, 32 MiB. -/
def stagingSize : Nat := 2 ^ 25

/-- The checks of the last chunk: state, verify result, event with step 0 and the staged version. -/
def State.stageEnds (s : State) : State × Nat :=
  let v := imageCheck s.svc.minSvn s.svc.staging
  if v = 0 then
    ({ s with svc := { s.svc with staged := true, fwState := 2 } }.hdEvent 0x8002 (leBytes 1 0 ++ leBytes 4 (fwVersion s.svc.staging)), 0)
  else ({ s with svc := { s.svc with fwState := 0 } }, v)

/-- SVC_STAGE. A chunk that leaves a gap after what is staged, or runs past the area, is an argument out of range. -/
def State.svcStage (s : State) (r : Request) : State × Nat × List Byte :=
  let off := r.field 0 8
  let chunk := r.payload.drop 16
  let old := if off = 0 then [] else s.svc.staging
  if s.svc.fwState = 4 then (s, 5, [])
  else if old.length < off ∨ stagingSize < off + chunk.length then (s, 6, [])
  else
    let img := old.take off ++ chunk ++ old.drop (off + chunk.length)
    let s := { s with svc := { s.svc with staging := img, staged := false, fwState := 1 } }
    if bit (r.field 8 1) 0 then
      let q := s.stageEnds
      (q.1, 0, leBytes 8 img.length ++ leBytes 1 q.2)
    else (s, 0, leBytes 8 img.length)

/-- SVC_STAGE. -/
def execSvcStage (r : Request) (s : State) : Out := .next (s.serveNow 0x0601 r (fun s => s.svcStage r))

/-! ## Activation (R402, R403) -/

/-- The new firmware serves the mailboxes: what was retained stands, with the alias key of the new image (R378); the flash write starts. -/
def State.activated (s : State) (r : Request) : State :=
  let s := s.romPass s.svc.staging
  let s := { s with
    svc := { s.svc with running := s.svc.staging, fwState := 4, flashMatch := false, staged := false },
    lantern := { s.lantern with rom := false } }
  let us := Config.elapsedMicros s.freeCount
  let s := (s.logReset 7 []).fwEvent 1
  { s with freeCount := s.freeCount + 1 }.respond 0x0602 r 0 (leBytes 4 (fwVersion s.svc.running) ++ leBytes 4 us.toNat ++ leBytes 1 4)

/-- SVC_ACTIVATE when its state rule lets it through: the repeat of a failed flash write (R404); else the hand-over. -/
def State.svcActivate (s : State) (r : Request) (served : Bool) : State :=
  let digest := bytesAt r.payload 0 48
  if s.svc.fwState = 5 ∧ digest = fwDigest s.svc.running then
    ({ s with svc := { s.svc with fwState := 4 } }).respond 0x0602 r 0 (leBytes 4 (fwVersion s.svc.running) ++ leBytes 4 0 ++ leBytes 1 4)
  else if !s.svc.staged then s.respond 0x0602 r 5 []
  else if digest ≠ fwDigest s.svc.staging then s.respond 0x0602 r 6 []
  else
    let s := s.logsCopy
    if served && decide (imageCheck s.svc.minSvn s.svc.staging = 0) then s.activated r
    else
      { s with
        svc := { s.svc with activating := some r, fwState := 3 },
        lantern := { s.lantern with handover := true } }

/-- SVC_ACTIVATE. served: the new firmware serves the mailboxes within 250 ms; if not, or when
the ROM finds the staged image bad after all (step 3 of R402), the hand-over goes on to its time limit. -/
def execSvcActivate (r : Request) (served : Bool) (s : State) : Out :=
  .next (s.serve 0x0602 r (fun s => if s.jobBlocks || s.queueEnabled then s.respond 0x0602 r 5 [] else s.svcActivate r served))

/-- The ROM restarts the image in flash with the retained state when it is good; else it serves its minimal responder in M-PILOT. -/
def State.handoverFails (s : State) (r : Request) (good : Bool) : State :=
  let s := if good then s.romPass s.svc.flash else s
  let s := { s with
    svc := { s.svc with
      activating := none, fwState := 0, staged := false, staging := [], running := if good then s.svc.flash else [], flashMatch := good },
    lantern := { s.lantern with handover := false, rom := !good } }
  let s := ((s.logReset 7 []).fwEvent 3).respond 0x0602 r 0x10 []
  if good ∨ s.inPilot then s.takeHeld else (s.enterPilot 0x0101).takeHeld

/-- ACTIVATION_HANDOVER_TIMEOUT (R403). -/
def execActivationHandoverTimeout (s : State) : Out :=
  match s.svc.activating with
  | none => .next s
  | some r => .next (s.handoverFails r (decide (imageCheck s.svc.minSvn s.svc.flash = 0)))

/-- FLASH_WRITE_COMPLETE (R403, R404): the header is written, or the write failed and the slot is invalid. -/
def execFlashWriteComplete (ok : Bool) (s : State) : Out :=
  if s.svc.fwState ≠ 4 then .next s
  else if ok then .next ({ s with svc := { s.svc with flash := s.svc.running, fwState := 0, flashMatch := true } }.fwEvent 2)
  else .next ({ s with svc := { s.svc with flash := [], fwState := 5, flashMatch := false } }.fwEvent 5)

/-! ## Self-test in operation (R410, Table 18-8) -/

/-- A tile's test after the selected tests: bit 0 gives the memories' result, bit 1 that of its units. -/
def retest (mask : Nat) (old new : TileTest) : TileTest :=
  { (if bit mask 1 then new else old) with memOk := if bit mask 0 then new.memOk else old.memOk }

/-- Tests of a die after the selected tests; the report's key is 256 d + physical tile. -/
def State.retests (s : State) (d mask : Nat) (tiles : Map TileTest) : Map TileTest :=
  (List.range 136).foldl (fun m p => Map.put {} m p (retest mask (Map.get {} (s.die d).tests p) (Map.get {} tiles (256 * d + p)))) []

/-- Contents that the tests lose (Table 18-8) read 0 afterwards, as a store lost in a power state does (R104, DEDUCED). -/
def Tile.testedOut (k : Tile) (mask : Nat) : Tile :=
  let k := if bit mask 0 || bit mask 1 then { k with oc := [], ocBad := [], plates := [], plateBad := [] } else k
  if bit mask 0 then { k with ts := [], tsBad := [], regBad := [] } else k

/-- Tile tests of a die: what they lose, and the remap of the tiles that fail, at once. -/
def State.selftestTiles (s : State) (mask : Nat) (tiles : Map TileTest) (d : Nat) : State :=
  let x := s.die d
  let tests := s.retests d mask tiles
  let fails := x.units.filter (fun e => !(Map.get {} tests e.2.phys.toNat).passes && (Map.get {} x.tests e.2.phys.toNat).passes)
  let s := fails.foldl (fun s e => s.dieEvent d (e.1 % 32) 0x3002 (leBytes 1 e.1 ++ leBytes 1 e.2.phys.toNat)) s
  let m := buildMap tests [] x.units
  let s := s.modDie d (fun x => x.takeMap tests m)
  (List.range 128).foldl (fun s t =>
    let was := Map.get {} x.units t
    let now := Map.get {} m t
    let moved := decide (was.phys ≠ now.phys)
    let s := if moved then s.logNote 2 (leBytes 1 d ++ leBytes 1 t ++ leBytes 1 now.phys.toNat) else s
    s.modTile d t (fun k =>
      if !now.present then {}
      else
        let k := if was.present then k.testedOut mask else { power := .run }
        if moved && !k.tsBad.isEmpty then { k with ts := [], tsBad := [] } else k)) s

/-- A lane check of a module in service, whose result applies by R257. -/
def State.selftestLane (s : State) (lanes : Map LaneResult) (em : Nat × Nat) : State :=
  if ((s.link em.1).module em.2).st = .retired then s
  else
    let s := s.modLink em.1 (fun l => { (l.modModule em.2 (fun x => { x with
        checking := true, checkDue := false, checks := BitVec.ofNat 8 (satAdd 8 x.checks.toNat 1),
        checkTimes := x.checkTimes.filter (fun t => decide (s.timeNs < t + secondNs)) ++ [s.timeNs] })) with
      cntChecks := BitVec.ofNat 16 (satAdd 16 l.cntChecks.toNat 1) })
    (s.checkEnd em.1 em.2 (Map.get {} lanes (16 * em.1 + em.2))).modLink em.1 (fun l => l.modModule em.2 (fun x => { x with retraining := false }))

/-- The patrol path reads every served line; the ones with errors, by line number, decide. -/
def State.selftestLines (s : State) (lines : Map (List (List Byte))) : State :=
  lines.foldl (fun s e =>
    match s.place (128 * e.1) with
    | .mem c => if s.isFenced c e.1 then s else (s.controllerRead c e.1 1 e.2).2
    | _ => s) s

/-- The tests that passed, of the ones selected. -/
def State.selftestPassed (s : State) (mask : Nat) (tiles : Map TileTest) (lanes : Map LaneResult) (lines : Map (List (List Byte))) : Nat :=
  let tests := ((List.range 4).map (fun d => (List.range 136).map (fun p => Map.get {} tiles (256 * d + p)))).flatten
  let lane := allModules.all (fun em =>
    ((s.link em.1).module em.2).st = .retired ||
      (let r := Map.get {} lanes (16 * em.1 + em.2); decide (r.badTx = 0) && decide (r.badRx = 0) && r.clockOk))
  let line := lines.all (fun e => match s.place (128 * e.1) with | .mem c => s.isFenced c e.1 || !lineBad e.2 | _ => true)
  b2n (bit mask 0 && tests.all TileTest.memOk) + 2 * b2n (bit mask 1 && tests.all (fun x => ({ x with memOk := true } : TileTest).passes)) +
    4 * b2n (bit mask 2 && lane) + 8 * b2n (bit mask 3 && line)

/-- SVC_SELFTEST when its state rule lets it through. -/
def State.svcSelftest (s : State) (mask : Nat) (tiles : Map TileTest) (lanes : Map LaneResult) (lines : Map (List (List Byte))) :
    State × Nat × List Byte :=
  let passed := s.selftestPassed mask tiles lanes lines
  let s := if bit mask 0 || bit mask 1 then (List.range 4).foldl (fun s d => s.selftestTiles mask tiles d) s else s
  let s := if bit mask 2 then allModules.foldl (fun s em => s.selftestLane lanes em) s else s
  let s := if bit mask 3 then s.selftestLines lines else s
  (s, 0, leBytes 4 passed ++ leBytes 2 (if bit mask 2 then codeOf 0x0400 s.lostDies else 0))

/-- SVC_SELFTEST. The reports give the results of the tests: tiles by 256 d + physical tile, lanes by 16 e + m, lines with errors by line. -/
def execSvcSelftest (r : Request) (tiles : Map TileTest) (lanes : Map LaneResult) (lines : Map (List (List Byte))) (s : State) : Out :=
  .next (s.serveNow 0x0603 r (fun s =>
    if s.jobBlocks || s.queueEnabled then (s, 5, []) else s.svcSelftest (r.field 0 4) tiles lanes lines))

/-! ## Logs -/

/-- A log entry's 64 bytes (Table 18-10). -/
def LogEntry.bytes (e : LogEntry) : List Byte :=
  leBytes 4 e.seq ++ leBytes 4 e.boot ++ leBytes 8 e.time ++ bytesAt e.event 0 32 ++ bytesAt e.detail 0 16

/-- SVC_LOG (R412): count entries from sequence number first on, oldest first, at most 64. -/
def execSvcLog (r : Request) (s : State) : Out :=
  .next (s.serveNow 0x0604 r (fun s =>
    let l := (s.log (r.field 0 1)).entries.filter (fun e => decide (r.field 4 4 ≤ e.seq))
    (s, 0, ((l.take (min 64 (r.field 8 2))).map LogEntry.bytes).flatten)))

/-- LOG_FLASH_COPY (R411). -/
def execLogFlashCopy (s : State) : Out := .next (if s.power.state = .off then s else s.logsCopy)

end Sys2Proof.Machine
end

