-- ==== Sys2Proof/Machine/RegWrite.lean ====
section
/-! DEFINITION. Writes to registers (R10, R24, R25, R321 and the field tables of every chapter), and the register view. A write to a register,
or a bit of one, that has a row of its own does what that row does. -/
namespace Sys2Proof.Machine

/-- The state after a row's own command. -/
def State.by (s : State) (f : State → Out) : State := match f s with | .next t => t | _ => s

/-! ## Registers of the tile dies and controllers -/

/-- GXE_CTRL's actions and GXE_CTX_ADDR. -/
def State.writeGxe (s : State) (d : DieId) (t : TileId) (o v : Nat) : State :=
  if o = 0x10 then
    let n : Fin 32 := Fin.ofNat 32 v
    match slice v 10 8 with
    | 1 => s.by (execGxeReplay d t n)
    | 2 => s.by (execGxeSave d t n)
    | 3 => s.by (execGxeDiscard d t n)
    | 4 => s.by (execGxeRestore d t)
    | _ => s
  else if o = 0x18 then s.modTile d t (fun k => { k with ctxAddr := BitVec.ofNat 64 (slice v 47 7 * 128) })
  else s

/-- WQ_CTRL: resume, then reset. -/
def State.writeWqCtrl (s : State) (d : DieId) (q : Fin 16) (v : Nat) : State :=
  let s := if bit v 0 then s.by (execWqCtrlResume d q) else s
  if bit v 1 then s.by (execWqCtrlReset d q) else s

/-- The registers of a work queue. -/
def State.writeWq (s : State) (d : DieId) (q : Fin 16) (o v : Nat) : State :=
  let addr : DWord := BitVec.ofNat 64 (slice v 47 12 * 4096)
  match o with
  | 0x00 => s.writeWqCfg d q v
  | 0x08 => s.modWq d q (fun w => if w.enable then w else { w with base := addr })
  | 0x10 => s.modWq d q (fun w => if w.enable then w else { w with cqBase := addr })
  | 0x18 => s.by (execWqDoorbell d q (BitVec.ofNat 32 v) false)
  | 0x28 => s.modWq d q (fun w => { w with early := w.early && !bit v 3, badDb := w.badDb && !bit v 4 })
  | 0x30 => s.writeWqCtrl d q v
  | 0x48 => s.modWq d q (fun w => { w with msix := BitVec.ofNat 11 v })
  | _ => s

/-- DC_CTRL, DC_WAYMASK (locked while a job runs, R222) and DC_CONG, whose masks end with the event bit that software clears
(DESIGN CHOICE: the spec gives them no end). -/
def State.writeDc (s : State) (d : DieId) (o v : Nat) : State :=
  let mod (f : DieCache → DieCache) (s : State) : State := s.modDie d (fun x => { x with dc := f x.dc })
  match o with
  | 0x00 =>
    let s := mod (fun c => { c with streamBypass := if c.locked then c.streamBypass else bit v 0, pfDetect := bit v 1 }) s
    if bit v 2 then s.by (execDcFlush d) else s
  | 0x08 => mod (fun c => if c.locked then c else { c with waymask := BitVec.ofNat 64 v }) s
  | 0x10 => mod (fun c => if bit v 32 then { c with satEvent := false, satMask := 0 } else c) s
  | _ => s

/-- Does a job run on the module: are its dies locked (R222)? -/
def State.jobRuns (s : State) : Bool := s.dies.any (fun e => e.2.dc.locked)

/-- FAB_CFG: enable starts or ends a port; the mode is set for all 24 ports at once and not while a job runs (R278), and ports that were
up train again under it. -/
def State.writePort (s : State) (p v : Nat) : State :=
  let x := s.port p
  let j6 := if s.jobRuns then bit x.cfg.toNat 1 else bit v 1
  let changed := decide (j6 ≠ bit x.cfg.toNat 1)
  let s := s.modPort p (fun x => { x with cfg := BitVec.ofNat 32 (v % 2 ^ 32 / 256 * 256 + b2n (bit v 0) + 2 * b2n j6) })
  let s :=
    if !bit v 0 then (s.modPort p (fun x => { x with state := 0, width := 0, partner := 0 })).reroute p
    else if x.state = 0 ∨ x.state = 4 ∨ x.state = 5 then s.modPort p (fun x => { x with state := 1, width := 0, trainFail := 0 })
    else s
  if !changed then s
  else
    (List.range 24).foldl (fun s k =>
      let s := s.modPort k (fun x => { x with cfg := BitVec.ofNat 32 (x.cfg.toNat / 4 * 4 + x.cfg.toNat % 2 + 2 * b2n j6) })
      if (s.port k).state = 2 ∨ (s.port k).state = 3 then (s.modPort k (fun x => { x with state := 1, width := 0, partner := 0 })).reroute k
      else s) s

/-- MC_RAKE_CFG (R233) and MC_CONG. -/
def State.writeMc (s : State) (c o v : Nat) : State :=
  let p := v % 256
  match o with
  | 0x200 => s.modCtrl c (fun m => { m with rakeNext := if p = 0 ∨ 168 < p then 24 else BitVec.ofNat 8 p, rakeEnable := bit v 8 })
  | 0x400 => s.modCtrl c (fun m => if bit v 32 then { m with satEvent := false, satMask := 0 } else m)
  | _ => s

/-! ## Registers of the host die -/

/-- HOST_HB_CFG: the period, enable, and the restart (R326) with the stage that boots then. -/
def State.writeHb (s : State) (v : Nat) (os : Option OsStage) : State :=
  let p := slice v 15 2
  let s := { s with host := { s.host with
    hbEnable := bit v 0, hbPeriod := if p < 10 ∨ 6000 < p then 100 else BitVec.ofNat 14 p } }
  if bit v 1 then s.by (execHostHbRestart os) else s

/-- A mailbox's registers and request buffers (Table 15-2). A buffer is written by 8-byte words. -/
def State.writeBox (s : State) (eh : Bool) (o v : Nat) : State :=
  let w : Word := BitVec.ofNat 32 v
  let b := b2n eh
  if 0x2000 ≤ o ∧ o < 0xA000 then
    let i := (o - 0x2000) / 0x2000
    s.modBox b (fun m => { m with
      reqBufs := Map.put [] m.reqBufs i (patch (bytesAt (Map.get [] m.reqBufs i) 0 4112) (o % 0x2000) (leBytes 8 v)) })
  else
    match o with
    | 0x00 => s.by (execMbxReqDb eh w)
    | 0x18 => s.by (execMbxRspAck eh)
    | 0x28 => s.by (execMbxEvtTail eh w)
    | 0x38 => s.modBox b (fun m => { m with evtMask := BitVec.ofNat 16 v })
    | 0x40 => if eh then s.modBox b (fun m => { m with irq := BitVec.ofNat 32 (v % 2 ^ 24) }) else s
    | _ => s

/-- Enable or clear sources of an APLIC domain by number. -/
def State.aplicSet (s : State) (child : Bool) (mask : Nat) (enable : Bool) : State :=
  let m : DWord := BitVec.ofNat 64 (mask % 2 ^ 64 / 2 * 2)
  if enable then (List.range 64).foldl (fun s n => s.aplicSend child n) (s.modAplic child (fun a => { a with enabled := a.enabled ||| m }))
  else s.modAplic child (fun a => { a with enabled := a.enabled &&& ~~~m })

/-- sourcecfg: the root domain may give a source to its child (bit 10), else bits 2 to 0 are its mode, of which 2 and 3 are reserved; an inactive source is
neither enabled nor pending (PRESUMED, RISC-V AIA). -/
def State.aplicSource (s : State) (child : Bool) (n v : Nat) : State :=
  let mode := if v % 8 = 2 ∨ v % 8 = 3 ∨ (child && !s.host.sourceDomain n) then 0 else v % 8
  let w := if bit v 10 then (if child then 0 else 0x400) else mode
  let off (a : Aplic) : Aplic :=
    let m : DWord := ~~~BitVec.ofNat 64 (2 ^ n)
    { a with enabled := a.enabled &&& m, pending := a.pending &&& m }
  let s := s.modAplic child (fun a => let a := { a with source := Map.put 0 a.source n (BitVec.ofNat 32 w) }; if w % 8 = 0 then off a else a)
  if child || bit w 10 then s else s.modAplic true (fun a => off { a with source := Map.del a.source n })

/-- A write to an APLIC domain (R317; PRESUMED: RISC-V AIA). Big-endian mode and the MSI address registers are not there. -/
def State.writeAplic (s : State) (child : Bool) (o v : Nat) : State :=
  let v := v % 2 ^ 32
  let pend (l : List Nat) (s : State) : State := l.foldl (fun s n => s.aplicPend child n) s
  let bits (base : Nat) : List Nat := ((List.range 32).filter (bit v)).map (fun i => i + 8 * (o - base))
  let clear (m : Nat) : State := s.modAplic child (fun a => { a with pending := a.pending &&& ~~~BitVec.ofNat 64 m })
  if o = 0 then (List.range 64).foldl (fun s n => s.aplicSend child n) (s.modAplic child (fun a => { a with ie := bit v 8 }))
  else if o < 0x100 then s.aplicSource child (o / 4) v
  else if o = 0x1C00 ∨ o = 0x1C04 then pend (bits 0x1C00) s
  else if o = 0x1CDC ∨ o = 0x2000 then s.aplicPend child v
  else if o = 0x1D00 ∨ o = 0x1D04 then clear (v * 2 ^ (8 * (o - 0x1D00)))
  else if o = 0x1DDC then clear (2 ^ (v % 64))
  else if o = 0x1E00 ∨ o = 0x1E04 then s.aplicSet child (v * 2 ^ (8 * (o - 0x1E00))) true
  else if o = 0x1EDC then (if v < 64 then s.aplicSet child (2 ^ v) true else s)
  else if o = 0x1F00 ∨ o = 0x1F04 then s.aplicSet child (v * 2 ^ (8 * (o - 0x1F00))) false
  else if o = 0x1FDC then (if v < 64 then s.aplicSet child (2 ^ v) false else s)
  else if o = 0x3000 then s.aplicMsi child v
  else if 0x3004 ≤ o ∧ o < 0x3100 then
    s.modAplic child (fun a => { a with target := Map.put 0 a.target ((o - 0x3000) / 4) (BitVec.ofNat 32 (v / 2 ^ 18 * 2 ^ 18 + v % 2 ^ 11)) })
  else s

/-- A write to the first word of an IMSIC page sets the written identity pending (PRESUMED, RISC-V AIA). -/
def imsicIdent (o v : Nat) : Bool := decide (o = 0) && decide (1 ≤ v % 2 ^ 32) && decide (v % 2 ^ 32 ≤ 2047)

/-- Write a register by the access types of its fields. Registers of another standard keep no value of it; a repair window acts at VENDOR and above
(R236). -/
def State.regWrite (s : State) (who : RegAgent) (r : Reg) (v : Nat) (os : Option OsStage) : State :=
  match r with
  | .gxe d t o => s.writeGxe (Fin.ofNat 4 d) (Fin.ofNat 128 t) o v
  | .wq d q o => s.writeWq (Fin.ofNat 4 d) (Fin.ofNat 16 q) o v
  | .dc d o => s.writeDc (Fin.ofNat 4 d) o v
  | .port p o => if o = 0x10 then s.writePort p v else s
  | .route d n =>
    if who = .lantern then s.modDie d (fun x => { x with routes := Map.put 0 x.routes n (BitVec.ofNat 16 (v % 2 ^ 9)) }) else s
  | .ce d e o => if o = 8 ∧ bit v 4 then s.modCe d e (fun c => { c with satEvent := false }) else s
  | .tileCfg d => s.modDie d (fun x => { x with tileCfg := BitVec.ofNat 32 (v % 2 ^ 24) })
  | .mc c o => s.writeMc c o v
  | .intSteer k => { s with host := { s.host with intSteer := Map.put 0 s.host.intSteer k (BitVec.ofNat 32 (v % 2 ^ 19)) } }
  | .pe1Dma i => { s with host := { s.host with dma := Map.put 0 s.host.dma i (BitVec.ofNat 64 (v % 2 ^ 48)) } }
  | .pe1Win => match who with | .core _ => { s with host := { s.host with pe1Win := BitVec.ofNat 64 v &&& winMask } } | _ => s
  | .hbCfg => s.writeHb v os
  | .hbBeat => s.by execHostHbBeat
  | .box b o => s.writeBox (decide (b = 1)) o v
  | .modCfg => { s with power := { s.power with modCfg := BitVec.ofNat 32 (v % 2 ^ 16) } }
  | .pwrCpu => s.by (execPwrCpu (BitVec.ofNat 32 v))
  | .imsicM h o => if imsicIdent o v then s.imsicPendM h (v % 2 ^ 32) else s
  | .imsicS h o => if imsicIdent o v then s.imsicPend h (v % 2 ^ 32) else s
  | .tdPosition _ => s
  | .tdTileCount _ => s
  | .tdUnitMap _ _ => s
  | .bundle _ _ => s
  | .repair c o => if 2 ≤ s.sec.level.toNat then s.repairWindow c o v else s
  | .common => s
  | .fabNode => s
  | .timeNow => s
  | .pwrIn => s
  | .pwrStatus => s
  | .rail _ => s
  | .therm => s
  | .secState => s
  | .secKid _ => s
  | .fwStatus => s
  | .aplic o => s.writeAplic (decide (0x8000 ≤ o)) (o % 0x8000) v
  | .pe1Space _ => s

/-! ## Who reaches which register -/

/-- Agent codes of Table 08-8. -/
def regAgentCode (w : RegAgent) : Nat :=
  match w with | .core h => hartAgent h.val | .csr h => hartAgent h.val | .lantern => 5 | .hostBar4 => 3 + 16 * 2 | _ => 3 + 16

/-- The register at a physical address, while the power domain of its block is on (Table 01-11); the controllers of the capacity tier stand on
the HD of either variant (R2). DESIGN CHOICE: a register of a domain that is off answers as an unmapped address (notes/assumptions/89). -/
def State.regFind (s : State) (a : Nat) : Option Reg := (regAt a).filter (fun r => s.domainOn r.domain)

/-- Does the register view reach a register (R321, Table 17-8)? The operating-system mailbox only at OPEN; the repair windows from VENDOR on. -/
def State.hostReaches (s : State) (r : Reg) : Bool :=
  match r with
  | .box _ _ => decide (s.sec.level = 3)
  | .repair _ _ => decide (2 ≤ s.sec.level.toNat)
  | _ => true

/-- A write that reaches no register (Table 01-9): logged; a core takes a store access fault, a host's write is discarded. -/
def State.writeUnmapped (s : State) (who : RegAgent) (a : Nat) : State :=
  let s := s.logAccess 0 a (regAgentCode who)
  match who with
  | .core h => (s.trap h 7 a).reply (.fault 7)
  | _ => s.reply .discarded

/-- A write that reaches a register; one to a repair window below VENDOR is logged (R236). -/
def State.writeReg (s : State) (who : RegAgent) (r : Reg) (v : Nat) (os : Option OsStage) : State :=
  let s := match r with
    | .repair _ o => if 2 ≤ s.sec.level.toNat then s else (s.logAccess 3 o (regAgentCode who)).logNote 3 (leBytes 8 o ++ leBytes 2 (regAgentCode who))
    | _ => s
  (s.regWrite who r v os).reply .done

/-- The physical address of a register-view offset. -/
def State.viewAddr (s : State) (o : Nat) : Nat := 0x0F0000000000 + s.host.regwin.toNat % 256 * 2 ^ 24 + o

/-- A write that the host makes at an address of the register space. -/
def State.hostWriteAt (s : State) (a v : Nat) (os : Option OsStage) : State :=
  match s.regFind a with
  | some r => if s.hostReaches r then s.writeReg .host r v os else s.writeUnmapped .host a
  | none => s.writeUnmapped .host a

/-- A read that the host makes at an address of the register space. -/
def State.hostReadAt (s : State) (a n : Nat) : State :=
  match (s.regFind a).filter (fun r => s.hostReaches r) with
  | some r => let q := s.regRead r (3 + 16); q.2.reply (.bytes (q.1.take n))
  | none => (s.logAccess 0 a (3 + 16)).reply .unsupported

/-- A write through the register view. -/
def State.viewWrite (s : State) (o v : Nat) (os : Option OsStage) : State := s.hostWriteAt (s.viewAddr o) v os

/-- A read through the register view. -/
def State.viewRead (s : State) (o n : Nat) : State := s.hostReadAt (s.viewAddr o) n

/-- A write at an offset of BAR0 (Table 14-6). -/
def State.bar0Write (s : State) (o v : Nat) (os : Option OsStage) : State :=
  if o = 0x1000 then (s.by (execWinBaseWrite (BitVec.ofNat 64 v))).reply .done
  else if o = 0x1008 then { s with host := { s.host with regwin := BitVec.ofNat 32 (v % 256) } }.reply .done
  else if 0x10000 ≤ o ∧ o < 0x20000 then (s.writeBox true (o - 0x10000) v).reply .done
  else if 0x1000000 ≤ o ∧ o < 0x2000000 then s.viewWrite (o - 0x1000000) v os
  else s.reply .discarded

/-- A vector that was pending behind its mask goes out when it is unmasked (PRESUMED, PCIe). -/
def State.msixUnmask (s : State) (v : Nat) : State :=
  if Map.get false s.host.msixPba v && !s.msixMasked v && s.host.msixEnable then
    { s with host := { s.host with msixPba := Map.del s.host.msixPba v, msixSent := s.host.msixSent ++ [v] } }
  else s

/-- A write at an offset of BAR4 (Table 14-5): the MSI-X table by 4-byte words, and the doorbell pages. -/
def State.bar4Write (s : State) (o v : Nat) : State :=
  if o < 0x8000 ∧ o % 4 = 0 then
    let k := o / 16
    let old := bytesAt (Map.get (zeros 12 ++ [1, 0, 0, 0]) s.host.msixTable k) 0 16
    let s := { s with host := { s.host with
      msixTable := Map.put (zeros 12 ++ [1, 0, 0, 0]) s.host.msixTable k (patch old (o % 16) (leBytes 4 v)) } }
    (s.msixUnmask k).reply .done
  else if 0x100000 ≤ o ∧ o < 0x140000 then
    let n := (o - 0x100000) / 0x1000
    if o % 0x1000 = 0 then (s.by (execWqDoorbell (Fin.ofNat 4 (n / 16)) (Fin.ofNat 16 n) (BitVec.ofNat 32 v) true)).reply .done
    else s.reply .done
  else s.reply .discarded

/-- The lowest identity of an interrupt file is claimed. -/
def claimLow (m : Map (List Nat)) (h : Nat) : Map (List Nat) :=
  let l := Map.get [] m h
  Map.put [] m h (l.erase (l.foldl min (l.headD 0)))

/-- A CSR write of a hart: jlcfg, 0x7C0 (R313); stopei and mtopei claim the lowest pending identity of the hart's S-level and M-level interrupt file
(PRESUMED: RISC-V AIA; which identities a file enables is left to the harts). -/
def State.csrWrite (s : State) (h : Nat) (n v : Nat) : State :=
  match n with
  | 0x7C0 => s.modHart h (fun x => { x with kidEn := bit v 0, uinval := bit v 1 })
  | 0x15C => { s with host := { s.host with imsicS := claimLow s.host.imsicS h } }
  | 0x35C => { s with host := { s.host with imsicM := claimLow s.host.imsicM h } }
  | _ => s

/-- The power domain that an agent of R24 runs in (Table 01-11). -/
def agentDomain (w : RegAgent) : Domain :=
  match w with
  | .core _ => .cpu
  | .csr _ => .cpu
  | .lantern => .lnt
  | .host => .pe0
  | .hostBar4 => .pe0
  | .hostBarReg => .pe0
  | .hostMsix => .pe0

/-- REGISTER_WRITE, by an agent whose power domain is on. value is the whole register; os the stage that boots when the write restarts the
host. -/
def execRegisterWrite (who : RegAgent) (addr value : DWord) (os : Option OsStage) (s : State) : Out :=
  let a := addr.toNat
  let v := value.toNat
  if !s.domainOn (agentDomain who) then .next s
  else
  match who with
  | .host => .next (s.bar0Write a v os)
  | .hostBar4 => .next (s.bar4Write a v)
  | .hostBarReg =>
    .next (if a = 0 ∨ a = 2 ∨ a = 4 then { s with host := { s.host with bars := Map.put 0 s.host.bars a value } } else s)
  | .hostMsix =>
    .next ((List.range 2048).foldl State.msixUnmask { s with host := { s.host with msixEnable := bit v 15 } })
  | .csr h => .next (s.csrWrite h a v)
  | .core h =>
    .next (match s.regFind a with | some r => s.writeReg (.core h) r v os | none => s.writeUnmapped (.core h) a)
  | .lantern =>
    .next (match s.regFind a with | some r => s.writeReg .lantern r v os | none => s.writeUnmapped .lantern a)

/-- REGISTER_VIEW_ACCESS (R321): BAR0 offset 0x0100_0000 + offset; registers are accessed whole. -/
def execRegisterViewAccess (offset : BitVec 24) (a : Access) (os : Option OsStage) (s : State) : Out :=
  if !s.domainOn .pe0 then .next s
  else
  match a with
  | .read n => .next (s.viewRead offset.toNat n)
  | .write l => .next (s.viewWrite offset.toNat (fieldAt l 0 8) os)

end Sys2Proof.Machine
end

