-- ==== Sys2Proof/Machine/LinkRows.lean ====
section
/-! DEFINITION. The rows of the die links' flits (R252 to R256), and what a message does at the die it is for (Table 11-5). -/
namespace Sys2Proof.Machine

/-! ## Messages at their destination -/

/-- The caching agent that a unit of the HD is. -/
def unitCache (u : Nat) : Option CacheId := if h : u < 13 then some ⟨u, h⟩ else none

/-- The coherence message under way that a message on the bundles stands for: of its kind, line or tag, and ends. -/
def LinkMsg.carries (k : LinkMsg) (m : CohMsg) : Bool :=
  let x := m.link k.sdie k.key
  decide (x.chan = k.chan) && decide (x.op = k.op) && decide (x.tag = k.tag) && decide (x.src = k.src) && decide (x.ddie = k.ddie) &&
    decide (x.dst = k.dst) && decide (x.body = k.body)

/-- The requester that a message's source unit is. -/
def LinkMsg.requester (k : LinkMsg) : Requester := ⟨BitVec.ofNat 16 (unitAgentCode k.sdie k.src), false⟩

/-- The line that a request names. -/
def LinkMsg.line (k : LinkMsg) : Nat := k.body.headD 0 % 2 ^ 48 / 128

/-- A request at a home (Table 11-5, memory channel). The unit after the address of an ATOM holds op in bits 3:0, wide in 4 and the byte in 11:5; operand
and compare value follow (DESIGN CHOICE: no layout is given). -/
def State.linkRequest (s : State) (k : LinkMsg) : State :=
  let l := k.line
  let p : Party := match k.sdie, unitCache k.src with | 4, some a => .cache a | _, _ => .other k.requester
  let t (req : HomeReq) : HomeTxn := txnOf req p k.key
  let cached (req : HomeReq) : State :=
    if (s.lineCtrl l).isSome && s.holds (s.partyHolder p) k.key then s.homeArrive l (t req) else s.logAccess 0 (128 * l) (partyAgent p)
  let line41 : LineAddr := BitVec.ofNat 41 l
  let u (n : Nat) : Nat := k.body.getD n 0
  match k.op with
  | 0x01 => cached .rdS
  | 0x02 => cached .rdU
  | 0x03 => cached .upg
  | 0x05 => match p with | .cache a => s.by (execEvc a line41 (Fin.ofNat 64 k.key)) | .other _ => s
  | 0x06 => s.unitRequest line41 (t .rdSn)
  | 0x07 => s.unitRequest line41 { t .wrFull with data := bytesAt (unitBytes (k.body.drop 1)) 0 128 }
  | 0x08 => s.unitRequest line41 { t .wrPart with mask := u 1 + 2 ^ 64 * u 2, data := bytesAt (unitBytes (k.body.drop 3)) 0 128 }
  | 0x09 => s.unitRequest line41 { t .atom with
      op := ⟨BitVec.ofNat 4 (u 1), bit (u 1) 4, BitVec.ofNat 7 (slice (u 1) 11 5), BitVec.ofNat 64 (u 2), BitVec.ofNat 64 (u 3)⟩ }
  | _ => s

/-- The response to a register or store read (Table 11-5, 0x0C) goes back to its requester. -/
def State.linkRespond (s : State) (k : LinkMsg) (l : List Byte) : State :=
  s.linkSend k.ddie false { chan := 1, op := 0x0C, tag := k.tag, key := k.key, src := k.dst, sdie := k.ddie, ddie := k.sdie, dst := k.src, body := unitsOf 1 l }

/-- A read of a register or of a tile store. -/
def State.linkRead (s : State) (k : LinkMsg) : State :=
  let a := k.body.headD 0 % 2 ^ 48
  match s.place a with
  | .ts _ _ _ =>
    match s.readMem ⟨k.requester.agent.toNat, 0, .anyone, k.key, false⟩ a 8 with
    | (.ok l, s) => s.linkRespond k l
    | (.error _, s) => s
  | _ =>
    match s.regFind a with
    | some r => let q := s.regRead r k.requester.agent.toNat; q.2.linkRespond k q.1
    | none => s.logAccess 0 a k.requester.agent.toNat

/-- A write of a register or of a tile store: by a core or by the Lantern (R24). -/
def State.linkWrite (s : State) (k : LinkMsg) : State :=
  let a := k.body.headD 0 % 2 ^ 48
  let v := k.body.getD 1 0
  let agent := k.requester.agent.toNat
  match s.place a with
  | .ts _ _ _ => (s.writeMem ⟨agent, 0, .anyone, k.key, false⟩ a (leBytes 8 v)).2
  | _ =>
    match s.regFind a, agent % 16 with
    | some r, 0 => s.writeReg (.core (Fin.ofNat 96 (agent / 16))) r v none
    | some r, 5 => s.writeReg .lantern r v none
    | _, _ => s.logAccess 0 a agent

/-- A semaphore update: the unit holds the semaphore in bits 15:0 and set in bit 16, the next one the value (DESIGN CHOICE: no layout is given). -/
def State.linkSem (s : State) (k : LinkMsg) : State :=
  let u := k.body.headD 0
  if k.ddie < 4 then s.semUpdate k.ddie (u % 65536) (bit u 16) (k.body.getD 1 0) else s

/-- A message at its die. Interrupt messages hold the hart in bits 15:0 and the identity in 31:16; event records and debug traffic have no layout
here: a record raises its event by its code, debug contents are left out (DESIGN CHOICE). -/
def State.linkAct (s : State) (k : LinkMsg) : State :=
  match s.pool.msgs.find? k.carries with
  | some m => (match m with
    | .data (.other r) l _ _ _ => s.by (execData (.other r) (BitVec.ofNat 41 l))
    | .data (.cache a) l _ _ true => s.by (execData (.cache a) (BitVec.ofNat 41 l))
    | .comp (.other r) l => s.by (execComp (.other r) (BitVec.ofNat 41 l))
    | _ => s.arrive m)
  | none =>
    match k.chan, k.op with
    | 0, 0x04 => match k.sdie, unitCache k.src with
      | 4, some a => s.by (execWb a (BitVec.ofNat 41 k.line) (Fin.ofNat 64 k.key) (unitBytes (k.body.drop 1)))
      | _, _ => s
    | 0, 0x10 => s.linkRead k
    | 0, 0x11 => s.linkWrite k
    | 0, 0x12 => s.linkSem k
    | 0, _ => s.linkRequest k
    | 1, 0x0C => s.reply (.bytes (unitBytes k.body))
    | 2, 0x01 => let u := k.body.headD 0; if u % 65536 < 96 ∧ 1 ≤ slice u 31 16 ∧ slice u 31 16 ≤ 2047 then s.imsicPend (u % 65536) (slice u 31 16) else s
    | 2, 0x02 => s.event (k.body.headD 0 % 65536) (slice (k.body.headD 0) 31 24) ((unitBytes k.body).drop 16)
    | _, _ => s

/-- A message that an end delivers: taken in at its die, or sent on to it. -/
def State.linkDeliver (s : State) (e : Nat) (k : LinkMsg) : State :=
  if k.ddie = endNode e then (s.modLink e (fun l => { l with inbox := l.inbox ++ [k] })).linkAct k
  else s.linkSend (endNode e) (decide (k.chan ≤ 1) && decide (k.tag % 2 = 1)) k

/-! ## Flits -/

/-- D2D_FLIT_RECEIVE (R256): a bad CRC is dropped and nak'd; flits are delivered in sequence order whatever module they came on. -/
def execD2dFlitReceive (e : LinkEnd) (m : Fin 12) (flit : List Byte) (s : State) : Out :=
  let l := s.link e
  if !(l.module m).serves then .next s
  else if !d2dOk flit then .next ((s.modLink e (fun l => { l with nak := true })).countReplay e m)
  else
    let h := fieldAt flit 0 4
    if slice h 2 0 = 7 then .next ((s.modLink e (fun l => l.control (fieldAt flit 4 56))).linkPump e)
    else
      let seq := slice h 14 3
      if (seq + 4096 - l.rxNext.toNat) % 4096 < 2048 then
        let r := LinkEnd_.deliver (l.held.length + 1) { l with held := Map.ins l.held seq flit } []
        .next (r.2.foldl (fun s k => s.linkDeliver e k) (s.modLink e (fun _ => r.1)))
      else .next (s.modLink e (fun l => { l with owesAck := true }))

/-- LINK_CONTROL_FLIT (R255). -/
def execLinkControlFlit (e : LinkEnd) (flit : List Byte) (s : State) : Out :=
  if d2dOk flit && decide (slice (fieldAt flit 0 4) 2 0 = 7) then .next ((s.modLink e (fun l => l.control (fieldAt flit 4 56))).linkPump e) else .next s

/-- LINK_CONTROL_DUE (R255). -/
def execLinkControlDue (e : LinkEnd) (s : State) : Out :=
  let l := s.link e
  if l.owesAck || l.nak || !l.owedCredits.isEmpty then
    .next (s.modLink e (fun l => { (l.emit e l.controlFlit).1 with owesAck := false, nak := false, owedCredits := [] }))
  else .next s

end Sys2Proof.Machine
end

