-- ==== Sys2Proof/Machine/Sideband.lean ====
section
/-! DEFINITION. The sideband outputs (R419, R423), the I3C target's addresses (R425), the JTAG chain (R427, Table 17-8). -/
namespace Sys2Proof.Machine

/-! ## Outputs -/

/-- Level of ALERT_N: low while the I3C source of the MG mailbox holds an undelivered message (R419). -/
def State.alertN (s : State) : Bool := (s.box 2).i3cOut.isEmpty

/-- Level of THERMTRIP_N (R419). -/
def State.thermtripN (s : State) : Bool := !s.pins.thermtrip

/-- Is REFCLK1 driven (R423)? In root-port mode only. -/
def State.refclk1 (s : State) : Bool := decide (s.power.state ≠ .off) && s.host.pe1Root

/-! ## The I3C target -/

/-- Static address (R425). -/
def State.i3cStatic (s : State) : BitVec 7 := BitVec.ofNat 7 (0x30 + s.pins.slotId.toNat % 4)

/-- Low 32 bits of the provisional ID: those of the serial number (R425). -/
def i3cProvisional : Word := BitVec.ofNat 32 Config.serial.toNat

/-- The target takes a dynamic address while it is powered and has none (PRESUMED, I3C Basic). -/
def State.i3cAssign (s : State) (addr : BitVec 7) : State :=
  if s.power.state = .off ∨ s.pins.i3cAddr.isSome then s else { s with pins := { s.pins with i3cAddr := some addr } }

/-- SETDASA to a static address: the target takes the address when it is its own (R425). -/
def execSetdasa (a : DasaAddr) (s : State) : Out := .next (if a.stat = s.i3cStatic then s.i3cAssign a.addr else s)

/-- ENTDAA: the target puts its provisional ID on the bus and takes the address. -/
def execEntdaa (addr : BitVec 7) (s : State) : Out :=
  if s.power.state = .off ∨ s.pins.i3cAddr.isSome then .next s
  else .next { s.i3cAssign addr with pins := { (s.i3cAssign addr).pins with i3cPid := i3cProvisional } }

/-! ## JTAG -/

/-- What the instruction of a TAP selects (Config.jtagInstruction codes): after TRST_N the IDCODE, of all ones BYPASS (PRESUMED, IEEE 1149.1).
An instruction that the debug level does not reach acts as BYPASS: 3 asks for OWNER, 4 for VENDOR, 5 for OPEN. -/
def State.tapSelects (s : State) (tap : Nat) : Nat :=
  match Map.get 0 s.pins.jtagIr tap with
  | 0 => 1
  | n + 1 =>
    if n = 0xFF then 0
    else
      let k := (Config.jtagInstruction (BitVec.ofNat 8 n)).toNat
      if 5 < k ∨ (3 ≤ k ∧ s.sec.level.toNat + 2 < k) then 0 else k

/-- IDCODE of a TAP: the HD, or a tile die. -/
def idcode (tap : Nat) : Nat := if tap = 0 then 0x2C8A1D4B else 0x2C8A2D4B

/-- Bits of a number, least significant first. -/
def bitsOf (n x : Nat) : List Bool := (List.range n).map (bit x)

/-- n free bits, one free value each. -/
def freeBits (s : State) : Nat → List Bool
  | 0 => []
  | n + 1 => (Config.freeValue 1 (s.freeCount + n)).getLsbD 0 :: freeBits s n

/-- A shift of the data register: BYPASS delays by one bit, IDCODE's word comes first; what another register holds is free. -/
def State.shiftDr (s : State) (tap : Nat) (bits : List Bool) : List Bool × State :=
  match s.tapSelects tap with
  | 0 => ((false :: bits).take bits.length, s)
  | 1 => ((bitsOf 32 (idcode tap) ++ bits).take bits.length, s)
  | _ => (freeBits s bits.length, { s with freeCount := s.freeCount + bits.length })

/-- A shift through the chain: from TDI through HD, TD0 to TD3 to TDO (R427). -/
def State.chainDr (s : State) (bits : List Bool) : List Bool × State :=
  (List.range 5).foldl (fun (q : List Bool × State) tap => q.2.shiftDr tap q.1) (bits, s)

/-- JTAG_TAP_ACCESS (R427). Nothing answers without VDD_IO. -/
def execJtagTapAccess (op : JtagOp) (tdi : List Bool) (s : State) : Out :=
  if s.power.state = .off then .next s
  else
    match op with
    | .shiftIr ir => .next { s with pins := { s.pins with
        jtagIr := (List.range 5).foldl (fun m k => Map.put 0 m k (slice ir.toNat (8 * k + 7) (8 * k) + 1)) s.pins.jtagIr } }
    | .shiftDr => let q := s.chainDr tdi; .next { q.2 with pins := { q.2.pins with jtagOut := q.1 } }
    | .trst => .next { s with pins := { s.pins with jtagIr := [] } }

end Sys2Proof.Machine
end

