-- ==== Sys2Proof/Machine/Spdm.lean ====
section
/-! DEFINITION. The SPDM responder (R382): its messages, algorithms, certificate slot and measurement blocks are the spec's; the layout of the
messages is that of DSP0274 1.2 and 1.3 (PRESUMED). It answers while Lantern firmware runs. -/
namespace Sys2Proof.Machine

/-- Set the answer of the responder. -/
def State.spdmSend (s : State) (m : List Byte) : State := { s with pins := { s.pins with spdmOut := m } }

/-- An answer's version byte: the negotiated version, 1.2 before. -/
def State.spdmVer (s : State) : Nat := if s.pins.spdmVersion = 0 then 0x12 else s.pins.spdmVersion

/-- An answer under the negotiated version. -/
def State.spdmAnswer (s : State) (code p1 p2 : Nat) (body : List Byte) : State :=
  s.spdmSend (leBytes 1 s.spdmVer ++ leBytes 1 code ++ leBytes 1 p1 ++ leBytes 1 p2 ++ body)

/-- ERROR: 1 InvalidRequest, 4 UnexpectedRequest, 0x41 VersionMismatch. -/
def State.spdmError (s : State) (e : Nat) : State := s.spdmAnswer 0x7F e 0 []

/-- A request of a code while the responder runs; other messages have no row here. -/
def State.spdmServe (s : State) (code : Nat) (msg : List Byte) (f : State → State) : State :=
  if s.power.state = .off ∨ s.svc.running.isEmpty ∨ msg.length < 4 ∨ fieldAt msg 1 1 ≠ code then s else f s

/-- A request after the negotiation, under the negotiated version. -/
def State.spdmAfter (s : State) (code : Nat) (msg : List Byte) (f : State → State) : State :=
  s.spdmServe code msg (fun s =>
    if !s.pins.spdmNegotiated then s.spdmError 4 else if fieldAt msg 0 1 ≠ s.pins.spdmVersion then s.spdmError 0x41 else f s)

/-- Slot 0's certificate chain: length, digest of the Helverin root, certificates. -/
def State.spdmChain (s : State) : List Byte :=
  let c := Config.spdmChain s.sec.aliasOf
  leBytes 2 (52 + c.length) ++ zeros 2 ++ helverin ++ c

/-- GET_VERSION: 1.2 and 1.3. It starts a new negotiation. -/
def execGetVersion (msg : List Byte) (s : State) : Out :=
  .next (s.spdmServe 0x84 msg (fun s =>
    { s with pins := { s.pins with spdmVersion := 0, spdmNegotiated := false } }.spdmSend
      ([0x10, 0x04, 0, 0, 0, 2] ++ leBytes 2 0x1200 ++ leBytes 2 0x1300)))

/-- GET_CAPABILITIES: certificates, challenge, signed measurements (flags 0x16); no session. -/
def execGetCapabilities (msg : List Byte) (s : State) : Out :=
  .next (s.spdmServe 0xE1 msg (fun s =>
    let v := fieldAt msg 0 1
    if v ≠ 0x12 ∧ v ≠ 0x13 then s.spdmError 0x41
    else
      let z := leBytes 9 Config.spdmSizes.toNat
      { s with pins := { s.pins with spdmVersion := v, spdmNegotiated := false } }.spdmAnswer 0x61 0 0
        ([0] ++ z.take 1 ++ zeros 2 ++ leBytes 4 0x16 ++ z.drop 1)))

/-- NEGOTIATE_ALGORITHMS: P-384 and SHA-384 only; a request that offers neither is an invalid one. -/
def execNegotiateAlgorithms (msg : List Byte) (s : State) : Out :=
  .next (s.spdmServe 0xE3 msg (fun s =>
    if s.pins.spdmVersion = 0 then s.spdmError 4
    else if fieldAt msg 0 1 ≠ s.pins.spdmVersion then s.spdmError 0x41
    else if !bit (fieldAt msg 8 4) 7 || !bit (fieldAt msg 12 4) 1 then s.spdmError 1
    else
      { s with pins := { s.pins with spdmNegotiated := true } }.spdmAnswer 0x63 0 0
        (leBytes 2 36 ++ [1, 0] ++ leBytes 4 4 ++ leBytes 4 0x80 ++ leBytes 4 2 ++ zeros 16)))

/-- GET_DIGESTS: slot 0 only. -/
def execGetDigests (msg : List Byte) (s : State) : Out :=
  .next (s.spdmAfter 0x81 msg (fun s => s.spdmAnswer 0x01 (if s.pins.spdmVersion = 0x13 then 1 else 0) 1 (sha384 s.spdmChain)))

/-- GET_CERTIFICATE: a portion of slot 0's chain. -/
def execGetCertificate (msg : List Byte) (s : State) : Out :=
  .next (s.spdmAfter 0x82 msg (fun s =>
    let chain := s.spdmChain
    let off := fieldAt msg 4 2
    let part := (chain.drop off).take (fieldAt msg 6 2)
    if fieldAt msg 2 1 % 16 ≠ 0 ∨ chain.length ≤ off then s.spdmError 1
    else s.spdmAnswer 0x02 0 0 (leBytes 2 part.length ++ leBytes 2 (chain.length - off - part.length) ++ part)))

/-- Context of a 1.3 requester: 8 bytes at an offset of its message. -/
def State.spdmContext (s : State) (msg : List Byte) (o : Nat) : List Byte := if s.pins.spdmVersion = 0x13 then bytesAt msg o 8 else []

/-- CHALLENGE: nonce, summary of measurements and signature are free values; the signature is the alias key's. -/
def execChallenge (msg : List Byte) (s : State) : Out :=
  .next (s.spdmAfter 0x83 msg (fun s =>
    if fieldAt msg 2 1 ≠ 0 then s.spdmError 1
    else
      let (nonce, s) := s.free 256
      let (summary, s) := s.free 384
      let (signature, s) := s.free 768
      s.spdmAnswer 0x03 0 1 (sha384 s.spdmChain ++ leBytes 32 nonce.toNat ++
        (if fieldAt msg 3 1 = 0 then [] else leBytes 48 summary.toNat) ++ leBytes 2 0 ++ s.spdmContext msg 36 ++ leBytes 96 signature.toNat)))

/-- A DMTF measurement block in raw bit-stream form. -/
def rawBlock (index : Nat) (v : List Byte) : List Byte :=
  leBytes 1 index ++ [1] ++ leBytes 2 (v.length + 3) ++ leBytes 1 ((Config.measurementType index).toNat + 128) ++ leBytes 2 v.length ++ v

/-- The measurement blocks of R382 with their indices, for the nonce that block 16 carries. -/
def State.blocks (s : State) (nonce : List Byte) : Map (List Byte) :=
  ((List.range 6).zip s.measurements).map (fun e => (e.1 + 1, bytesAt e.2 0 48)) ++
    [(7, s.reportState), (16, s.report (bytesAt nonce 0 32 ++ zeros 16))]

/-- GET_MEASUREMENTS: 0 asks for the count, 255 for all blocks, else for one. Without a signature the request has no nonce: block 16's is free. -/
def execGetMeasurements (msg : List Byte) (s : State) : Out :=
  .next (s.spdmAfter 0xE0 msg (fun s =>
    let sign := bit (fieldAt msg 2 1) 0
    let op := fieldAt msg 3 1
    let (open_, s) := s.free 256
    let (nonce, s) := s.free 256
    let (signature, s) := s.free 768
    let all := s.blocks (if sign then bytesAt msg 4 32 else leBytes 32 open_.toNat)
    let asked := if op = 0 then [] else if op = 255 then all else all.filter (fun e => decide (e.1 = op))
    let record := (asked.map (fun e => rawBlock e.1 e.2)).flatten
    if (op ≠ 0 ∧ asked.isEmpty) ∨ (sign ∧ fieldAt msg 36 1 % 16 ≠ 0) then s.spdmError 1
    else
      s.spdmAnswer 0x60 (if op = 0 then all.length else 0) 0
        (leBytes 1 asked.length ++ leBytes 3 record.length ++ record ++ leBytes 32 nonce.toNat ++ leBytes 2 0 ++
          s.spdmContext msg (if sign then 37 else 4) ++ (if sign then leBytes 96 signature.toNat else []))))

end Sys2Proof.Machine
end

