-- ==== Sys2Proof/Machine/Dispatch.lean ====
section
/-! DEFINITION. The dispatch: one arm per row of spec/opcode_table.json, each a direct call of the row's meaning. -/
namespace Sys2Proof.Machine

/-- The effect of a command on everything but the queue. -/
def exec (i : Instr) (s : State) : Host.Outcome State Fault Refusal :=
  match i with
  | .powerOn r => Sys2Proof.Machine.execPowerOn r s
  | .coreRailPowerGood d pos => Sys2Proof.Machine.execCoreRailPowerGood d pos s
  | .capabilityExchangeTimeout d => Sys2Proof.Machine.execCapabilityExchangeTimeout d s
  | .selfTestStepTimeout n => Sys2Proof.Machine.execSelfTestStepTimeout n s
  | .firmwareRecoveryTimeout svnOnly => Sys2Proof.Machine.execFirmwareRecoveryTimeout svnOnly s
  | .resetNAssert => Sys2Proof.Machine.execResetNAssert s
  | .resetNRelease r => Sys2Proof.Machine.execResetNRelease r s
  | .inputUnderVoltage => Sys2Proof.Machine.execInputUnderVoltage s
  | .underVoltageEnd => Sys2Proof.Machine.execUnderVoltageEnd s
  | .inputPowerFail excess => Sys2Proof.Machine.execInputPowerFail excess s
  | .thermalTrip => Sys2Proof.Machine.execThermalTrip s
  | .slotIdChange id => Sys2Proof.Machine.execSlotIdChange id s
  | .refclkLoss => Sys2Proof.Machine.execRefclkLoss s
  | .pe0LinkReady => Sys2Proof.Machine.execPe0LinkReady s
  | .tileStoreRestore d t => Sys2Proof.Machine.execTileStoreRestore d t s
  | .tsScrub d t single double => Sys2Proof.Machine.execTsScrub d t single double s
  | .tileFailure d t => Sys2Proof.Machine.execTileFailure d t s
  | .slotAdvance d => Sys2Proof.Machine.execSlotAdvance d s
  | .stretchResume d => Sys2Proof.Machine.execStretchResume d s
  | .nop d src raw => Sys2Proof.Machine.execNop d src raw s
  | .frame d src raw => Sys2Proof.Machine.execFrame d src raw s
  | .tensor d src raw => Sys2Proof.Machine.execTensor d src raw s
  | .matmul d src raw => Sys2Proof.Machine.execMatmul d src raw s
  | .mxeKStep d t => Sys2Proof.Machine.execMxeKStep d t s
  | .vloop d src raw => Sys2Proof.Machine.execVloop d src raw s
  | .move d src raw => Sys2Proof.Machine.execMove d src raw s
  | .tdmRingSlotFill d t chan => Sys2Proof.Machine.execTdmRingSlotFill d t chan s
  | .coll d src raw => Sys2Proof.Machine.execColl d src raw s
  | .semWait d src raw => Sys2Proof.Machine.execSemWait d src raw s
  | .semWaitSatisfied d src => Sys2Proof.Machine.execSemWaitSatisfied d src s
  | .semWaitTimeout d src => Sys2Proof.Machine.execSemWaitTimeout d src s
  | .semSignal d src raw => Sys2Proof.Machine.execSemSignal d src raw s
  | .semaphoreUpdate d sem set v => Sys2Proof.Machine.execSemaphoreUpdate d sem set v s
  | .flare d src raw => Sys2Proof.Machine.execFlare d src raw s
  | .flarePhaseSet d => Sys2Proof.Machine.execFlarePhaseSet d s
  | .island d src raw => Sys2Proof.Machine.execIsland d src raw s
  | .islandWindowEnd d => Sys2Proof.Machine.execIslandWindowEnd d s
  | .endStream d src raw => Sys2Proof.Machine.execEndStream d src raw s
  | .descriptorComplete d src => Sys2Proof.Machine.execDescriptorComplete d src s
  | .kernelLaunch d t => Sys2Proof.Machine.execKernelLaunch d t s
  | .groupStart d t => Sys2Proof.Machine.execGroupStart d t s
  | .gxeInteger d t slot => Sys2Proof.Machine.execGxeInteger d t slot s
  | .gxeFp32 d t slot => Sys2Proof.Machine.execGxeFp32 d t slot s
  | .gxeFp64 d t slot => Sys2Proof.Machine.execGxeFp64 d t slot s
  | .gxePacked16 d t slot => Sys2Proof.Machine.execGxePacked16 d t slot s
  | .cvt d t slot => Sys2Proof.Machine.execCvt d t slot s
  | .gxeCompare d t slot => Sys2Proof.Machine.execGxeCompare d t slot s
  | .mov d t slot => Sys2Proof.Machine.execMov d t slot s
  | .rdsp d t slot => Sys2Proof.Machine.execRdsp d t slot s
  | .setplen d t slot => Sys2Proof.Machine.execSetplen d t slot s
  | .shfl d t slot => Sys2Proof.Machine.execShfl d t slot s
  | .gxeLoad d t slot => Sys2Proof.Machine.execGxeLoad d t slot s
  | .gxeStore d t slot => Sys2Proof.Machine.execGxeStore d t slot s
  | .gxeAtomic d t slot => Sys2Proof.Machine.execGxeAtomic d t slot s
  | .plateOp d t slot => Sys2Proof.Machine.execPlateOp d t slot s
  | .plateLookup d t slot => Sys2Proof.Machine.execPlateLookup d t slot s
  | .plateLoad d t slot => Sys2Proof.Machine.execPlateLoad d t slot s
  | .plateStore d t slot => Sys2Proof.Machine.execPlateStore d t slot s
  | .bra d t slot => Sys2Proof.Machine.execBra d t slot s
  | .brd d t slot => Sys2Proof.Machine.execBrd d t slot s
  | .join d t slot => Sys2Proof.Machine.execJoin d t slot s
  | .call d t slot => Sys2Proof.Machine.execCall d t slot s
  | .ret d t slot => Sys2Proof.Machine.execRet d t slot s
  | .jmpi d t slot => Sys2Proof.Machine.execJmpi d t slot s
  | .exit d t slot => Sys2Proof.Machine.execExit d t slot s
  | .gxeNop d t slot => Sys2Proof.Machine.execGxeNop d t slot s
  | .gsync d t slot => Sys2Proof.Machine.execGsync d t slot s
  | .gsyncWatchdog d t slot => Sys2Proof.Machine.execGsyncWatchdog d t slot s
  | .barT d t slot => Sys2Proof.Machine.execBarT d t slot s
  | .barD d t slot => Sys2Proof.Machine.execBarD d t slot s
  | .barS d t slot => Sys2Proof.Machine.execBarS d t slot s
  | .l1inv d t slot => Sys2Proof.Machine.execL1inv d t slot s
  | .rand32 d t slot => Sys2Proof.Machine.execRand32 d t slot s
  | .rand128 d t slot => Sys2Proof.Machine.execRand128 d t slot s
  | .gxeReplay d t slot => Sys2Proof.Machine.execGxeReplay d t slot s
  | .gxeSave d t slot => Sys2Proof.Machine.execGxeSave d t slot s
  | .gxeDiscard d t slot => Sys2Proof.Machine.execGxeDiscard d t slot s
  | .gxeRestore d t => Sys2Proof.Machine.execGxeRestore d t s
  | .wqEnable d q cfg => Sys2Proof.Machine.execWqEnable d q cfg s
  | .wqDoorbell d q tail bar4 => Sys2Proof.Machine.execWqDoorbell d q tail bar4 s
  | .wqEntryReread d q => Sys2Proof.Machine.execWqEntryReread d q s
  | .wqEntryIssue d q => Sys2Proof.Machine.execWqEntryIssue d q s
  | .wqCtrlResume d q => Sys2Proof.Machine.execWqCtrlResume d q s
  | .wqCtrlReset d q => Sys2Proof.Machine.execWqCtrlReset d q s
  | .wcBufferDrain h e => Sys2Proof.Machine.execWcBufferDrain h e s
  | .jlSyncC x => Sys2Proof.Machine.execJlSyncC x s
  | .jlSyncS x => Sys2Proof.Machine.execJlSyncS x s
  | .jlInvalT x priv selector => Sys2Proof.Machine.execJlInvalT x priv selector s
  | .cboClean h addr => Sys2Proof.Machine.execCboClean h addr s
  | .cboFlush h addr => Sys2Proof.Machine.execCboFlush h addr s
  | .cboInval h addr => Sys2Proof.Machine.execCboInval h addr s
  | .cboZero h addr key => Sys2Proof.Machine.execCboZero h addr key s
  | .storeAbandon agent addr => Sys2Proof.Machine.execStoreAbandon agent addr s
  | .deviceLoadTimeout agent addr => Sys2Proof.Machine.execDeviceLoadTimeout agent addr s
  | .drainCutoff die => Sys2Proof.Machine.execDrainCutoff die s
  | .tileDieReset d cap => Sys2Proof.Machine.execTileDieReset d cap s
  | .powerEntryRefused e => Sys2Proof.Machine.execPowerEntryRefused e s
  | .winSync => Sys2Proof.Machine.execWinSync s
  | .rdS a line x => Sys2Proof.Machine.execRdS a line x s
  | .rdU a line x => Sys2Proof.Machine.execRdU a line x s
  | .upg a line x => Sys2Proof.Machine.execUpg a line x s
  | .wb a line key data => Sys2Proof.Machine.execWb a line key data s
  | .evc a line key => Sys2Proof.Machine.execEvc a line key s
  | .rdSn r line key => Sys2Proof.Machine.execRdSn r line key s
  | .wrFull r line key data => Sys2Proof.Machine.execWrFull r line key data s
  | .wrPart r line key mask data => Sys2Proof.Machine.execWrPart r line key mask data s
  | .atom r line key op => Sys2Proof.Machine.execAtom r line key op s
  | .snpRd a line => Sys2Proof.Machine.execSnpRd a line s
  | .snpS a line => Sys2Proof.Machine.execSnpS a line s
  | .snpU a line => Sys2Proof.Machine.execSnpU a line s
  | .snpInv a line => Sys2Proof.Machine.execSnpInv a line s
  | .holdExpiry a line => Sys2Proof.Machine.execHoldExpiry a line s
  | .data p line => Sys2Proof.Machine.execData p line s
  | .ack a line => Sys2Proof.Machine.execAck a line s
  | .ackD a line data => Sys2Proof.Machine.execAckD a line data s
  | .ndwb a line => Sys2Proof.Machine.execNdwb a line s
  | .comp p line => Sys2Proof.Machine.execComp p line s
  | .wbAck a line => Sys2Proof.Machine.execWbAck a line s
  | .wbConsumed a line => Sys2Proof.Machine.execWbConsumed a line s
  | .dcPrefetch line p => Sys2Proof.Machine.execDcPrefetch line p s
  | .dcSaturationPersist d h => Sys2Proof.Machine.execDcSaturationPersist d h s
  | .dcFlush d => Sys2Proof.Machine.execDcFlush d s
  | .lineReadReturn c line r => Sys2Proof.Machine.execLineReadReturn c line r s
  | .channelParityFailure c ch retrainings recovered => Sys2Proof.Machine.execChannelParityFailure c ch retrainings recovered s
  | .rakeRead c errors => Sys2Proof.Machine.execRakeRead c errors s
  | .rakeWaitExpiry c errors => Sys2Proof.Machine.execRakeWaitExpiry c errors s
  | .rowSoftRepairComplete r => Sys2Proof.Machine.execRowSoftRepairComplete r s
  | .channelSaturationPersist c ch => Sys2Proof.Machine.execChannelSaturationPersist c ch s
  | .d2dFlitReceive e m flit => Sys2Proof.Machine.execD2dFlitReceive e m flit s
  | .linkControlFlit e flit => Sys2Proof.Machine.execLinkControlFlit e flit s
  | .linkControlDue e => Sys2Proof.Machine.execLinkControlDue e s
  | .spareMonitorError e m => Sys2Proof.Machine.execSpareMonitorError e m s
  | .laneCheckEnd e m r => Sys2Proof.Machine.execLaneCheckEnd e m r s
  | .moduleRetrainComplete e m => Sys2Proof.Machine.execModuleRetrainComplete e m s
  | .forwardedClockFailure e m => Sys2Proof.Machine.execForwardedClockFailure e m s
  | .handoverComplete e delivered => Sys2Proof.Machine.execHandoverComplete e delivered s
  | .fabricFlitReceive p flit => Sys2Proof.Machine.execFabricFlitReceive p flit s
  | .portTraining p lanes plane j6 partner => Sys2Proof.Machine.execPortTraining p lanes plane j6 partner s
  | .portTrainingFailure p => Sys2Proof.Machine.execPortTrainingFailure p s
  | .remoteRead d k => Sys2Proof.Machine.execRemoteRead d k s
  | .readData d k => Sys2Proof.Machine.execReadData d k s
  | .remoteWrite d k => Sys2Proof.Machine.execRemoteWrite d k s
  | .writeAcknowledgement d k => Sys2Proof.Machine.execWriteAcknowledgement d k s
  | .semaphoreSignal d k => Sys2Proof.Machine.execSemaphoreSignal d k s
  | .signalAcknowledgement d k => Sys2Proof.Machine.execSignalAcknowledgement d k s
  | .collectiveData d e k => Sys2Proof.Machine.execCollectiveData d e k s
  | .collectiveCredit d e k => Sys2Proof.Machine.execCollectiveCredit d e k s
  | .collectiveProbe d e k => Sys2Proof.Machine.execCollectiveProbe d e k s
  | .collectiveProbeReply d e k => Sys2Proof.Machine.execCollectiveProbeReply d e k s
  | .collectiveAbort d e k => Sys2Proof.Machine.execCollectiveAbort d e k s
  | .negativeResponse d k => Sys2Proof.Machine.execNegativeResponse d k s
  | .beaconArm m => Sys2Proof.Machine.execBeaconArm m s
  | .beaconAck m => Sys2Proof.Machine.execBeaconAck m s
  | .light m => Sys2Proof.Machine.execLight m s
  | .snuff m => Sys2Proof.Machine.execSnuff m s
  | .beaconDeadline => Sys2Proof.Machine.execBeaconDeadline s
  | .beaconStartTime => Sys2Proof.Machine.execBeaconStartTime s
  | .probe p k => Sys2Proof.Machine.execProbe p k s
  | .probeReply p k => Sys2Proof.Machine.execProbeReply p k s
  | .config p k => Sys2Proof.Machine.execConfig p k s
  | .managementMessage k => Sys2Proof.Machine.execManagementMessage k s
  | .topologyWalk plan => Sys2Proof.Machine.execTopologyWalk plan s
  | .timeFlit p sent delay => Sys2Proof.Machine.execTimeFlit p sent delay s
  | .timeFlitSend p => Sys2Proof.Machine.execTimeFlitSend p s
  | .upstreamPortDown => Sys2Proof.Machine.execUpstreamPortDown s
  | .holdoverExpiry => Sys2Proof.Machine.execHoldoverExpiry s
  | .cePeerWaitTimeout d e rank => Sys2Proof.Machine.execCePeerWaitTimeout d e rank s
  | .probeReplyTimeout d e rank => Sys2Proof.Machine.execProbeReplyTimeout d e rank s
  | .collectiveStepComplete d e => Sys2Proof.Machine.execCollectiveStepComplete d e s
  | .ceSaturationPersist d e level => Sys2Proof.Machine.execCeSaturationPersist d e level s
  | .pe1MsiWrite requester addr value => Sys2Proof.Machine.execPe1MsiWrite requester addr value s
  | .bar2Access offset a => Sys2Proof.Machine.execBar2Access offset a s
  | .winBaseWrite v => Sys2Proof.Machine.execWinBaseWrite v s
  | .registerViewAccess offset a os => Sys2Proof.Machine.execRegisterViewAccess offset a os s
  | .pe1InboundDma requester addr a => Sys2Proof.Machine.execPe1InboundDma requester addr a s
  | .perst0N => Sys2Proof.Machine.execPerst0N s
  | .perst1N => Sys2Proof.Machine.execPerst1N s
  | .hostHbBeat => Sys2Proof.Machine.execHostHbBeat s
  | .heartbeatPeriodExpiry os => Sys2Proof.Machine.execHeartbeatPeriodExpiry os s
  | .hostHbRestart os => Sys2Proof.Machine.execHostHbRestart os s
  | .mbxReqDb eh v => Sys2Proof.Machine.execMbxReqDb eh v s
  | .mgRequest src raw => Sys2Proof.Machine.execMgRequest src raw s
  | .dtlsAssociationClose k => Sys2Proof.Machine.execDtlsAssociationClose k s
  | .mbxRspAck eh => Sys2Proof.Machine.execMbxRspAck eh s
  | .mbxEvtTail eh w => Sys2Proof.Machine.execMbxEvtTail eh w s
  | .mailboxThrottleEnd m => Sys2Proof.Machine.execMailboxThrottleEnd m s
  | .devQuery r => Sys2Proof.Machine.execDevQuery r s
  | .devIdentify r => Sys2Proof.Machine.execDevIdentify r s
  | .devHalt r => Sys2Proof.Machine.execDevHalt r s
  | .devHaltQuiesced => Sys2Proof.Machine.execDevHaltQuiesced s
  | .jobCreate r => Sys2Proof.Machine.execJobCreate r s
  | .jobLoad r => Sys2Proof.Machine.execJobLoad r s
  | .jobArm r => Sys2Proof.Machine.execJobArm r s
  | .jobSuspend r => Sys2Proof.Machine.execJobSuspend r s
  | .jobSuspendQuiesce => Sys2Proof.Machine.execJobSuspendQuiesce s
  | .jobResume r => Sys2Proof.Machine.execJobResume r s
  | .jobAbort r => Sys2Proof.Machine.execJobAbort r s
  | .jobEnd r => Sys2Proof.Machine.execJobEnd r s
  | .jobStatus r => Sys2Proof.Machine.execJobStatus r s
  | .memMap r => Sys2Proof.Machine.execMemMap r s
  | .memKeepDeclare r => Sys2Proof.Machine.execMemKeepDeclare r s
  | .memKeepReadRecord r => Sys2Proof.Machine.execMemKeepReadRecord r s
  | .memKeepRelease r => Sys2Proof.Machine.execMemKeepRelease r s
  | .memKeepDropRegion r => Sys2Proof.Machine.execMemKeepDropRegion r s
  | .memRepairQuery r => Sys2Proof.Machine.execMemRepairQuery r s
  | .rowSoft r => Sys2Proof.Machine.execRowSoft r s
  | .rowHard r => Sys2Proof.Machine.execRowHard r s
  | .channelFence r => Sys2Proof.Machine.execChannelFence r s
  | .channelRetire r => Sys2Proof.Machine.execChannelRetire r s
  | .channelKeep r => Sys2Proof.Machine.execChannelKeep r s
  | .auto r => Sys2Proof.Machine.execAuto r s
  | .memScrubRead r => Sys2Proof.Machine.execMemScrubRead r s
  | .memScrubSetPeriod r => Sys2Proof.Machine.execMemScrubSetPeriod r s
  | .memScrubPass r errors => Sys2Proof.Machine.execMemScrubPass r errors s
  | .pwrCap r => Sys2Proof.Machine.execPwrCap r s
  | .pwrState r report => Sys2Proof.Machine.execPwrState r report s
  | .pwrFreq r => Sys2Proof.Machine.execPwrFreq r s
  | .secAttest r => Sys2Proof.Machine.execSecAttest r s
  | .secKeyQuery r => Sys2Proof.Machine.execSecKeyQuery r s
  | .allocKeep r => Sys2Proof.Machine.execAllocKeep r s
  | .grant r => Sys2Proof.Machine.execGrant r s
  | .revoke r => Sys2Proof.Machine.execRevoke r s
  | .rotate r => Sys2Proof.Machine.execRotate r s
  | .destroy r => Sys2Proof.Machine.execDestroy r s
  | .secLifecycle r report => Sys2Proof.Machine.execSecLifecycle r report s
  | .lifecycleChallengeExpiry src => Sys2Proof.Machine.execLifecycleChallengeExpiry src s
  | .secDebug r os => Sys2Proof.Machine.execSecDebug r os s
  | .debugSessionExpiry => Sys2Proof.Machine.execDebugSessionExpiry s
  | .getVersion msg => Sys2Proof.Machine.execGetVersion msg s
  | .getCapabilities msg => Sys2Proof.Machine.execGetCapabilities msg s
  | .negotiateAlgorithms msg => Sys2Proof.Machine.execNegotiateAlgorithms msg s
  | .getDigests msg => Sys2Proof.Machine.execGetDigests msg s
  | .getCertificate msg => Sys2Proof.Machine.execGetCertificate msg s
  | .challenge msg => Sys2Proof.Machine.execChallenge msg s
  | .getMeasurements msg => Sys2Proof.Machine.execGetMeasurements msg s
  | .svcStage r => Sys2Proof.Machine.execSvcStage r s
  | .svcActivate r served => Sys2Proof.Machine.execSvcActivate r served s
  | .activationHandoverTimeout => Sys2Proof.Machine.execActivationHandoverTimeout s
  | .flashWriteComplete ok => Sys2Proof.Machine.execFlashWriteComplete ok s
  | .svcSelftest r tiles lanes lines => Sys2Proof.Machine.execSvcSelftest r tiles lanes lines s
  | .svcLog r => Sys2Proof.Machine.execSvcLog r s
  | .logFlashCopy => Sys2Proof.Machine.execLogFlashCopy s
  | .droopDetect d => Sys2Proof.Machine.execDroopDetect d s
  | .droopRecovery d => Sys2Proof.Machine.execDroopRecovery d s
  | .pmbusPoll rails => Sys2Proof.Machine.execPmbusPoll rails s
  | .inputSample volts amps watts avg => Sys2Proof.Machine.execInputSample volts amps watts avg s
  | .capExcursionLimit => Sys2Proof.Machine.execCapExcursionLimit s
  | .pwrbrakeAssert => Sys2Proof.Machine.execPwrbrakeAssert s
  | .pwrbrakeDeassert => Sys2Proof.Machine.execPwrbrakeDeassert s
  | .brakeReleaseStep => Sys2Proof.Machine.execBrakeReleaseStep s
  | .toggleHoldExpiry => Sys2Proof.Machine.execToggleHoldExpiry s
  | .brakeHeldTimeout => Sys2Proof.Machine.execBrakeHeldTimeout s
  | .throttleDeepen u h => Sys2Proof.Machine.execThrottleDeepen u h s
  | .throttleRelax u h => Sys2Proof.Machine.execThrottleRelax u h s
  | .thermalDeepRatio d => Sys2Proof.Machine.execThermalDeepRatio d s
  | .pwrCpu v => Sys2Proof.Machine.execPwrCpu v s
  | .frequencySwitch d => Sys2Proof.Machine.execFrequencySwitch d s
  | .tGateEntry d t => Sys2Proof.Machine.execTGateEntry d t s
  | .tileIdle d t => Sys2Proof.Machine.execTileIdle d t s
  | .tileWake d t => Sys2Proof.Machine.execTileWake d t s
  | .tileQueueIdle d t idleNs => Sys2Proof.Machine.execTileQueueIdle d t idleNs s
  | .toffIdleExpiry d t => Sys2Proof.Machine.execToffIdleExpiry d t s
  | .moduleAutoIdle => Sys2Proof.Machine.execModuleAutoIdle s
  | .moduleWake w => Sys2Proof.Machine.execModuleWake w s
  | .setdasa a => Sys2Proof.Machine.execSetdasa a s
  | .entdaa addr => Sys2Proof.Machine.execEntdaa addr s
  | .wqEarlyCnt d q => Sys2Proof.Machine.execWqEarlyCnt d q s
  | .dcHit d c miss => Sys2Proof.Machine.execDcHit d c miss s
  | .dcPfCnt d => Sys2Proof.Machine.execDcPfCnt d s
  | .mcEccCnt c => Sys2Proof.Machine.execMcEccCnt c s
  | .d2dBcnt e => Sys2Proof.Machine.execD2dBcnt e s
  | .fabPcnt p => Sys2Proof.Machine.execFabPcnt p s
  | .ceCnt d e => Sys2Proof.Machine.execCeCnt d e s
  | .mbxEvtLost eh => Sys2Proof.Machine.execMbxEvtLost eh s
  | .mbxMalformed eh => Sys2Proof.Machine.execMbxMalformed eh s
  | .registerWrite who addr value os => Sys2Proof.Machine.execRegisterWrite who addr value os s
  | .fabricPortLinkLoss p => Sys2Proof.Machine.execFabricPortLinkLoss p s
  | .jtagTapAccess op tdi => Sys2Proof.Machine.execJtagTapAccess op tdi s

end Sys2Proof.Machine
end

