-- ==== Sys2Proof/Machine/Step.lean ====
section
/-! DEFINITION. One step of the module: the command at the front of the queue, or a tick of CK_TIME. -/
namespace Sys2Proof.Machine

/-- A step takes the command at the front of the queue and runs it with the queue's rest. On an empty queue one nanosecond of global
time passes and the fabric ports send what is due (R268, R277, R280; DESIGN CHOICE: the table has no row for the clock). -/
def step (s : State) : Host.Outcome State Fault Refusal :=
  match s.pending with
  | [] => .next s.tick
  | c :: rest => exec c { s with pending := rest }

/-- The state with the command that a table word spells at the front of its queue; no word spells one. -/
def State.withFetchWord (s : State) (nbits w : Nat) : State :=
  match decodeTableWord nbits w with
  | some c => { s with pending := c :: s.pending }
  | none => s

end Sys2Proof.Machine
end

