-- ==== Sys2Proof/Safety.lean ====
section
/-! DEFINITION. The terms in which claims speak of runs: a command that completes, what it leaves alone, the invariants of a run. -/
namespace Sys2Proof.Machine

/-- The module's memory as data: addresses strictly rising, no entry equal to what an unlisted address reads as. -/
abbrev Memory.wf (m : Map Byte) : Bool := Map.wf 0 m

/-- The command completes in a state: it answers a next state, and P holds of that state. -/
def Completes (c : Instr) (s : State) (P : State → Prop) : Prop := ∃ t, exec c s = .next t ∧ P t

/-- t is s after notifications and nothing else: event records, log entries, responses and messages in the mailboxes, interrupts raised.
Every other field of the state is as it was. -/
def Notified (s t : State) : Prop :=
  ∃ logs boxes wired aplicM aplicS imsicM imsicS pba sent access, t = { s with
    svc := { s.svc with logs := logs }, lantern := { s.lantern with boxes := boxes },
    host := { s.host with
      wired := wired, aplicM := aplicM, aplicS := aplicS, imsicM := imsicM, imsicS := imsicS, msixPba := pba, msixSent := sent },
    access := access }

/-- What the fuses and the flash of the module promise of a later state: the variant is the same (R2), the fused minimum svn has not fallen
(R405), and the lifecycle has moved by Table 17-6 only. -/
def FusesKept (s t : State) : Prop :=
  t.lnVariant = s.lnVariant ∧ s.svc.minSvn ≤ t.svc.minSvn ∧
    (t.sec.lifecycle = 0 → s.sec.lifecycle = 0) ∧ (s.sec.lifecycle = 3 → t.sec.lifecycle = 3)

/-- A request has its turn, and the module's state does not refuse its command (R338, R342). -/
def Served (s : State) (cmd : Nat) (r : Request) : Prop := s.turn cmd r = true ∧ ∃ i, commandInfo cmd = some i ∧ s.pilotRefuses cmd i = false

/-- s with a request taken off the waiting ones. -/
def State.taken (s : State) (cmd : Nat) (r : Request) : State :=
  { s with lantern := { s.lantern with waiting := s.lantern.waiting.erase ⟨cmd, r⟩ } }

/-- A register mailbox, or the MG mailbox, receives a message at once: it is not throttled and has room. -/
def State.takes (s : State) (b : Nat) : Prop := (s.box b).throttled = false ∧ (s.box b).outstanding.length < 32

/-- No coherence message is under way and no snoop waits for a hold. -/
def State.calm (s : State) : Prop := s.pool.msgs = [] ∧ ∀ e ∈ s.pool.agents, e.2.snoops = []

/-- A request reaches a slice that has room for it (R208), and no other line of its directory set can go on (R207). -/
def State.homeOpen (s : State) (line : Nat) : Prop := s.sliceLoad line < sliceLimit ∧ s.pool.heldBack = [] ∧ s.dirReady line = []

/-- A core's access to normal memory that is mapped, under a key it holds, aligned where it must be, and the module awake (R24, R25, R179, R194). -/
def State.coreMay (s : State) (line key : Nat) (x : CoreAccess) : Prop :=
  s.power.state ≠ .idle ∧ x.kind ≠ .prefetch ∧ s.place (128 * line + x.offset.toNat) ≠ .none ∧ s.holds .core key = true ∧
    s.coreType (128 * line + x.offset.toNat) x.pbmt = .normal ∧ (reserving x.kind = true → x.offset.toNat % 2 ^ x.size.toNat = 0)

/-- Its cluster's cache has no copy that serves it: the request goes to the home. -/
def State.coreMiss (s : State) (a : CacheId) (line key : Nat) (x : CoreAccess) : Prop :=
  s.coreMay line key x ∧ (s.agentLine a line).st = .i ∧ s.wbDue a line = false ∧
    (x.kind = .sc → (s.hart x.hart).reservation = some line)

/-- An agent that caches nothing may make a request of a line of a tier (R25, R209, R385). -/
def State.unitMay (s : State) (line key c : Nat) (r : Requester) : Prop :=
  s.power.state ≠ .idle ∧ s.place (128 * line) = .mem c ∧ s.holds (s.partyHolder (.other r)) key = true ∧ s.homeOpen line

/-- The access of such a request at its home. -/
def unitAcc (r : Requester) (key : Nat) : Acc := ⟨r.agent.toNat, agentCls r.agent.toNat, .anyone, key, r.stream⟩

/-- An access is refused: the address is neither in a tier nor in a tile store, or the key is not held (R25, R385). -/
def State.unitMayNot (s : State) (line key : Nat) (r : Requester) : Prop :=
  s.power.state ≠ .idle ∧ (s.holds (s.partyHolder (.other r)) key = false ∨
    ((∀ c, s.place (128 * line) ≠ .mem c) ∧ ∀ d t o, s.place (128 * line) ≠ .ts d t o))

/-- The row that issues a descriptor of a kind (Table 06-2). -/
def descCommand (kind : Nat) (d : DieId) (src : DescSrc) (raw : List Byte) : Option Instr :=
  match kind with
  | 0 => some (.nop d src raw)
  | 1 => some (.frame d src raw)
  | 2 => some (.tensor d src raw)
  | 3 => some (.matmul d src raw)
  | 4 => some (.vloop d src raw)
  | 5 => some (.move d src raw)
  | 6 => some (.coll d src raw)
  | 7 => some (.semWait d src raw)
  | 8 => some (.semSignal d src raw)
  | 9 => some (.flare d src raw)
  | 10 => some (.island d src raw)
  | 11 => some (.endStream d src raw)
  | _ => none

/-- A descriptor of a die's stream in the present frame instance (R132). -/
abbrev State.streamSrc (s : State) (d pos : Nat) : DescSrc := .stream pos (s.die d).frames

/-- A stream descriptor of a kind stands ready to issue (R133), passes its decode checks, and its units take it (R108, R135). -/
def State.issues (s : State) (kind d pos : Nat) (raw : List Byte) : Prop :=
  dKind raw = kind ∧ s.streamReady d pos raw = true ∧ s.issueStatus d (s.streamSrc d pos) false raw = 0 ∧ s.fencedTarget d raw = false ∧
    s.queueFull d raw = false

/-- s with the first due descriptor of a die taken, and what the die holds otherwise changed by f. -/
def State.popWith (s : State) (d : Nat) (f : Die → Die) : State := s.modDie d (fun x => f { x with due := x.due.drop 1 })

/-- The running job fails with a stream descriptor (R152): t holds the record of the first failure, and the job's work has stopped, or goes on
while some die still has a descriptor of its present slot to issue. -/
def FailsWith (s t : State) (d pos status : Nat) : Prop :=
  ∃ j, t.lantern.job = some j ∧ j.failDie = BitVec.ofNat 8 d ∧ j.failStatus = BitVec.ofNat 16 status ∧ j.failPos = BitVec.ofNat 64 pos ∧
    ((∀ x < 4, ((s.popWith d id).die x).issuing = false) → j.state = 6 ∧ ∀ x, (t.die x).running = false ∧ (t.die x).due = []) ∧
    ((∃ x < 4, ((s.popWith d id).die x).issuing = true) → j.state = 3)

/-- The row of a group instruction, by its class and op (Table 05-3). -/
def gxeRow (w : Nat) (d : DieId) (t : TileId) (n : Fin 24) : Option Instr :=
  match gCls w, gOp w with
  | 0, _ => some (.gxeInteger d t n)
  | 1, _ => some (.gxeInteger d t n)
  | 2, _ => some (.gxeFp32 d t n)
  | 3, _ => some (.gxeFp64 d t n)
  | 4, _ => some (.gxePacked16 d t n)
  | 5, _ => some (.cvt d t n)
  | 6, _ => some (.gxeCompare d t n)
  | 7, 3 => some (.rdsp d t n)
  | 7, 4 => some (.setplen d t n)
  | 7, _ => some (.mov d t n)
  | 8, _ => some (.shfl d t n)
  | 9, _ => some (.gxeLoad d t n)
  | 0x0A, _ => some (.gxeStore d t n)
  | 0x0B, _ => some (.gxeAtomic d t n)
  | 0x0C, 0x0D => some (.plateLookup d t n)
  | 0x0C, 0x10 => some (.plateLoad d t n)
  | 0x0C, 0x11 => some (.plateStore d t n)
  | 0x0C, _ => some (.plateOp d t n)
  | 0x0D, _ => some (.plateOp d t n)
  | 0x0E, 0 => some (.bra d t n)
  | 0x0E, 1 => some (.brd d t n)
  | 0x0E, 2 => some (.join d t n)
  | 0x0E, 3 => some (.call d t n)
  | 0x0E, 4 => some (.ret d t n)
  | 0x0E, 5 => some (.jmpi d t n)
  | 0x0E, 6 => some (.exit d t n)
  | 0x0E, _ => some (.gxeNop d t n)
  | 0x0F, 0 => some (.gsync d t n)
  | 0x0F, 1 => some (.barT d t n)
  | 0x0F, 2 => some (.barD d t n)
  | 0x0F, 3 => some (.barS d t n)
  | 0x0F, _ => some (.l1inv d t n)
  | 0x10, 0 => some (.rand32 d t n)
  | 0x10, _ => some (.rand128 d t n)
  | _, _ => none

/-- A group's code at its pc faults before it issues (R113, R118): the fault code. -/
def State.issueFault (s : State) (d t n : Nat) : Option Nat :=
  let k := s.tile d t
  let pc := (k.slot n).pc.toNat
  if 2 ^ 21 < pc + 8 then some 0x0B
  else if pc % 8 ≠ 0 then some 1
  else if badWord k.tsBad (pc / 128 * 128) 128 then some 5
  else if illegal (k.slot n) (leNat (sramRead k.ts pc 8)) then some 1
  else if k.badSource n (leNat (sramRead k.ts pc 8)) ((k.slot n).part (leNat (sramRead k.ts pc 8))) then some 5
  else none

/-- A running group of the open kernel k stands at the legal instruction w. -/
def State.groupAt (s : State) (d t n : Nat) (k : Kernel) (w : Nat) : Prop :=
  ((s.tile d t).slot n).st = .running ∧ (s.tile d t).kernel = some k ∧ s.issueFault d t n = none ∧
    leNat (sramRead (s.tile d t).ts ((s.tile d t).slot n).pc.toNat 8) = w

/-- The place of a group's instruction. -/
def State.at (s : State) (d t n : Nat) (k : Kernel) (w : Nat) : GxeAt :=
  ⟨d, t, n, (s.tile d t).slot n, k, w, ((s.tile d t).slot n).part w⟩

/-- u is s with one slot of a tile changed to g, register words that it wrote whole free of errors (R103), and numeric flags joined into the
job's. -/
def SlotBecomes (s u : State) (d t n : Nat) (g : Group) : Prop :=
  (∀ e ∈ (u.tile d t).regBad, e ∈ (s.tile d t).regBad) ∧
  ∃ j, u = { s.modTile d t (fun k => { k.putSlot n g with regBad := (u.tile d t).regBad }) with lantern := { s.lantern with job := j } } ∧
    j.map (fun x => { x with flags := {} }) = s.lantern.job.map (fun x => { x with flags := {} })

/-- g' is g after an instruction that wrote the k registers from field d on, in the threads that take part, and nothing else but the pc. -/
def Group.wrote (g g' : Group) (w k : Nat) (v : Nat → Nat) : Prop :=
  g' = { g with pc := g.pc + 8, regs := g'.regs } ∧ ∀ l r, l < 32 → r < 128 →
    g'.reg l r = if l ∈ g.part w ∧ r ≠ 0 ∧ gD w ≤ r ∧ r < gD w + k then v l / 2 ^ (32 * (r - gD w)) % 2 ^ 32 else g.reg l r

/-- A group faulted (R127): parked with code and address, its context as before; its instruction had no effect on stores, memory or job. -/
def GroupFaulted (s u : State) (d t n code addr : Nat) : Prop :=
  (u.tile d t).slot n = { (s.tile d t).slot n with st := .parked, fault := BitVec.ofNat 8 code, faultAddr := BitVec.ofNat 64 addr } ∧
    (∀ m, m ≠ n → (u.tile d t).slot m = (s.tile d t).slot m) ∧ (u.tile d t).oc = (s.tile d t).oc ∧ (u.tile d t).ts = (s.tile d t).ts ∧
    (u.tile d t).plates = (s.tile d t).plates ∧ (u.tile d t).kernel = (s.tile d t).kernel ∧ u.pool = s.pool ∧ u.dies = s.dies ∧
    u.lantern.job = s.lantern.job

end Sys2Proof.Machine
end

