-- ==== Sys2Proof/Certificates/Slice0/Obligations.lean ====
section
/-! DEFINITION. The statements for the provers: what the commands do and leave alone, by the rules of spec/, and the invariants of a step. -/
open Sys2Proof Sys2Proof.Machine

/-! ## Steps and reset -/

/-- A step takes the command at the front of the queue and runs it with the queue's rest. -/
def Obligations.StepRunsTheFrontCommand : Prop :=
  ∀ c rest s, s.pending = c :: rest → Machine.step s = Machine.exec c { s with pending := rest }

/-- What the field tables give at reset: the module is off, no key ID and no region exists, no queue is enabled, every event class is
delivered, the rake runs with a period of 24 h, the cap is 3,400 W and the level 40 %. The invariants of the steps hold there: memory is canonical.
Model's choices: notes/assumptions/4, 7. -/
def Obligations.ResetHoldsTheTableValues : Prop :=
  State.reset.power.state = .off ∧ State.reset.power.cap = 3400 ∧ State.reset.power.level = 40 ∧ State.reset.power.pb = 1360 ∧
    (∀ k, (State.reset.keySlot k).word = 0) ∧ State.reset.sec.regions = [] ∧ State.reset.lantern.job = none ∧
    (∀ d q, (State.reset.wq d q).enable = false ∧ (State.reset.wq d q).state = 0) ∧
    (∀ b, (State.reset.box b).evtMask = 0xFFFF ∧ (State.reset.box b).free = 0xF ∧ (State.reset.box b).rsp = none) ∧
    (∀ c, (State.reset.ctrl c).rakePeriod = 24 ∧ (State.reset.ctrl c).rakeEnable = true ∧ (State.reset.ctrl c).autoRepair = true) ∧
    (∀ p, (State.reset.port p).state = 0 ∧ (State.reset.port p).cfg = 0x00840401) ∧
    (∀ d t, (State.reset.tile d t).power = .off) ∧ State.reset.fabric.node = 0 ∧ State.reset.host.hbEnable = false ∧
    State.reset.sec.lifecycle = 0 ∧ State.reset.pending = [] ∧ Memory.wf State.reset.pool.cells = true ∧
    FusesKept State.reset State.reset

/-- Every command answers a next state, in every state and for all operands: none stops the module. The command queue is the sender's: no
command changes it, so commands run in the order they were sent. The model's choice (notes/assumptions/2): an empty queue lets one nanosecond
of global time pass; with no fabric port up and no message waiting on the I3C target it changes nothing else. -/
def Obligations.TheQueueIsTheSenders : Prop :=
  (∀ c s, ∃ t, Machine.exec c s = .next t ∧ t.pending = s.pending) ∧
  (∀ s, s.pending = [] → Machine.step s = .next s.tick) ∧
  (∀ s : State, s.tick.timeNs = s.timeNs + 1 ∧ s.tick.pending = s.pending ∧ s.tick.pool = s.pool ∧ s.tick.dies = s.dies ∧ s.tick.tiles = s.tiles) ∧
  ∀ s : State, (∀ p < 24, s.portUp p = false) → (s.box 2).i3cOut = [] → s.tick = { s with timeNs := s.timeNs + 1 }

/-- R405, R2 and Table 17-6: whatever a step does, the variant stays, the fused minimum svn never falls, no lifecycle comes back to BLANK and
RETIRED is final. Model's choices: notes/assumptions/5. -/
def Obligations.FusesAreNeverUndone : Prop := ∀ s t, Machine.step s = .next t → FusesKept s t

/-- Memory keeps its canonical form: every step from a state in which the cells are in strict address order without a zero entry leads to one.
Model's choices: notes/assumptions/7. -/
def Obligations.MemoryStaysCanonical : Prop :=
  ∀ s t, Memory.wf s.pool.cells = true → Machine.step s = .next t → Memory.wf t.pool.cells = true

/-! ## Loss of power and start -/

/-- R420, R354 and R367: RESET_N, a failing input and a thermal trip put the module into M-OFF. Memory contents, key IDs, kept regions, the
job and the tiles' stores are lost; the fuses stay; the reset cause is latched. Model's choices: notes/assumptions/7, 46. -/
def Obligations.PowerLossForgets : Prop :=
  (∀ s, Completes .resetNAssert s (fun t => t.power.state = .off ∧ t.pool.cells = [] ∧ (∀ k, t.keySlot k = {}) ∧ t.sec.regions = [] ∧
    t.sec.sealedKeys = [] ∧ t.lantern.job = none ∧ t.tiles = [] ∧ t.svc.resetCause = 1 ∧ t.pins.resetN = false ∧ t.pins.thermtrip = false ∧
    FusesKept s t ∧ t.svc.minSvn = s.svc.minSvn ∧ t.sec.store = s.sec.store)) ∧
  (∀ excess s, s.power.state ≠ .off → Completes (.inputPowerFail excess) s (fun t => t.power.state = .off ∧ t.pool.cells = [] ∧
    (∀ k, t.keySlot k = {}) ∧ t.sec.regions = [] ∧ t.sec.sealedKeys = [] ∧ t.lantern.job = none ∧ t.tiles = [] ∧
    t.svc.resetCause = (if excess then 3 else 2) ∧ FusesKept s t)) ∧
  (∀ s, s.power.state ≠ .off → s.pins.resetN = true → Completes .thermalTrip s (fun t => t.power.state = .off ∧ t.pool.cells = [] ∧
    (∀ k, t.keySlot k = {}) ∧ t.sec.regions = [] ∧ t.lantern.job = none ∧ t.tiles = [] ∧ t.svc.resetCause = 4 ∧ t.pins.thermtrip = true ∧
    FusesKept s t)) ∧
  (∀ s, s.pins.resetN = false → Completes .thermalTrip s (fun t => t = s))

/-- R394 to R397: a start that runs ends in M-ACTIVE with pilot code 0 or in M-PILOT with a code other than 0. RESET_N held
low and a latched THERMTRIP_N keep the module off. Model's choices: notes/assumptions/3, 12, 47. -/
def Obligations.StartsEndActiveOrPilot : Prop :=
  (∀ r s, s.power.state = .off → s.pins.resetN = true → s.pins.thermtrip = false → Completes (.powerOn r) s (fun t =>
    ((t.power.state = .active ∧ t.power.pilot = 0) ∨ (t.power.state = .pilot ∧ t.power.pilot ≠ 0)) ∧ FusesKept s t)) ∧
  (∀ r s, s.power.state = .off → s.pins.resetN = false ∨ s.pins.thermtrip = true → Completes (.powerOn r) s (fun t =>
    t = { s with pins := { s.pins with inputOk := true, slotIdNew := r.slotId } })) ∧
  (∀ r s, s.pins.resetN = false → s.pins.inputOk = true → Completes (.resetNRelease r) s (fun t =>
    ((t.power.state = .active ∧ t.power.pilot = 0) ∨ (t.power.state = .pilot ∧ t.power.pilot ≠ 0)) ∧ FusesKept s t)) ∧
  (∀ r s, s.pins.resetN = false → s.pins.inputOk = false → Completes (.resetNRelease r) s (fun t =>
    t = { s with pins := { s.pins with resetN := true } }))

/-- R262, R395, R403 and Table 18-4: a start step that runs out of time ends the start in M-PILOT with its code; memory is unpowered, no key
stands and there is no job. Steps 0 and 7 of the self-test have no limit. Model's choices: notes/assumptions/12, 47. -/
def Obligations.StartTimeoutsEnterPilot : Prop :=
  (∀ d s, s.power.state ≠ .off → Completes (.capabilityExchangeTimeout d) s (fun t => t.power.state = .pilot ∧
    t.power.pilot.toNat = 0x400 + 2 ^ d.val ∧ t.pool.cells = [] ∧ (∀ k, t.keySlot k = {}) ∧ t.lantern.job = none ∧ FusesKept s t)) ∧
  (∀ n s, n.val = 0 ∨ n.val = 7 → Completes (.selfTestStepTimeout n) s (fun t => t = s)) ∧
  (∀ n s, n.val ≠ 0 → n.val ≠ 7 → s.power.state ≠ .off → Completes (.selfTestStepTimeout n) s (fun t => t.power.state = .pilot ∧
    t.power.pilot.toNat = 0xC00 + n.val ∧ t.pool.cells = [] ∧ (∀ k, t.keySlot k = {}) ∧ t.lantern.job = none ∧ FusesKept s t)) ∧
  (∀ b s, s.power.state ≠ .off → Completes (.firmwareRecoveryTimeout b) s (fun t => t.power.state = .pilot ∧
    t.power.pilot.toNat = (if b then 0x102 else 0x101) ∧ t.pool.cells = [] ∧ t.svc.running = [] ∧ t.lantern.rom = true ∧
    t.lantern.job = none ∧ FusesKept s t))

/-- R15: a die samples its straps each time its core rail comes up and holds the sample while the rail is up; a warm reset of the die does
not resample; each entry to M-PILOT and each loss of power takes the rail down, so that the exit samples anew.
Model's choices: notes/assumptions/1. -/
def Obligations.StrapsAreSampledAtPowerGood : Prop :=
  (∀ (d : DieId) pos s, (s.die d).railUp = false → Completes (.coreRailPowerGood d pos) s (fun t =>
    (t.die d).strap = pos ∧ (t.die d).railUp = true ∧ (t.die d).fuse = (s.die d).fuse ∧ (∀ e : Nat, e ≠ d → t.die e = s.die e) ∧
    t = { s with dies := t.dies })) ∧
  (∀ (d : DieId) pos s, (s.die d).railUp = true → Completes (.coreRailPowerGood d pos) s (fun t => t = s)) ∧
  (∀ (d : DieId) cap s, Completes (.tileDieReset d cap) s (fun t =>
    ((t.die d).strap = (s.die d).strap ∧ (t.die d).railUp = (s.die d).railUp) ∨ (t.power.state = .pilot ∧ (t.die d).railUp = false))) ∧
  (∀ (d : Nat) (s : State), ((s.domainsOff).die d).railUp = false) ∧
  (∀ (d : Nat) cause (s : State), ((s.powerLoss cause).die d).railUp = false)

/-- R419, R423 and R424: a changed SLOT_ID is logged and left for the next start, a lost REFCLK puts a root or a module outside the tree into
holdover, a ready PE0 link reads as up. Model's choices: notes/assumptions/1, 14. -/
def Obligations.PinEventsAreRecorded : Prop :=
  (∀ id s, Completes (.slotIdChange id) s (fun t => t.pins.slotIdNew = id ∧ t.pins.slotId = s.pins.slotId ∧
    Notified { s with pins := { s.pins with slotIdNew := id } } t)) ∧
  (∀ s, s.fabric.isRoot = true ∨ s.fabric.inTree = false → Completes .refclkLoss s (fun t =>
    t.fabric.refHoldover = true ∧ t.fabric.holdSince = some s.timeNs ∧ t.pins.refclk = false ∧
    t.fabric.node = s.fabric.node ∧ t.ports = s.ports ∧ t.pool = s.pool ∧ t.dies = s.dies ∧ t.tiles = s.tiles)) ∧
  (∀ s, s.fabric.isRoot = false → s.fabric.inTree = true → Completes .refclkLoss s (fun t =>
    t = { s with pins := { s.pins with refclk := false } })) ∧
  (∀ s, s.power.state ≠ .off → Completes .pe0LinkReady s (fun t =>
    t = { s with host := { s.host with pe0Ready := true, pe0Link := true } }))

/-- R26, R103, R108: while the tile rails are up, a store that comes back from T-OFF reads 0 in every byte; a scrub names the words it found bad and goes to the next line;
a tile that fails is fenced, its groups are parked and its operations are gone. Model's choices: notes/assumptions/1, 74. -/
def Obligations.TileStoreEventsKeepOtherTiles : Prop :=
  (∀ (d : DieId) (t : TileId) s, s.domainOn .tile = true → (s.tile d t).power = .off → Completes (.tileStoreRestore d t) s (fun u =>
    (u.tile d t).power = .doze ∧ (∀ a, Map.get 0 (u.tile d t).ts a = 0) ∧ (∀ k : Nat, k ≠ 128 * d + t → Map.get {} u.tiles k = Map.get {} s.tiles k) ∧
    u = { s with tiles := u.tiles })) ∧
  (∀ (d : DieId) (t : TileId) s, (s.tile d t).power ≠ .off ∨ s.domainOn .tile = false → Completes (.tileStoreRestore d t) s (fun u => u = s)) ∧
  (∀ (d : DieId) (t : TileId) single double s, (s.tile d t).power ≠ .off → Completes (.tsScrub d t single double) s (fun u =>
    (u.tile d t).scrubPos = ((s.tile d t).scrubPos + 1) % 16384 ∧ (u.tile d t).ts = (s.tile d t).ts ∧
    (∀ i < 16, double.getLsbD i = true → 16 * (s.tile d t).scrubPos + i ∈ (u.tile d t).tsBad) ∧
    (∀ w ∈ (s.tile d t).tsBad, w ∈ (u.tile d t).tsBad) ∧
    (∀ k : Nat, k ≠ 128 * d + t → Map.get {} u.tiles k = Map.get {} s.tiles k) ∧ Notified { s with tiles := u.tiles } u)) ∧
  (∀ (d : DieId) (t : TileId) s, (Map.get {} (s.die d).units t).present = true → (Map.get {} (s.die d).units t).fenced = false →
    (s.die d).inflight = [] → Completes (.tileFailure d t) s (fun u =>
      (Map.get {} (u.die d).units t).fenced = true ∧ (u.tile d t).mxe = [] ∧ (u.tile d t).packs = [] ∧
      (∀ g ∈ (u.tile d t).slots, g.2.st = .parked) ∧ (u.tile d t).ts = (s.tile d t).ts ∧
      (∀ k : Nat, k ≠ 128 * d + t → Map.get {} u.tiles k = Map.get {} s.tiles k) ∧
      Notified { s with tiles := u.tiles, dies := u.dies } u))

/-! ## Power, clocks, heat (16) -/

/-- R357 and R359: while the module is powered, an input sample is what PWR_IN reads; the tile ratio of the cap goes one step deeper, at most to 1/8, while a limit is at
risk, and one step back when all are safe; 10 ms above the cap force stretching; a poll of the fitted regulators is what PWR_RAIL_r reads. A new cap holds from 1 ms after its response.
Model's choices: notes/assumptions/12, 14. -/
def Obligations.InputSamplesDriveTheCap : Prop :=
  (∀ v a w g s, s.power.state ≠ .off → Completes (.inputSample v a w g) s (fun t =>
    t.power.volts = v ∧ t.power.amps = a ∧ t.power.watts = w ∧ t.power.avg = g ∧
    (3950 < w.toNat ∨ 8200 < a.toNat ∨ 99 * s.power.limit s.timeNs ≤ 100 * g.toNat ∨
      (s.power.capForced = true ∧ s.power.limit s.timeNs < w.toNat) → t.power.capRatio = min 4 (s.power.capRatio + 1)) ∧
    (w.toNat ≤ 3950 → w.toNat ≤ s.power.limit s.timeNs → a.toNat ≤ 8200 → 100 * g.toNat < 99 * s.power.limit s.timeNs →
      t.power.capRatio = s.power.capRatio - 1 ∧ t.power.capForced = false) ∧
    (s.power.capRatio ≤ 4 → t.power.capRatio ≤ 4) ∧
    t.power.cap = s.power.cap ∧ t.power.brake = s.power.brake ∧ t.power.dies = s.power.dies ∧
    t = ({ s with power := t.power } : State).noteClocks)) ∧
  (∀ s, s.power.overSince.isSome = true → Completes .capExcursionLimit s (fun t =>
    t = ({ s with power := { s.power with capForced := true } } : State).noteClocks)) ∧
  (∀ l s, s.power.state ≠ .off → l.length ≤ 23 → Completes (.pmbusPoll l) s (fun t =>
    (∀ r (h : r < l.length), Map.get 0 t.power.rails r =
      if s.railFitted r then l[r].phases ++ l[r].temp ++ l[r].watts ++ l[r].current ++ l[r].mv else Map.get 0 s.power.rails r) ∧
    t = { s with power := { s.power with rails := t.power.rails } })) ∧
  (∀ v a w g l s, s.power.state = .off → Completes (.inputSample v a w g) s (fun t => t = s) ∧ Completes (.pmbusPoll l) s (fun t => t = s))

/-- R360: PB is cap × level / 100, at least 1,000 W, with whatever cap and level stand; level is 40 at delivery. R362: the setting is the
shallowest row of Table 16-6 that PB allows. Model's choices: notes/assumptions/43. -/
def Obligations.BrakeSettingFollowsPB : Prop :=
  (∀ w : Power, w.pb = max (w.cap * w.level / 100) 1000) ∧ State.reset.power.level = 40 ∧ State.reset.power.brakeSet = 2 ∧
  (∀ w : Power, w.brakeSet ≤ 3 ∧ (w.brakeSet = 3 ∨ [2160, 1580, 1280].getD w.brakeSet 0 ≤ w.pb) ∧
    (∀ i < w.brakeSet, w.pb < [2160, 1580, 1280].getD i 0))

/-- R354, R361, R363, R364: the brake input. In M-ACTIVE an assertion applies the brake setting to the tiles and the CPU, with event 0x6001 on
wired source 7; a second onset within 1 ms starts a toggle hold, under which a deassertion releases nothing; in M-IDLE and M-PILOT the
assertion is recorded; the release gives back one step of Table 16-2 at once and one per later step; under-voltage holds with code 3.
Model's choices: notes/assumptions/1, 12, 43. -/
def Obligations.BrakeAppliesAndReleases : Prop :=
  (∀ s, s.power.state = .active → s.power.brakeIn = false → Completes .pwrbrakeAssert s (fun t =>
    t.power.brake = true ∧ t.power.brakeIn = true ∧ t.power.onset = some s.timeNs ∧ t.power.brakeRatio = [2, 3, 4, 5].getD s.power.brakeSet 5 ∧
    t.power.cpuBrake = [2, 2, 3, 4].getD s.power.brakeSet 4 ∧ t.host.wired.getLsbD 7 = true ∧
    (t.power.toggle = true ↔ s.power.toggle = true ∨ ∃ o, s.power.onset = some o ∧ s.timeNs < o + 1000000) ∧
    t.power.held = (if t.power.toggle then 1 else 0) ∧ Notified ({ s with power := t.power } : State).noteClocks t)) ∧
  (∀ s, s.power.state = .idle ∨ s.power.state = .pilot → s.power.brakeIn = false → Completes .pwrbrakeAssert s (fun t =>
    t = { s with power := { s.power with brakeIn := true, onset := some s.timeNs, brakeRecorded := true } })) ∧
  (∀ s, s.power.brakeIn = true → s.power.brake = true → s.power.toggle = false → Completes .pwrbrakeDeassert s (fun t =>
    t.power.brake = false ∧ t.power.brakeIn = false ∧ t.power.brakeRatio = s.power.brakeRatio - 1 ∧ t.power.cpuBrake = s.power.cpuBrake - 1 ∧
    t.power.held = 0 ∧ (t.power.releasing = true ↔ 0 < t.power.brakeRatio ∨ 0 < t.power.cpuBrake) ∧ t.host.wired.getLsbD 7 = true ∧
    Notified { s with power := t.power } t)) ∧
  (∀ s, s.power.brakeIn = true → s.power.toggle = true → Completes .pwrbrakeDeassert s (fun t =>
    t = { s with power := { s.power with brakeIn := false, brakeRecorded := false } })) ∧
  (∀ s, s.power.releasing = true → Completes .brakeReleaseStep s (fun t => t.power.brakeRatio = s.power.brakeRatio - 1 ∧
    t.power.cpuBrake = s.power.cpuBrake - 1 ∧ (t.power.releasing = true ↔ 0 < t.power.brakeRatio ∨ 0 < t.power.cpuBrake) ∧
    t = { s with power := { s.power with brakeRatio := t.power.brakeRatio, cpuBrake := t.power.cpuBrake, releasing := t.power.releasing } })) ∧
  (∀ s, s.power.toggle = true → s.power.brakeIn = false → Completes .toggleHoldExpiry s (fun t =>
    t.power.brake = false ∧ t.power.toggle = false ∧ t.power.brakeRatio = s.power.brakeRatio - 1 ∧ t.host.wired.getLsbD 7 = true ∧
    Notified { s with power := t.power } t)) ∧
  (∀ s, s.power.brakeIn = true → s.power.brake = true → Completes .brakeHeldTimeout s (fun t =>
    Notified { s with power := { s.power with held := 2 } } t)) ∧
  (∀ s, s.power.state ≠ .off → s.power.underVolt = false → Completes .inputUnderVoltage s (fun t =>
    t.power = { s.power with underVolt := true } ∧ t.power.heldCode = 3 ∧ t.host.wired.getLsbD 7 = true ∧
    Notified ({ s with power := t.power } : State).noteClocks t ∧
    (s.lantern.haltBusy = false → ∀ d, [2, 3, 4, 5].getD s.power.brakeSet 5 ≤ t.tileRatio d))) ∧
  (∀ s, s.power.underVolt = true → Completes .underVoltageEnd s (fun t =>
    t.power = { s.power with underVolt := false } ∧ t.power.heldCode = s.power.held.toNat ∧ t.host.wired.getLsbD 7 = true ∧
    Notified { s with power := t.power } t))

/-- R352, R356, R365, R366: while the rails are up, a droop asks for 1/2 on its own die; each throttle step goes one ratio deeper, at most to 1/8, and one back;
entering and leaving throttle raise wired source 8, and THERM_STATUS takes the readings; a die at 1/8 may take 1/64. The applied ratio is the deepest that a cause asks for.
Model's choices: notes/assumptions/1, 12, 14, 46. -/
def Obligations.DroopAndHeatStretchTheirDie : Prop :=
  (∀ (d : DieId) s, s.domainOn .tile = true → Completes (.droopDetect d) s (fun t => 2 ≤ t.tileRatio d ∧
    (∀ e : Nat, e ≠ d → t.tileRatio e = s.tileRatio e) ∧ t.cpuRatio = s.cpuRatio ∧
    t = ({ s with power := { s.power with dies := t.power.dies } } : State).noteClock d)) ∧
  (∀ (d : DieId) s, s.domainOn .tile = false → Completes (.droopDetect d) s (fun t => t = s)) ∧
  (∀ (d : DieId) s, Completes (.droopRecovery d) s (fun t => (t.diePower d).droop = false ∧ t.tileRatio d ≤ s.tileRatio d ∧
    (∀ e : Nat, e ≠ d → t.tileRatio e = s.tileRatio e) ∧ t = { s with power := { s.power with dies := t.power.dies } })) ∧
  (∀ (d : DieId) (temp : BitVec 8) (hot : StackReading) s, s.unitUp d = true → Completes (.throttleDeepen ⟨d.val, by omega⟩ ⟨temp, hot⟩) s (fun t =>
    (t.diePower d).thermal = min 4 ((s.diePower d).thermal + 1) ∧ (t.diePower d).throttled = true ∧
    (t.diePower d).deep = ((s.diePower d).deep && decide (100 ≤ temp.toNat)) ∧ t.power.temps.extractLsb' (8 * d.val) 8 = temp ∧
    t.power.temps.extractLsb' 40 8 = hot.temp ∧ (t.power.temps.extractLsb' 48 8).toNat = hot.stack.val ∧
    ((s.diePower d).throttled = false → t.host.wired.getLsbD 8 = true) ∧ (∀ e : Nat, e ≠ d → t.diePower e = s.diePower e) ∧
    Notified (({ s with power := { s.power with dies := t.power.dies, temps := t.power.temps } } : State).noteClock d) t)) ∧
  (∀ (temp : BitVec 8) (hot : StackReading) s, s.unitUp 4 = true → Completes (.throttleDeepen 4 ⟨temp, hot⟩) s (fun t =>
    t.power.hdThermal = min 4 (s.power.hdThermal + 1) ∧ t.power.hdThrottled = true ∧ t.power.temps.extractLsb' 32 8 = temp ∧
    t.power.temps.extractLsb' 40 8 = hot.temp ∧ (t.power.temps.extractLsb' 48 8).toNat = hot.stack.val ∧
    (s.power.hdThrottled = false → t.host.wired.getLsbD 8 = true) ∧
    Notified { s with power := { s.power with hdThermal := t.power.hdThermal, hdThrottled := true, temps := t.power.temps } } t)) ∧
  (∀ (u : Fin 5) (temp : BitVec 8) (hot : StackReading) s, s.unitUp u = false → Completes (.throttleDeepen u ⟨temp, hot⟩) s (fun t => t = s) ∧
    Completes (.throttleRelax u ⟨temp, hot⟩) s (fun t => t = s)) ∧
  (∀ (d : DieId) (temp : BitVec 8) (hot : StackReading) s, s.unitUp d = true → (s.diePower d).throttled = true → Completes (.throttleRelax ⟨d.val, by omega⟩ ⟨temp, hot⟩) s (fun t =>
    (t.diePower d).thermal = (s.diePower d).thermal - 1 ∧ (t.diePower d).deep = false ∧ t.power.temps.extractLsb' (8 * d.val) 8 = temp ∧
    ((t.diePower d).throttled = true ↔ 0 < (t.diePower d).thermal) ∧
    ((t.diePower d).thermal = 0 → t.host.wired.getLsbD 8 = true) ∧ (∀ e : Nat, e ≠ d → t.diePower e = s.diePower e) ∧
    Notified { s with power := { s.power with dies := t.power.dies, temps := t.power.temps } } t)) ∧
  (∀ (temp : BitVec 8) (hot : StackReading) s, s.unitUp 4 = true → s.power.hdThrottled = true → Completes (.throttleRelax 4 ⟨temp, hot⟩) s (fun t =>
    t.power.hdThermal = s.power.hdThermal - 1 ∧ t.power.temps.extractLsb' 32 8 = temp ∧
    (t.power.hdThrottled = true ↔ 0 < t.power.hdThermal) ∧
    Notified { s with power := { s.power with hdThermal := t.power.hdThermal, hdThrottled := t.power.hdThrottled, temps := t.power.temps } } t)) ∧
  (∀ (d : DieId) s, (s.diePower d).thermal = 4 → Completes (.thermalDeepRatio d) s (fun t => 5 ≤ t.tileRatio d ∧
    (∀ e : Nat, e ≠ d → t.tileRatio e = s.tileRatio e) ∧ t = ({ s with power := { s.power with dies := t.power.dies } } : State).noteClock d)) ∧
  (∀ (d : DieId) s, (s.diePower d).thermal ≠ 4 → Completes (.thermalDeepRatio d) s (fun t => t = s))

/-- R358, R369, R370: PWR_CPU.step reads back at most 13; a die takes the new code at a frame boundary at or after the change time, with ES
going on from where it stood; the phases follow the highest open flare class, 16 without one. Model's choices: notes/assumptions/1, 14, 45. -/
def Obligations.ClocksAndPhasesAreSet : Prop :=
  (∀ v s, Completes (.pwrCpu v) s (fun t => t.host.cpuStep.toNat = min (v.toNat % 16) 13 ∧
    t = { s with host := { s.host with cpuStep := t.host.cpuStep } })) ∧
  (∀ (d : DieId) (j : Job) code tc s, s.lantern.job = some j → j.freqNew = some (code, tc) → j.state = 3 → (s.die d).running = true →
    tc ≤ s.timeNs → (s.die d).sc = (s.die d).frameStart → s.switched j d = false → Completes (.frequencySwitch d) s (fun t =>
      (t.diePower d).code = code ∧ (t.diePower d).railMv = [720, 690, 660, 630, 600, 560].getD (min code 5) 0 ∧
      (t.die d).esBase = s.es d ∧ (t.die d).esTime = s.timeNs ∧
      (t.die d).sc = (s.die d).sc ∧ (∀ e : Nat, e ≠ d → t.diePower e = s.diePower e ∧ t.die e = s.die e) ∧
      t.pool = s.pool ∧ t.tiles = s.tiles ∧ t.sec = s.sec)) ∧
  (∀ (d : DieId) s, (s.die d).flares = [] → Completes (.flarePhaseSet d) s (fun t => (t.diePower d).phases = 16 ∧
    (∀ e : Nat, e ≠ d → t.diePower e = s.diePower e) ∧ t.tiles = s.tiles ∧ t.pool = s.pool)) ∧
  (∀ (d : DieId) (f : Flare) s, (s.die d).flares = [f] → f.start ≤ (s.die d).sc → (s.die d).sc < f.stop →
    Completes (.flarePhaseSet d) s (fun t => (t.diePower d).phases = 2 * (f.cls + 1) ∧ (t.die d).flares = [f] ∧
      (∀ e : Nat, e ≠ d → t.diePower e = s.diePower e) ∧ t.tiles = s.tiles ∧ t.pool = s.pool))

/-- R371 to R374 and Table 04-6: when a tile changes its power state, and what it loses. T-GATE and T-NAP keep every store; T-DOZE loses the operand
cache and the plates; T-OFF loses the tile store as well; R200: a tile with stores not yet acknowledged
goes no further than T-GATE. Model's choices: notes/assumptions/1, 12. -/
def Obligations.TilePowerStatesLoseTheirStores : Prop :=
  (∀ (d : DieId) (u : TileId) s, (s.tile d u).power = .run → s.unitsIdle d u = true → Completes (.tGateEntry d u) s (fun t =>
    t.tile d u = { s.tile d u with power := .gate } ∧ (∀ k : Nat, k ≠ 128 * d + u → Map.get {} t.tiles k = Map.get {} s.tiles k) ∧
    t = { s with tiles := t.tiles })) ∧
  (∀ (d : DieId) (u : TileId) n s, s.jobState = 3 → (s.die d).running = true → s.unitsIdle d u = true → s.inIsland d u = false →
    s.tileWrites d u = false → (s.tile d u).power = .run ∨ (s.tile d u).power = .gate → (s.die d).due = [] →
    nextSlot (s.die d).stream u (2 * ((s.die d).stream.length / 64) + 4) (s.die d).next (s.die d).frameStart (s.die d).frameL
      ((s.die d).frameRepeat - (s.die d).frameRep - 1) (s.die d).framePos false = n →
    Completes (.tileIdle d u) s (fun t =>
      t.tile d u = (match n with
        | none => { s.tile d u with power := .doze, plates := [], plateBad := [], oc := [], ocBad := [] }
        | some n => if 2344 ≤ n - (s.die d).sc then { s.tile d u with power := .doze, plates := [], plateBad := [], oc := [], ocBad := [] }
          else if 63 ≤ n - (s.die d).sc then { s.tile d u with power := .nap } else s.tile d u) ∧
      (∀ k : Nat, k ≠ 128 * d + u → Map.get {} t.tiles k = Map.get {} s.tiles k) ∧ t = { s with tiles := t.tiles })) ∧
  (∀ (d : DieId) (u : TileId) s, s.domain .tile = .perTile → Completes (.tileWake d u) s (fun t =>
    (t.tile d u).power = .run ∧ (∀ a, Map.get 0 (t.tile d u).ts a = (if (s.tile d u).power = .off then 0 else Map.get 0 (s.tile d u).ts a)) ∧
    (t.tile d u).oc = (s.tile d u).oc ∧ (∀ k : Nat, k ≠ 128 * d + u → Map.get {} t.tiles k = Map.get {} s.tiles k) ∧
    t = { s with tiles := t.tiles })) ∧
  (∀ (d : DieId) (u : TileId) s, s.domain .tile ≠ .perTile → Completes (.tileWake d u) s (fun t => t = s)) ∧
  (∀ (d : DieId) (u : TileId) ns s, s.jobState ≠ 3 → (s.tile d u).idle = true → s.inIsland d u = false →
    (s.tile d u).power = .run ∨ (s.tile d u).power = .gate ∨ (s.tile d u).power = .nap → s.entryNames d u = false → s.tileWrites d u = false →
    (s.die d).tileCfg = 0xA028 → (s.die d).wqs.all (fun w => !w.2.enable) = true → Completes (.tileQueueIdle d u ns) s (fun t =>
      t.tile d u = (if 1000000 ≤ ns then { s.tile d u with power := .doze, plates := [], plateBad := [], oc := [], ocBad := [] }
        else if 4000 ≤ ns then { s.tile d u with power := .nap } else s.tile d u) ∧
      (∀ k : Nat, k ≠ 128 * d + u → Map.get {} t.tiles k = Map.get {} s.tiles k) ∧ t = { s with tiles := t.tiles })) ∧
  (∀ (d : DieId) (u : TileId) s, (s.die d).tileCfg.getLsbD 0 = true → s.lantern.job = none → (s.tile d u).power = .doze →
    s.tileWrites d u = false → Completes (.toffIdleExpiry d u) s (fun t =>
      (t.tile d u).power = .off ∧ (t.tile d u).ts = [] ∧ (t.tile d u).oc = [] ∧ (t.tile d u).plates = [] ∧
      (∀ k : Nat, k ≠ 128 * d + u → Map.get {} t.tiles k = Map.get {} s.tiles k) ∧ t = { s with tiles := t.tiles })) ∧
  (∀ (d : DieId) (u : TileId) s, (s.die d).tileCfg.getLsbD 0 = true → s.lantern.job = none → (s.tile d u).power = .doze →
    s.tileWrites d u = true → Completes (.toffIdleExpiry d u) s (fun t =>
      t.tile d u = { s.tile d u with power := .gate } ∧ t = { s with tiles := t.tiles }))

/-- R200, R361, R375 and R376: M-IDLE needs the automatic entry, no job and no enabled queue; buffered stores are performed and transactions end
first; it puts tiles in T-DOZE and memory in self-refresh and keeps memory, keys and the tile stores. A wake brings the module back and applies a
brake asserted meanwhile. Model's choices: notes/assumptions/1, 44. -/
def Obligations.IdleKeepsMemoryAndStores : Prop :=
  (∀ s, s.power.state = .active → s.power.modCfg.getLsbD 0 = true → s.lantern.job = none → s.queueEnabled = false →
    Completes .moduleAutoIdle s (fun t => t.power.state = .idle ∧ (∀ c < 28, (t.ctrl c).selfRefresh = true) ∧
      t.pool.cells = (s.host.harts.foldl (fun s h => s.wcDrainAll h.1) s).settleAll.pool.cells ∧ t.lantern.job = none)) ∧
  (∀ s, s.power.state = .active → s.power.modCfg.getLsbD 0 = true → s.lantern.job = none → s.queueEnabled = false →
    s.host.harts = [] → s.pool.msgs = [] → s.pool.agents = [] →
    Completes .moduleAutoIdle s (fun t => t.power.state = .idle ∧ (∀ c < 28, (t.ctrl c).selfRefresh = true) ∧ t.pool.cells = s.pool.cells ∧
      t.pool.tags = s.pool.tags ∧ t.sec = s.sec ∧ t.dies = s.dies ∧ t.lantern = s.lantern ∧ t.host = s.host)) ∧
  (∀ s, s.power.state = .active → s.power.modCfg.getLsbD 0 = false ∨ s.lantern.job ≠ none ∨ s.queueEnabled = true →
    Completes .moduleAutoIdle s (fun t => t = s)) ∧
  (∀ w s, s.power.state = .idle → Completes (.moduleWake w) s (fun t => t.power.state = .active ∧ (∀ c < 28, (t.ctrl c).selfRefresh = false) ∧
    t.pool.cells = s.pool.cells ∧ t.pool.tags = s.pool.tags ∧ t.sec = s.sec ∧ t.dies = s.dies ∧
    (s.power.brakeIn = true → s.power.brakeRecorded = true → t.power.brake = true ∧ t.power.brakeRecorded = false))) ∧
  (∀ w s, s.power.state ≠ .idle → Completes (.moduleWake w) s (fun t => t = s))

/-! ## Yesia: mailboxes (15) -/

/-- R331, R333, R338: a response has the header of Table 15-3 with the pilot code while in M-PILOT. It goes into the free response buffer, else
to the end of the queue, that of DEV_HALT to its head; on a DTLS association it is sent at once and ends its request's life; on I3C it waits
until the target delivers it; a request that is outstanding no more gets none. Model's choices: notes/assumptions/86. -/
def Obligations.ResponsesTakeTheirPath : Prop :=
  (∀ (s : State) cmd r tag st p, cmd < 65536 → tag < 65536 → st < 65536 → p.length < 65536 →
    (s.rspMsg cmd r tag st p).length = 16 + p.length ∧ (s.rspMsg cmd r tag st p).drop 16 = p ∧
    fieldAt (s.rspMsg cmd r tag st p) 0 1 = r.version.toNat ∧ fieldAt (s.rspMsg cmd r tag st p) 1 1 = 1 ∧
    fieldAt (s.rspMsg cmd r tag st p) 2 2 = cmd ∧ fieldAt (s.rspMsg cmd r tag st p) 4 2 = tag ∧
    fieldAt (s.rspMsg cmd r tag st p) 6 2 = st ∧ fieldAt (s.rspMsg cmd r tag st p) 8 2 = p.length ∧
    fieldAt (s.rspMsg cmd r tag st p) 10 2 = (if s.power.state = .pilot then s.power.pilot.toNat else 0) ∧
    fieldAt (s.rspMsg cmd r tag st p) 12 4 = r.handle.toNat) ∧
  (∀ (s : State) cmd r st p, (r.src, r.tag.toNat) ∉ (s.box (boxOf r.src)).outstanding → s.respond cmd r st p = s) ∧
  (∀ (s : State) cmd r st p, (r.src, r.tag.toNat) ∈ (s.box (boxOf r.src)).outstanding → boxOf r.src ≠ 2 →
    (s.box (boxOf r.src)).rsp = none →
    (s.respond cmd r st p).box (boxOf r.src) =
      { s.box (boxOf r.src) with rsp := some ⟨r.src, s.rspMsg cmd r r.tag.toNat st p, true⟩ }) ∧
  (∀ (s : State) cmd r st p x, (r.src, r.tag.toNat) ∈ (s.box (boxOf r.src)).outstanding → boxOf r.src ≠ 2 →
    (s.box (boxOf r.src)).rsp = some x →
    (s.respond cmd r st p).box (boxOf r.src) = { s.box (boxOf r.src) with rspQueue :=
      (if cmd = 0x0103 then ⟨r.src, s.rspMsg cmd r r.tag.toNat st p, true⟩ :: (s.box (boxOf r.src)).rspQueue
       else (s.box (boxOf r.src)).rspQueue ++ [⟨r.src, s.rspMsg cmd r r.tag.toNat st p, true⟩]) }) ∧
  (∀ (s : State) cmd r st p (k : Fin 4), r.src = .dtls k → (r.src, r.tag.toNat) ∈ (s.box 2).outstanding → cmd < 65536 → st < 65536 →
    ((s.respond cmd r st p).box 2).sentMg = (s.box 2).sentMg ++ [(r.src, s.rspMsg cmd r r.tag.toNat st p)] ∧
    (r.src, r.tag.toNat) ∉ ((s.respond cmd r st p).box 2).outstanding) ∧
  (∀ (s : State) cmd r st p, r.src = .i3c → (r.src, r.tag.toNat) ∈ (s.box 2).outstanding →
    (s.respond cmd r st p).box 2 = { s.box 2 with i3cOut := (s.box 2).i3cOut ++ [⟨r.src, s.rspMsg cmd r r.tag.toNat st p, true⟩] }) ∧
  (∀ (s : State) x rest, (s.box 2).i3cOut = x :: rest → s.pins.i3cAddr.isSome = true →
    s.i3cDeliver.box 2 = ({ s.box 2 with i3cOut := rest } : Mailbox).sendOut x ∧ (s.i3cDeliver.box 2).sentMg = (s.box 2).sentMg ++ [(x.src, x.msg)])

/-- R332, R336 to R340: a request that passes every check waits for its turn and is outstanding; one that fails is answered by status with
nothing else done: 32 outstanding BUSY, a malformed one counted and answered with its first 16 bytes, a tag in use under tag 0xFFFF, an unknown
command, a mailbox that may not send it, a version outside the range. Model's choices: notes/assumptions/52, 53. -/
def Obligations.RequestsAreCheckedOnReceipt : Prop :=
  (∀ (eh : Bool) (v : Word) s, s.power.state ≠ .off → (s.box (b2n eh)).free.getLsbD (v.toNat % 4) = true → s.lantern.handover = false →
    Completes (.mbxReqDb eh v) s (fun t =>
      t = s.receive (if eh then .eh else .os) (((s.box (b2n eh)).message (v.toNat % 4))))) ∧
  (∀ (eh : Bool) (v : Word) s, s.power.state ≠ .off → (s.box (b2n eh)).free.getLsbD (v.toNat % 4) = false → (s.box (b2n eh)).malTimes = [] →
    (s.box (b2n eh)).malformed ≠ 0xFFFFFFFF → Completes (.mbxReqDb eh v) s (fun t =>
      (t.box (b2n eh)).malformed = (s.box (b2n eh)).malformed + 1 ∧ Notified s t)) ∧
  (∀ (k : Source) raw s, s.power.state ≠ .off → k = .i3c → s.pins.i3cAddr.isSome = true → s.lantern.handover = false →
    Completes (.mgRequest k raw) s (fun t => t = s.receive k raw)) ∧
  (∀ (k : Fin 4) raw s, s.power.state ≠ .off → s.lantern.handover = true → Completes (.mgRequest (.dtls k) raw) s (fun t =>
    (t.box 2).held = (s.box 2).held ++ [(.dtls k, raw)] ∧ t.lantern.dtlsOpen.getLsbD k.val = true ∧ t.lantern.waiting = s.lantern.waiting)) ∧
  (∀ (s : State) k raw i, s.takes (boxOf k) → badHeader raw = false → (k, fieldAt raw 4 2) ∉ (s.box (boxOf k)).outstanding →
    s.yesiaMin ≤ fieldAt raw 0 1 → fieldAt raw 0 1 ≤ s.yesiaMax → commandInfo (fieldAt raw 2 2) = some i → i.permits k = true →
    s.pilotRefuses (fieldAt raw 2 2) i = false → badPayload (fieldAt raw 2 2) i (raw.drop 16) = false → badOp (fieldAt raw 2 2) (raw.drop 16) = false →
    (s.receive k raw).lantern.waiting = s.lantern.waiting ++ [⟨fieldAt raw 2 2, requestOf k raw⟩] ∧
    ((s.receive k raw).box (boxOf k)).outstanding = (s.box (boxOf k)).outstanding ++ [(k, fieldAt raw 4 2)] ∧
    s.receive k raw = { s with lantern := { s.lantern with boxes := (s.receive k raw).lantern.boxes, waiting := (s.receive k raw).lantern.waiting } }) ∧
  (∀ (s : State) k raw, (s.box (boxOf k)).throttled = false → 32 ≤ (s.box (boxOf k)).outstanding.length →
    s.receive k raw = s.post ⟨k, s.rspMsg (fieldAt raw 2 2) (requestOf k raw) (fieldAt raw 4 2) 4 [], false⟩ false) ∧
  (∀ (s : State) k raw, s.takes (boxOf k) → badHeader raw = false → (k, fieldAt raw 4 2) ∈ (s.box (boxOf k)).outstanding →
    s.receive k raw = s.post ⟨k, s.rspMsg (fieldAt raw 2 2) (requestOf k raw) 0xFFFF 0x0C (raw.take 16), false⟩ false) ∧
  (∀ (s : State) k raw, s.takes (boxOf k) → badHeader raw = true → s.receive k raw = (s.countMalformed (boxOf k)).post
    ⟨k, (s.countMalformed (boxOf k)).rspMsg (fieldAt raw 2 2) (requestOf k raw) (if raw.length < 6 then 0xFFFF else fieldAt raw 4 2) 1 (raw.take 16), false⟩ false) ∧
  (∀ (s : State) k raw, s.takes (boxOf k) → badHeader raw = false → (k, fieldAt raw 4 2) ∉ (s.box (boxOf k)).outstanding →
    s.yesiaMin ≤ fieldAt raw 0 1 → fieldAt raw 0 1 ≤ s.yesiaMax → commandInfo (fieldAt raw 2 2) = none →
    s.receive k raw = s.answerNow (fieldAt raw 2 2) (requestOf k raw) 2 []) ∧
  (∀ (s : State) k raw i, s.takes (boxOf k) → badHeader raw = false → (k, fieldAt raw 4 2) ∉ (s.box (boxOf k)).outstanding →
    s.yesiaMin ≤ fieldAt raw 0 1 → fieldAt raw 0 1 ≤ s.yesiaMax → commandInfo (fieldAt raw 2 2) = some i → i.permits k = true →
    s.pilotRefuses (fieldAt raw 2 2) i = true → s.receive k raw = s.answerNow (fieldAt raw 2 2) (requestOf k raw) 0x0D []) ∧
  (∀ (s : State) k raw, s.takes (boxOf k) → badHeader raw = false → (k, fieldAt raw 4 2) ∉ (s.box (boxOf k)).outstanding →
    s.yesiaMax < fieldAt raw 0 1 → s.yesiaMax < 256 →
    s.receive k raw = s.answerNow (fieldAt raw 2 2) { requestOf k raw with version := BitVec.ofNat 8 s.yesiaMax } 0x0B
      (leBytes 1 s.yesiaMin ++ leBytes 1 s.yesiaMax))

/-- R331, R333, R334, R341: acknowledging a response ends its request's life and lets the next one take the buffer; TAIL moves only between
its place and HEAD, any other write is counted as malformed; a throttled mailbox leaves after a second with fewer than 10 malformed messages;
a closing DTLS association drops its outstanding requests and its challenges. Model's choices: notes/assumptions/12, 53. -/
def Obligations.MailboxClientsMoveTheirRings : Prop :=
  (∀ (eh : Bool) x s, (s.box (b2n eh)).rsp = some x → Completes (.mbxRspAck eh) s (fun t =>
    (t.box (b2n eh)).rsp = (s.box (b2n eh)).rspQueue.head? ∧ (t.box (b2n eh)).rspQueue = (s.box (b2n eh)).rspQueue.drop 1 ∧
    (x.counts = true → (x.src, fieldAt x.msg 4 2) ∉ (t.box (b2n eh)).outstanding) ∧
    (x.counts = false → (t.box (b2n eh)).outstanding = (s.box (b2n eh)).outstanding) ∧ Notified s t)) ∧
  (∀ (eh : Bool) w s, ((s.box (b2n eh)).evtHead - w).toNat ≤ ((s.box (b2n eh)).evtHead - (s.box (b2n eh)).evtTail).toNat →
    Completes (.mbxEvtTail eh w) s (fun t => t.box (b2n eh) = { s.box (b2n eh) with evtTail := w } ∧ Notified s t)) ∧
  (∀ (eh : Bool) w s, ((s.box (b2n eh)).evtHead - (s.box (b2n eh)).evtTail).toNat < ((s.box (b2n eh)).evtHead - w).toNat →
    Completes (.mbxEvtTail eh w) s (fun t => (t.box (b2n eh)).evtTail = (s.box (b2n eh)).evtTail ∧
      (t.box (b2n eh)).malformed.toNat = min ((s.box (b2n eh)).malformed.toNat + 1) (2 ^ 32 - 1) ∧ Notified s t)) ∧
  (∀ (m : Fin 3) s, (s.box m).throttled = true → (s.box m).malTimes = [] → Completes (.mailboxThrottleEnd m) s (fun t =>
    (t.box m).throttled = false ∧ (t.box m).dropped = 0 ∧ (t.box m).outstanding = (s.box m).outstanding ∧ Notified s t)) ∧
  (∀ (k : Fin 4) s, Completes (.dtlsAssociationClose k) s (fun t => t.lantern.dtlsOpen.getLsbD k.val = false ∧
    (∀ o ∈ (t.box 2).outstanding, o ∈ (s.box 2).outstanding ∧ o.1 ≠ .dtls k) ∧
    (∀ c ∈ t.sec.challenges, c ∈ s.sec.challenges ∧ c.src ≠ .dtls k) ∧ t.lantern.waiting = s.lantern.waiting ∧ t.lantern.job = s.lantern.job ∧
    t.sec.keys = s.sec.keys ∧ (∀ b, b ≠ 2 → t.box b = s.box b)))

/-- R334, the event ring: a record of an enabled class goes to the ring at HEAD, with the lost flag of the last gap; a full ring counts it as
lost; a class that the mask excludes leaves no trace. Model's choices: notes/assumptions/11. -/
def Obligations.EventRingsKeepOrCount : Prop :=
  (∀ (s : State) b code rec, (s.box b).evtMask.getLsbD (code / 4096) = false → s.ringAppend b code rec = s) ∧
  (∀ (s : State) b code rec, (s.box b).evtMask.getLsbD (code / 4096) = true → ((s.box b).evtHead - (s.box b).evtTail).toNat = 256 →
    (s.ringAppend b code rec).box b = { s.box b with
      evtLost := BitVec.ofNat 32 (min ((s.box b).evtLost.toNat + 1) (2 ^ 32 - 1)), lostFlag := true }) ∧
  (∀ (s : State) b code rec, (s.box b).evtMask.getLsbD (code / 4096) = true → ((s.box b).evtHead - (s.box b).evtTail).toNat ≠ 256 →
    ((s.ringAppend b code rec).box b).evtHead = (s.box b).evtHead + 1 ∧ ((s.ringAppend b code rec).box b).lostFlag = false ∧
    Map.get [] ((s.ringAppend b code rec).box b).ring ((s.box b).evtHead.toNat % 256) = rec (b2n (s.box b).lostFlag) ∧
    (∀ k, k ≠ (s.box b).evtHead.toNat % 256 → Map.get [] ((s.ringAppend b code rec).box b).ring k = Map.get [] (s.box b).ring k) ∧
    (b = 0 → (s.ringAppend b code rec).host.wired.getLsbD 2 = true) ∧ Notified s (s.ringAppend b code rec))

/-! ## Yesia: queries, power, security (15 to 17) -/

/-- R342, R346, R381 and Tables 15-6 and 15-8: the commands that only read answer with their record and change nothing else.
Model's choices: notes/assumptions/56, 57. -/
def Obligations.QueriesOnlyAnswer : Prop :=
  (∀ r s, Served s 0x0101 r → Completes (.devQuery r) s (fun t => ∃ p, t = (s.taken 0x0101 r).respond 0x0101 r 0 p ∧ p.length = 0xD1 ∧
    fieldAt p 0 1 = (if s.lnVariant then 1 else 0) ∧ fieldAt p 2 1 = s.sec.lifecycle.toNat ∧ fieldAt p 4 2 = s.fabric.node.toNat ∧
    fieldAt p 0xC0 4 = (s.box 0).malformedAll.toNat ∧ fieldAt p 0xC4 4 = (s.box 1).malformedAll.toNat ∧
    fieldAt p 0xC8 4 = (s.box 2).malformedAll.toNat)) ∧
  (∀ r s, Served s 0x0102 r → Completes (.devIdentify r) s (fun t => ∃ p, t = (s.taken 0x0102 r).respond 0x0102 r 0 p ∧ p.length = 44 ∧
    (s.yesiaMin < 65536 → fieldAt p 0 2 = s.yesiaMin) ∧ fieldAt p 8 16 = Config.serial.toNat ∧
    bytesAt p 24 10 = [0x4A, 0x4E, 0x38, 0x2D, 0x33, 0x4B, 0x34, 0x2D, 0x4C, if s.lnVariant then 0x4E else 0x46])) ∧
  (∀ r s, Served s 0x0207 r → s.lantern.job = none → Completes (.jobStatus r) s (fun t =>
    t = (s.taken 0x0207 r).respond 0x0207 r 0 (List.replicate 64 0))) ∧
  (∀ r s (j : Job), Served s 0x0207 r → s.lantern.job = some j → j.handle = r.handle.toNat → Completes (.jobStatus r) s (fun t =>
    ∃ p, t = (s.taken 0x0207 r).respond 0x0207 r 0 p ∧ p.length = 64 ∧ fieldAt p 0 1 = j.shown.toNat ∧ fieldAt p 2 2 = j.failStatus.toNat ∧
      fieldAt p 8 8 = j.failPos.toNat ∧ fieldAt p 16 8 = j.slipSlot.toNat ∧ 
      fieldAt p 24 8 = ((List.range 4).foldl (fun a d => max a (s.jobSlip j d)) j.slipMax.toNat) % 2 ^ 64)) ∧
  (∀ r s, Served s 0x0301 r → Completes (.memMap r) s (fun t => ∃ p, t = (s.taken 0x0301 r).respond 0x0301 r 0 p ∧ p.length = 448 ∧
    ∀ c < 28, fieldAt p (16 * c) 8 = ctrlBase c)) ∧
  (∀ r s, Served s 0x0501 r → Completes (.secAttest r) s (fun t => ∃ p, t = (s.taken 0x0501 r).respond 0x0501 r 0 p ∧
    p.take 512 = s.report (bytesAt r.payload 0 48) ∧ (bit (fieldAt r.payload 48 1) 0 = false → p.length = 512))) ∧
  (∀ r s, Served s 0x0604 r → Completes (.svcLog r) s (fun t => ∃ l : List LogEntry, t = (s.taken 0x0604 r).respond 0x0604 r 0 (l.map LogEntry.bytes).flatten ∧
    l.length ≤ min 64 (fieldAt r.payload 8 2) ∧
    (∀ e ∈ l, e ∈ (s.log (fieldAt r.payload 0 1)).entries ∧ fieldAt r.payload 4 4 ≤ e.seq) ∧ ∀ e ∈ l, (LogEntry.bytes e).length = 64)) ∧
  (∀ r s, Served s 0x0303 r → fieldAt r.payload 0 1 = 0 → fieldAt r.payload 1 1 < 12 → Completes (.memRepairQuery r) s (fun t =>
    ∃ p, t = (s.taken 0x0303 r).respond 0x0303 r 0 p ∧ p.length = 256)) ∧
  (∀ r s, Served s 0x0302 r → fieldAt r.payload 0 1 = 1 → Completes (.memKeepReadRecord r) s (fun t =>
    t = (s.taken 0x0302 r).respond 0x0302 r 0 s.keepRecord ∧ s.keepRecord.length = 384)) ∧
  (∀ r s, Served s 0x0304 r → fieldAt r.payload 0 1 = 0 → fieldAt r.payload 1 1 < 12 → Completes (.memScrubRead r) s (fun t =>
    ∃ p, t = (s.taken 0x0304 r).respond 0x0304 r 0 p ∧ p.length = 20 ∧ fieldAt p 8 4 = (s.ctrl (fieldAt r.payload 1 1)).rakePasses % 2 ^ 32)) ∧
  (∀ r s, Served s 0x0502 r → fieldAt r.payload 0 1 = 0 → fieldAt r.payload 1 1 < 64 → Completes (.secKeyQuery r) s (fun t =>
    t = (s.taken 0x0502 r).respond 0x0502 r 0 (leBytes 4 (s.keySlot (fieldAt r.payload 1 1)).word)))

/-- R381 and Table 17-3: the layout of a report and what its signature covers. Model's choices: notes/assumptions/9, 106. -/
def Obligations.ReportsSayWhatTheModuleIs : Prop :=
  ∀ (s : State) nonce, nonce.length = 48 → (s.report nonce).length = 512 ∧ fieldAt (s.report nonce) 0 4 = 0x4A385250 ∧
    fieldAt (s.report nonce) 4 2 = 1 ∧ fieldAt (s.report nonce) 6 2 = 0x200 ∧ fieldAt (s.report nonce) 8 1 = s.sec.lifecycle.toNat ∧
    fieldAt (s.report nonce) 9 1 = s.sec.level.toNat + (if s.sec.debugActive then 128 else 0) ∧
    fieldAt (s.report nonce) 0x0E 2 = s.fabric.node.toNat ∧ bytesAt (s.report nonce) 0x40 48 = nonce ∧
    fieldAt (s.report nonce) 0x30 16 = (match s.lantern.job with | some j => j.jobId.toNat | none => 0) ∧
    (s.sec.osDigest.length = 48 → bytesAt (s.report nonce) 0xD0 48 = s.sec.osDigest) ∧
    (s.sec.osSigner.length = 48 → bytesAt (s.report nonce) 0x100 48 = s.sec.osSigner) ∧
    fieldAt (s.report nonce) 0x190 1 = s.sec.restartCount.toNat ∧
    (s.report nonce).drop 0x1A0 = bytesAt (s.aliasSign (sha384 ((s.report nonce).take 0x1A0))) 0 96

/-- R360: a whole number of watts is at most PB when it is at most cap × level / 100 or at most 1,000 W; PWR_CAP sets the level, from 10 % to 100 %,
PB following at once; the default is 40 %. -/
def Obligations.BrakePowerFollowsCapAndLevel : Prop :=
  (∀ (w : Power) (n : Nat), n ≤ w.pb ↔ 100 * n ≤ w.cap * w.level ∨ n ≤ 1000) ∧ State.reset.power.level = 40 ∧
  (∀ r s, Served s 0x0401 r → 1200 ≤ fieldAt r.payload 0 2 → fieldAt r.payload 0 2 ≤ 3400 → 10 ≤ fieldAt r.payload 2 1 →
    fieldAt r.payload 2 1 ≤ 100 → Completes (.pwrCap r) s (fun t => t.power.level = fieldAt r.payload 2 1 ∧ ∀ n, n ≤ t.power.pb ↔
      100 * n ≤ fieldAt r.payload 0 2 * fieldAt r.payload 2 1 ∨ n ≤ 1000)) ∧
  ∀ r s, Served s 0x0401 r → (0 < fieldAt r.payload 2 1 ∧ fieldAt r.payload 2 1 < 10) ∨ 100 < fieldAt r.payload 2 1 →
    Completes (.pwrCap r) s (fun t => t.power.level = s.power.level ∧ t.power.cap = s.power.cap)

/-- R359, R360 and Table 15-6: PWR_CAP sets cap and brake level, 0 keeps a field; PB changes at once, and under a held brake so does the setting
applied; the limits of the cap follow 1 ms later; a value out of range changes nothing and answers YST_ARG.
Model's choices: notes/assumptions/43. -/
def Obligations.PwrCapSetsCapAndLevel : Prop :=
  (∀ r s, Served s 0x0401 r → fieldAt r.payload 0 2 = 0 ∨ (1200 ≤ fieldAt r.payload 0 2 ∧ fieldAt r.payload 0 2 ≤ 3400) →
    fieldAt r.payload 2 1 = 0 ∨ (10 ≤ fieldAt r.payload 2 1 ∧ fieldAt r.payload 2 1 ≤ 100) → Completes (.pwrCap r) s (fun t => ∃ u : State,
      t = u.respond 0x0401 r 0 (leBytes 2 u.power.cap ++ leBytes 1 u.power.level) ∧
      u.power.cap = (if fieldAt r.payload 0 2 = 0 then s.power.cap else fieldAt r.payload 0 2) ∧
      u.power.level = (if fieldAt r.payload 2 1 = 0 then s.power.level else fieldAt r.payload 2 1) ∧
      t.power.pb = max (u.power.cap * u.power.level / 100) 1000 ∧
      (s.power.brake = false → u.power.brakeRatio = s.power.brakeRatio ∧ u.power.cpuBrake = s.power.cpuBrake) ∧
      (s.power.brake = true → u.power.brakeRatio = [2, 3, 4, 5].getD u.power.brakeSet 5) ∧
      (fieldAt r.payload 0 2 = 0 → u.power.capOld = s.power.capOld ∧ u.power.capFrom = s.power.capFrom) ∧
      (fieldAt r.payload 0 2 ≠ 0 → u.power.capFrom = s.timeNs + 1000000 ∧ u.power.limit s.timeNs = s.power.limit s.timeNs ∧
        ∀ n, s.timeNs + 1000000 ≤ n → u.power.limit n = fieldAt r.payload 0 2) ∧
      u = { s.taken 0x0401 r with power := { s.power with
        cap := u.power.cap, level := u.power.level, capOld := u.power.capOld, capFrom := u.power.capFrom,
        brakeRatio := u.power.brakeRatio, cpuBrake := u.power.cpuBrake } })) ∧
  (∀ r s, Served s 0x0401 r → (0 < fieldAt r.payload 0 2 ∧ fieldAt r.payload 0 2 < 1200) ∨ 3400 < fieldAt r.payload 0 2 ∨
    (0 < fieldAt r.payload 2 1 ∧ fieldAt r.payload 2 1 < 10) ∨ 100 < fieldAt r.payload 2 1 →
    Completes (.pwrCap r) s (fun t => t = (s.taken 0x0401 r).respond 0x0401 r 6 []))

/-- R200, R345, R368, R375 and Table 16-9: PWR_STATE is refused while a job of state 0 to 4 exists or a queue is enabled; else it goes to the target.
PWR_FREQ with handle 0 sets the default of later jobs only; a member of a rank other than 0 answers YST_STATE.
Model's choices: notes/assumptions/44, 45. -/
def Obligations.PowerStateRequestsMoveTheModule : Prop :=
  (∀ r rep s, Served s 0x0402 r → s.jobBlocks = true ∨ s.queueEnabled = true → Completes (.pwrState r rep) s (fun t =>
    t = (s.taken 0x0402 r).respond 0x0402 r 5 [])) ∧
  (∀ r rep s, Served s 0x0402 r → s.jobBlocks = false → s.queueEnabled = false → fieldAt r.payload 0 1 = 0 → s.power.state = .idle →
    s.power.brakeIn = false → Completes (.pwrState r rep) s (fun t => t.power.state = .active ∧ t.pool.cells = s.pool.cells ∧
      t.pool.tags = s.pool.tags ∧ t.sec = s.sec ∧ t.dies = s.dies ∧ t.lantern.job = s.lantern.job)) ∧
  (∀ r rep s, Served s 0x0402 r → s.jobBlocks = false → s.queueEnabled = false → fieldAt r.payload 0 1 = 0 → s.power.state = .pilot →
    Completes (.pwrState r rep) s (fun t => (t.power.state = .active ∧ t.power.pilot = 0) ∨ (t.power.state = .pilot ∧ t.power.pilot ≠ 0))) ∧
  (∀ r rep s, Served s 0x0402 r → s.jobBlocks = false → s.queueEnabled = false → fieldAt r.payload 0 1 = 1 → s.power.state = .active →
    Completes (.pwrState r rep) s (fun t => t.power.state = .idle ∧ (∀ c < 28, (t.ctrl c).selfRefresh = true) ∧
      t.pool.cells = ((s.taken 0x0402 r).host.harts.foldl (fun s h => s.wcDrainAll h.1) (s.taken 0x0402 r)).settleAll.pool.cells)) ∧
  (∀ r rep s, Served s 0x0402 r → s.jobBlocks = false → s.queueEnabled = false → fieldAt r.payload 0 1 = 1 → s.power.state = .active →
    s.host.harts = [] → s.pool.msgs = [] → s.pool.agents = [] →
    Completes (.pwrState r rep) s (fun t => t.power.state = .idle ∧ (∀ c < 28, (t.ctrl c).selfRefresh = true) ∧
      t.pool.cells = s.pool.cells ∧ t.sec = s.sec ∧ t.dies = s.dies)) ∧
  (∀ r rep s, Served s 0x0402 r → s.jobBlocks = false → s.queueEnabled = false → fieldAt r.payload 0 1 = 2 → s.power.state ≠ .pilot →
    Completes (.pwrState r rep) s (fun t => t.power.state = .pilot ∧ t.power.pilot = 1 ∧ t.tiles = [] ∧ t.ports = [] ∧
      t.sec.session = false ∧ t.sec.level = 0 ∧ t.power.brake = false ∧ FusesKept s t)) ∧
  (∀ r rep s, Served s 0x0402 r → s.jobBlocks = false → s.queueEnabled = false → fieldAt r.payload 0 1 = 3 →
    Completes (.pwrState r rep) s (fun t => t.power.state = .off ∧ t.pool.cells = [] ∧ (∀ k, t.keySlot k = {}) ∧ t.lantern.job = none ∧
      FusesKept s t)) ∧
  (∀ r s, Served s 0x0403 r → fieldAt r.payload 4 4 = 0 → Completes (.pwrFreq r) s (fun t => ∃ u : State, t = u.respond 0x0403 r 0 (List.replicate 8 0) ∧
    u = { s.taken 0x0403 r with lantern := { (s.taken 0x0403 r).lantern with defaultCode := fieldAt r.payload 0 1 } })) ∧
  (∀ r s (j : Job), Served s 0x0403 r → fieldAt r.payload 4 4 ≠ 0 → s.lantern.job = some j → j.handle = fieldAt r.payload 4 4 →
    j.rank ≠ 0 ∨ j.state.toNat < 3 ∨ 4 < j.state.toNat → Completes (.pwrFreq r) s (fun t => t = (s.taken 0x0403 r).respond 0x0403 r 5 [])) ∧
  (∀ r s (j : Job), Served s 0x0403 r → fieldAt r.payload 4 4 ≠ 0 → s.lantern.job = some j → j.handle = fieldAt r.payload 4 4 →
    j.rank = 0 → j.state = 3 ∨ j.state = 4 → Completes (.pwrFreq r) s (fun t =>
      t = ((s.taken 0x0403 r).modJob (fun j => { j with freqReq := some r })).beaconStart (s.timeNs + 100000) (fieldAt r.payload 0 1) r)) ∧
  (∀ r s, Served s 0x0402 r → Completes (.powerEntryRefused (.module r)) s (fun t => t = (s.taken 0x0402 r).respond 0x0402 r 4 [])) ∧
  (∀ (d : DieId) (u : TileId) s, (s.tile d u).power = .run → Completes (.powerEntryRefused (.tile d u)) s (fun t =>
    t.tile d u = { s.tile d u with power := .gate } ∧ (∀ k : Nat, k ≠ 128 * d + u → Map.get {} t.tiles k = Map.get {} s.tiles k) ∧
    t = { s with tiles := t.tiles }))

/-- R385, R386, R388 and Table 17-5: SEC_KEY. ALLOC_KEEP draws a fresh key for a free ID under a policy; GRANT and REVOKE move the two grants;
ROTATE ends under a fresh key of the same holder; DESTROY frees the ID, a sealed one for the OS too, and removes every grant. Key ID 0
cannot be rotated or destroyed; someone who does not hold the ID gets YST_NO_KEY. Model's choices: notes/assumptions/10, 60. -/
def Obligations.KeyRequestsChangeOneKey : Prop :=
  (∀ r s, Served s 0x0502 r → fieldAt r.payload 0 1 = 1 → r.src = .os → fieldAt r.payload 2 2 ∈ [1, 2, 3, 5, 6, 7] →
    (∃ k, 1 ≤ k ∧ k < 64 ∧ (s.keySlot k).state = 0) → Completes (.allocKeep r) s (fun t => ∃ (k : Nat) (u : State),
      1 ≤ k ∧ k < 64 ∧ (s.keySlot k).state = 0 ∧ t = u.respond 0x0502 r 0 [BitVec.ofNat 8 k] ∧
      u.keySlot k = { state := 3, policy := BitVec.ofNat 3 (fieldAt r.payload 2 2), gen := (s.keySlot k).gen + 1 } ∧
      (∀ j, j ≠ k → u.keySlot j = s.keySlot j) ∧ u = { s.taken 0x0502 r with sec := { s.sec with keys := u.sec.keys } })) ∧
  (∀ r s, Served s 0x0502 r → fieldAt r.payload 0 1 = 1 → boxOf r.src ≠ 0 → Completes (.allocKeep r) s (fun t =>
    t = (s.taken 0x0502 r).respond 0x0502 r 0x0A [])) ∧
  (∀ r s, Served s 0x0502 r → fieldAt r.payload 0 1 = 1 → r.src = .os → fieldAt r.payload 2 2 % 4 = 0 ∨ 8 ≤ fieldAt r.payload 2 2 →
    Completes (.allocKeep r) s (fun t => t = (s.taken 0x0502 r).respond 0x0502 r 6 [])) ∧
  (∀ r s, Served s 0x0502 r → fieldAt r.payload 0 1 = 2 → fieldAt r.payload 1 1 < 64 → s.holderOf r (fieldAt r.payload 1 1) = true →
    fieldAt r.payload 2 2 ≤ 3 → Completes (.grant r) s (fun t => ∃ u : State, t = u.respond 0x0502 r 0 [] ∧
      (u.keySlot (fieldAt r.payload 1 1)).bar2 = ((s.keySlot (fieldAt r.payload 1 1)).bar2 || bit (fieldAt r.payload 2 2) 0) ∧
      (u.keySlot (fieldAt r.payload 1 1)).pe1 = ((s.keySlot (fieldAt r.payload 1 1)).pe1 || bit (fieldAt r.payload 2 2) 1) ∧
      (u.keySlot (fieldAt r.payload 1 1)).gen = (s.keySlot (fieldAt r.payload 1 1)).gen ∧
      (u.keySlot (fieldAt r.payload 1 1)).state = (s.keySlot (fieldAt r.payload 1 1)).state ∧
      (∀ j, j ≠ fieldAt r.payload 1 1 → u.keySlot j = s.keySlot j) ∧ u = { s.taken 0x0502 r with sec := { s.sec with keys := u.sec.keys } })) ∧
  (∀ r s, Served s 0x0502 r → fieldAt r.payload 0 1 = 3 → fieldAt r.payload 1 1 < 64 → s.holderOf r (fieldAt r.payload 1 1) = true →
    fieldAt r.payload 2 2 ≤ 3 → Completes (.revoke r) s (fun t => ∃ u : State,
      t = (if bit (fieldAt r.payload 2 2) 0 then u.release else u).respond 0x0502 r 0 [] ∧
      (u.keySlot (fieldAt r.payload 1 1)).bar2 = ((s.keySlot (fieldAt r.payload 1 1)).bar2 && !bit (fieldAt r.payload 2 2) 0) ∧
      (u.keySlot (fieldAt r.payload 1 1)).pe1 = ((s.keySlot (fieldAt r.payload 1 1)).pe1 && !bit (fieldAt r.payload 2 2) 1) ∧
      (∀ j, j ≠ fieldAt r.payload 1 1 → u.keySlot j = s.keySlot j) ∧
      u = { s.taken 0x0502 r with sec := { s.sec with keys := u.sec.keys } })) ∧
  (∀ r s, Served s 0x0502 r → fieldAt r.payload 0 1 = 4 → 1 ≤ fieldAt r.payload 1 1 → fieldAt r.payload 1 1 < 64 →
    s.holderOf r (fieldAt r.payload 1 1) = true → Completes (.rotate r) s (fun t =>
      (t.keySlot (fieldAt r.payload 1 1)).state = (s.keySlot (fieldAt r.payload 1 1)).state ∧
      (t.keySlot (fieldAt r.payload 1 1)).gen = (s.keySlot (fieldAt r.payload 1 1)).gen + 1 ∧
      (t.keySlot (fieldAt r.payload 1 1)).bar2 = false ∧ (t.keySlot (fieldAt r.payload 1 1)).pe1 = false ∧
      (∀ j, j ≠ fieldAt r.payload 1 1 → t.keySlot j = s.keySlot j) ∧ t.pool.cells = s.pool.cells ∧ t.lantern.job = s.lantern.job)) ∧
  (∀ r s, Served s 0x0502 r → fieldAt r.payload 0 1 = 5 → fieldAt r.payload 1 1 < 64 →
    s.holderOf r (fieldAt r.payload 1 1) = true → (s.keySlot (fieldAt r.payload 1 1)).state ≠ 1 → Completes (.destroy r) s (fun t =>
      t.keySlot (fieldAt r.payload 1 1) = { gen := (s.keySlot (fieldAt r.payload 1 1)).gen } ∧
      (∀ g ∈ t.sec.record, g.key = fieldAt r.payload 1 1 → g.state = 2 ∨ g.state = 3) ∧
      (∀ e ∈ t.sec.sealedKeys, e.key ≠ fieldAt r.payload 1 1) ∧ (∀ l ∈ t.host.readAhead, l.key ≠ fieldAt r.payload 1 1) ∧
      (∀ j, j ≠ fieldAt r.payload 1 1 → t.keySlot j = s.keySlot j) ∧ t.pool.cells = s.pool.cells ∧ t.lantern.job = s.lantern.job)) ∧
  (∀ r s c, Served s 0x0502 r → fieldAt r.payload 1 1 < 64 → s.holderOf r (fieldAt r.payload 1 1) = false →
    (c = .grant r ∧ fieldAt r.payload 0 1 = 2) ∨ (c = .revoke r ∧ fieldAt r.payload 0 1 = 3) ∨ (c = .rotate r ∧ fieldAt r.payload 0 1 = 4) ∨
      (c = .destroy r ∧ fieldAt r.payload 0 1 = 5 ∧ ((s.keySlot (fieldAt r.payload 1 1)).state ≠ 4 ∨ boxOf r.src ≠ 0)) →
    Completes c s (fun t => t = (s.taken 0x0502 r).respond 0x0502 r 0x0A [])) ∧
  (∀ r s c, Served s 0x0502 r → fieldAt r.payload 1 1 = 0 → (s.keySlot 0).state = 1 →
    (c = .rotate r ∧ fieldAt r.payload 0 1 = 4) ∨ (c = .destroy r ∧ fieldAt r.payload 0 1 = 5) →
    Completes c s (fun t => t = (s.taken 0x0502 r).respond 0x0502 r 0x0A [])) ∧
  (∀ r s, Served s 0x0502 r → fieldAt r.payload 0 1 = 5 → fieldAt r.payload 1 1 < 64 → boxOf r.src = 0 →
    (s.keySlot (fieldAt r.payload 1 1)).state = 4 → Completes (.destroy r) s (fun t =>
      t.keySlot (fieldAt r.payload 1 1) = { gen := (s.keySlot (fieldAt r.payload 1 1)).gen } ∧
      (∀ e ∈ t.sec.sealedKeys, e.key ≠ fieldAt r.payload 1 1) ∧ (∀ j, j ≠ fieldAt r.payload 1 1 → t.keySlot j = s.keySlot j) ∧
      t.pool.cells = s.pool.cells ∧ t.lantern.job = s.lantern.job))

/-- R246, R386, R388 and R389: destroying key IDs frees each of them without grants and keeps its generation; no cached line, read-ahead
line or sealed key of them is left; no byte of memory changes, and the other key IDs stay. Sealing keeps exactly the keys that a kept region
names, without grants, with a record of the running system; every other key ID but 0 is free; key ID 0 has a fresh key without grants.
Model's choices: notes/assumptions/10, 41. -/
def Obligations.KeysAreDestroyedOrSealed : Prop := ∀ (s : State),
  (∀ l reason, l ≠ [] →
    (∀ k ∈ l, (s.destroyKeys l reason).keySlot k = { gen := (s.keySlot k).gen } ∧
      (∀ e ∈ (s.destroyKeys l reason).sec.sealedKeys, e.key ≠ k) ∧ (∀ e ∈ (s.destroyKeys l reason).host.readAhead, e.key ≠ k) ∧
      (∀ d < 4, ∀ e ∈ ((s.destroyKeys l reason).die d).dc.lines, e.2.key ≠ k) ∧
      (∀ g ∈ (s.destroyKeys l reason).sec.record, g.key = k → g.state = 2 ∨ g.state = 3)) ∧
    (∀ k, k ∉ l → (s.destroyKeys l reason).keySlot k = s.keySlot k) ∧ (s.destroyKeys l reason).pool.cells = s.pool.cells ∧
    (s.destroyKeys l reason).pool.tags = s.pool.tags) ∧
  (∀ k, 1 ≤ k → k < 64 → (s.keySlot k).state = 3 → (∃ g ∈ s.sec.regions, g.key = k) →
    ((s.sealStep true).keySlot k).state = 4 ∧ ((s.sealStep true).keySlot k).bar2 = false ∧ ((s.sealStep true).keySlot k).pe1 = false ∧
    ((s.sealStep true).keySlot k).gen = (s.keySlot k).gen ∧ ((s.sealStep true).keySlot k).policy = (s.keySlot k).policy ∧
    ⟨k, s.sec.osDigest, s.sec.osSigner, fwSvn s.svc.running, s.sec.ownerRoot⟩ ∈ (s.sealStep true).sec.sealedKeys) ∧
  (∀ k, 1 ≤ k → k < 64 → (s.keySlot k).state ≠ 0 → (s.keySlot k).state ≠ 4 → ((s.keySlot k).state ≠ 3 ∨ ∀ g ∈ s.sec.regions, g.key ≠ k) →
    ((s.sealStep true).keySlot k).state = 0 ∧ ((s.sealStep true).keySlot k).bar2 = false ∧ ((s.sealStep true).keySlot k).pe1 = false) ∧
  ((s.keySlot 0).state = 1 → (s.sealStep true).keySlot 0 = { state := 1, gen := (s.keySlot 0).gen + 1 }) ∧
  (s.sealStep true).pool.cells = s.pool.cells ∧ (s.sealStep true).sec.regions = []

/-- R390 to R392: a lifecycle or debug request without an authorisation draws a challenge that replaces the one of its source; a wrong
transition is refused; a challenge lapses; OPEN opens in BLANK only; LOCKED and the time limit close the session.
Model's choices: notes/assumptions/9, 10, 60. -/
def Obligations.LifecycleAndDebugTakeTwoRequests : Prop :=
  (∀ r rep s, Served s 0x0503 r → transition s.sec.lifecycle.toNat (fieldAt r.payload 0 1) = false → Completes (.secLifecycle r rep) s (fun t =>
    t = (s.taken 0x0503 r).respond 0x0503 r 3 [])) ∧
  (∀ r rep s, Served s 0x0503 r → transition s.sec.lifecycle.toNat (fieldAt r.payload 0 1) = true → r.payload.length ≤ 4 →
    Completes (.secLifecycle r rep) s (fun t => ∃ (b : List Byte) (u : State), b.length = 48 ∧
      t = u.respond 0x0503 r 0 (b ++ leBytes 16 Config.serial.toNat ++ deviceIdKey) ∧
      u.sec.challenges = s.sec.challenges.filter (fun c => decide (c.src ≠ r.src)) ++ [⟨r.src, b, fieldAt r.payload 0 1, false⟩] ∧
      u = { s.taken 0x0503 r with freeCount := s.freeCount + 1, sec := { s.sec with challenges := u.sec.challenges } })) ∧
  (∀ r rep s, Served s 0x0503 r → transition s.sec.lifecycle.toNat (fieldAt r.payload 0 1) = true → 4 < r.payload.length →
    (∀ c ∈ s.sec.challenges, c.src ≠ r.src) → Completes (.secLifecycle r rep) s (fun t =>
      t.sec = s.sec ∧ t.pool = s.pool ∧ t.dies = s.dies ∧ t.power = s.power ∧ t.lantern.job = s.lantern.job)) ∧
  (∀ r rep x s, Served s 0x0503 r → s.sec.lifecycle = 2 → fieldAt r.payload 0 1 = 2 → authBlock (r.payload.drop 4) = some x →
    s.sec.challenges = [⟨r.src, x.challenge, 2, false⟩] → Completes (.secLifecycle r rep) s (fun t =>
      t.sec.lifecycle = 2 ∧ t.sec.keys = s.sec.keys ∧ t.sec.challenges = [] ∧ t.pool = s.pool ∧ t.lantern.job = s.lantern.job ∧
      ((x.verifies s.sec.ownerRoot = true ∧ s.sec.storeSeq < Config.bodySequence x.body ∧ storeOk (Config.bodyStore x.body) s.sec.ownerRoot = true) →
        t.sec.storeSeq = Config.bodySequence x.body ∧ t.sec.store.length = (Config.bodyStore x.body).length) ∧
      ((x.verifies s.sec.ownerRoot = false ∨ Config.bodySequence x.body ≤ s.sec.storeSeq) → t.sec.store = s.sec.store ∧ t.sec.storeSeq = s.sec.storeSeq))) ∧
  (∀ r rep x s, Served s 0x0503 r → s.sec.lifecycle.toNat < 2 → s.power.state = .pilot → s.lantern.job = none → fieldAt r.payload 0 1 = 3 →
    authBlock (r.payload.drop 4) = some x → s.sec.challenges = [⟨r.src, x.challenge, 3, false⟩] → Completes (.secLifecycle r rep) s (fun t =>
      ((x.verifies helverin = true ∧ Config.bodySerial x.body = Config.serial) →
        t.sec.lifecycle = 3 ∧ (∀ k < 64, (t.keySlot k).state = 0) ∧ t.sec.regions = [] ∧ t.sec.rebootPending = true ∧ t.sec.session = false) ∧
      ((x.verifies helverin = false ∨ Config.bodySerial x.body ≠ Config.serial) → t.sec = { s.sec with challenges := [] }))) ∧
  (∀ src s, Completes (.lifecycleChallengeExpiry src) s (fun t => (∀ c ∈ t.sec.challenges, c ∈ s.sec.challenges ∧ c.src ≠ src) ∧
    (∀ c ∈ s.sec.challenges, c.src ≠ src → c ∈ t.sec.challenges) ∧
    t = { s with sec := { s.sec with challenges := t.sec.challenges } })) ∧
  (∀ r os s, Served s 0x0504 r → fieldAt r.payload 0 1 = 3 → s.sec.lifecycle = 0 → s.sec.level ≠ 3 → Completes (.secDebug r os) s (fun t =>
    t.sec = { s.sec with session := true, sessionVia := r.src, level := 3 } ∧ t.pool = s.pool ∧ t.dies = s.dies ∧ t.power = s.power)) ∧
  (∀ r os x s, Served s 0x0504 r → fieldAt r.payload 0 1 = 2 → s.sec.lifecycle.toNat < 2 → s.sec.level.toNat < 2 →
    authBlock (r.payload.drop 4) = some x → s.sec.challenges = [⟨r.src, x.challenge, 2, true⟩] → Completes (.secDebug r os) s (fun t =>
      (x.verifies helverin = true → t.sec = { s.sec with challenges := [], session := true, sessionVia := r.src, level := 2 }) ∧
      (x.verifies helverin = false → t.sec = { s.sec with challenges := [] }) ∧ t.pool = s.pool ∧ t.dies = s.dies ∧ t.power = s.power)) ∧
  (∀ r os s, Served s 0x0504 r → fieldAt r.payload 0 1 = 3 → s.sec.lifecycle ≠ 0 → Completes (.secDebug r os) s (fun t =>
    t = (s.taken 0x0504 r).respond 0x0504 r 3 [])) ∧
  (∀ r os s, Served s 0x0504 r → fieldAt r.payload 0 1 = 0 → Completes (.secDebug r os) s (fun t =>
    t.sec = { s.sec with session := false, level := 0 } ∧ t.pool = s.pool ∧ t.dies = s.dies ∧ t.power = s.power)) ∧
  (∀ s, s.sec.session = true → Completes .debugSessionExpiry s (fun t =>
    Notified { s with sec := { s.sec with session := false, level := 0 } } t))

/-! ## Yesia: memory and service (10, 18) -/

/-- R244, R247 and R389: MEM_KEEP declares regions that satisfy R244, drops what was declared, and releases the sealed keys all or none.
Model's choices: notes/assumptions/41. -/
def Obligations.KeepRequestsMoveTheRegions : Prop :=
  (∀ r s, Served s 0x0302 r → fieldAt r.payload 0 1 = 0 → (requestRegions r).length + s.sealedRecord.length ≤ 16 →
    (∀ g ∈ requestRegions r, s.regionOk g = true ∧ (s.keySlot g.key).state = 3) → regionsApart (requestRegions r ++ s.sealedRecord) = true →
    Completes (.memKeepDeclare r) s (fun t => ∃ u : State, t = u.respond 0x0302 r 0 u.keepRecord ∧ u.sec.regions = requestRegions r ∧
      u.sec.record = s.sealedRecord ++ requestRegions r ∧
      u = { s.taken 0x0302 r with sec := { s.sec with regions := u.sec.regions, record := u.sec.record } })) ∧
  (∀ r s g, Served s 0x0302 r → fieldAt r.payload 0 1 = 0 → g ∈ requestRegions r → s.regionOk g = false →
    Completes (.memKeepDeclare r) s (fun t => t = (s.taken 0x0302 r).respond 0x0302 r 6 [])) ∧
  (∀ (s : State) g, s.regionOk g = true → g.base % 2 ^ 21 = 0 ∧ g.size % 2 ^ 21 = 0 ∧ 0 < g.size ∧ 1 ≤ g.key ∧ g.key < 64) ∧
  (∀ r s, Served s 0x0302 r → fieldAt r.payload 0 1 = 3 → (∀ g ∈ requestRegions r, ∃ h ∈ s.sec.regions, h.base = g.base ∧ h.size = g.size ∧ h.key = g.key) →
    Completes (.memKeepDropRegion r) s (fun t => ∃ u : State, t = u.respond 0x0302 r 0 u.keepRecord ∧
      (∀ h, h ∈ u.sec.regions ↔ h ∈ s.sec.regions ∧ ∀ g ∈ requestRegions r, ¬(g.base = h.base ∧ g.size = h.size ∧ g.key = h.key)) ∧
      u = { s.taken 0x0302 r with sec := { s.sec with regions := u.sec.regions, record := u.sec.record } })) ∧
  (∀ r s, Served s 0x0302 r → fieldAt r.payload 0 1 = 2 → s.sec.releasedBoot = true → Completes (.memKeepRelease r) s (fun t =>
    t = (s.taken 0x0302 r).respond 0x0302 r 5 [])) ∧
  (∀ r s, Served s 0x0302 r → fieldAt r.payload 0 1 = 2 → s.sec.releasedBoot = false →
    (∀ x ∈ s.sec.sealedKeys, s.releaseOk x = true) → Completes (.memKeepRelease r) s (fun t =>
      t.sec.sealedKeys = [] ∧ t.sec.releasedBoot = true ∧ (∀ x ∈ s.sec.sealedKeys, (t.keySlot x.key).state = 3 ∧
        (t.keySlot x.key).gen = (s.keySlot x.key).gen) ∧
      (∀ g ∈ t.sec.record, (∃ x ∈ s.sec.sealedKeys, x.key = g.key) → g.state = 3) ∧ t.pool = s.pool)) ∧
  (∀ r s x, Served s 0x0302 r → fieldAt r.payload 0 1 = 2 → s.sec.releasedBoot = false → x ∈ s.sec.sealedKeys → s.releaseOk x = false →
    Completes (.memKeepRelease r) s (fun t => t.sec.sealedKeys = [] ∧ (∀ y ∈ s.sec.sealedKeys, (t.keySlot y.key).state = 0) ∧
      t.pool.cells = s.pool.cells)) ∧
  (∀ (s : State) x, s.sec.lifecycle ≠ 2 ∨ x.ownerRoot ≠ s.sec.ownerRoot ∨ s.sec.debugActive = true → s.releaseOk x = false)

/-- R225, R232, R233, R236 and Table 10-5: the repair requests act on the controller they name. Model's choices: notes/assumptions/8, 59. -/
def Obligations.RepairRequestsActOnOneController : Prop :=
  (∀ r s x, Served s 0x0303 r → fieldAt r.payload 0 1 = 2 → fieldAt r.payload 1 1 < 12 → requestRow r (fieldAt r.payload 1 1) = some x →
    Completes (.rowHard r) s (fun t => ∃ u : State, t = u.respond 0x0303 r 0 [] ∧ x ∈ (u.ctrl (fieldAt r.payload 1 1)).hardPending ∧
      (∀ k : Nat, k ≠ fieldAt r.payload 1 1 → u.ctrl k = s.ctrl k) ∧ u = { s.taken 0x0303 r with pool := { s.pool with ctrls := u.pool.ctrls } })) ∧
  (∀ r s, Served s 0x0303 r → fieldAt r.payload 0 1 = 3 → fieldAt r.payload 1 1 < 12 → fieldAt r.payload 2 1 < 32 →
    Completes (.channelFence r) s (fun t => (t.ctrl (fieldAt r.payload 1 1)).chanFenced.getLsbD (fieldAt r.payload 2 1) = true ∧
      (∀ k : Nat, k ≠ fieldAt r.payload 1 1 → t.ctrl k = s.ctrl k) ∧ t.pool.cells = s.pool.cells ∧ t.pool.tags = s.pool.tags)) ∧
  (∀ r s, Served s 0x0303 r → fieldAt r.payload 0 1 = 4 → fieldAt r.payload 1 1 < 12 → fieldAt r.payload 2 1 < 32 →
    Completes (.channelRetire r) s (fun t => ∃ u : State, t = u.respond 0x0303 r 0 [] ∧
      (u.ctrl (fieldAt r.payload 1 1)).pendingRetire = (s.ctrl (fieldAt r.payload 1 1)).pendingRetire ||| BitVec.ofNat 32 (2 ^ fieldAt r.payload 2 1) ∧
      (u.ctrl (fieldAt r.payload 1 1)).retired = (s.ctrl (fieldAt r.payload 1 1)).retired ∧
      (∀ k : Nat, k ≠ fieldAt r.payload 1 1 → u.ctrl k = s.ctrl k) ∧ u = { s.taken 0x0303 r with pool := { s.pool with ctrls := u.pool.ctrls } })) ∧
  (∀ r s, Served s 0x0303 r → fieldAt r.payload 0 1 = 5 → fieldAt r.payload 1 1 < 12 → fieldAt r.payload 2 1 < 32 →
    Completes (.channelKeep r) s (fun t => ∃ u : State, t = u.respond 0x0303 r 0 [] ∧
      (u.ctrl (fieldAt r.payload 1 1)).pendingRetire.getLsbD (fieldAt r.payload 2 1) = false ∧
      (∀ k : Nat, k ≠ fieldAt r.payload 1 1 → u.ctrl k = s.ctrl k) ∧ u = { s.taken 0x0303 r with pool := { s.pool with ctrls := u.pool.ctrls } })) ∧
  (∀ r s, Served s 0x0303 r → fieldAt r.payload 0 1 = 6 → fieldAt r.payload 1 1 < 12 → fieldAt r.payload 12 1 ≤ 1 →
    Completes (.auto r) s (fun t => ∃ u : State, t = u.respond 0x0303 r 0 [] ∧
      (u.ctrl (fieldAt r.payload 1 1)).autoRepair = decide (fieldAt r.payload 12 1 = 1) ∧
      (∀ k : Nat, k ≠ fieldAt r.payload 1 1 → u.ctrl k = s.ctrl k) ∧ u = { s.taken 0x0303 r with pool := { s.pool with ctrls := u.pool.ctrls } })) ∧
  (∀ r s x, Served s 0x0303 r → fieldAt r.payload 0 1 = 1 → fieldAt r.payload 1 1 < 12 → requestRow r (fieldAt r.payload 1 1) = some x →
    Map.get 0 (s.ctrl (fieldAt r.payload 1 1)).spareUsed (bankIndex x) = spareRows (fieldAt r.payload 1 1) → Completes (.rowSoft r) s (fun t =>
      t.ctrl (fieldAt r.payload 1 1) = s.ctrl (fieldAt r.payload 1 1) ∧ t.pool.cells = s.pool.cells)) ∧
  (∀ r s x, Served s 0x0303 r → fieldAt r.payload 0 1 = 1 → fieldAt r.payload 1 1 < 12 → requestRow r (fieldAt r.payload 1 1) = some x →
    x ∉ (s.ctrl (fieldAt r.payload 1 1)).repairing →
    Map.get 0 (s.ctrl (fieldAt r.payload 1 1)).spareUsed (bankIndex x) < 2 → Completes (.rowSoft r) s (fun t => ∃ u : State, t = u.respond 0x0303 r 0 [] ∧
      (u.ctrl (fieldAt r.payload 1 1)).repairing = (s.ctrl (fieldAt r.payload 1 1)).repairing ++ [x] ∧
      Map.get 0 (u.ctrl (fieldAt r.payload 1 1)).spareUsed (bankIndex x) = Map.get 0 (s.ctrl (fieldAt r.payload 1 1)).spareUsed (bankIndex x) + 1 ∧
      (∀ k : Nat, k ≠ fieldAt r.payload 1 1 → u.ctrl k = s.ctrl k) ∧ u = { s.taken 0x0303 r with pool := { s.pool with ctrls := u.pool.ctrls } })) ∧
  (∀ r s, Served s 0x0304 r → fieldAt r.payload 0 1 = 1 → fieldAt r.payload 1 1 < 12 → 1 ≤ fieldAt r.payload 2 1 → fieldAt r.payload 2 1 ≤ 168 →
    Completes (.memScrubSetPeriod r) s (fun t => (t.ctrl (fieldAt r.payload 1 1)).rakeNext.toNat = fieldAt r.payload 2 1 ∧
      (t.ctrl (fieldAt r.payload 1 1)).rakePeriod = (s.ctrl (fieldAt r.payload 1 1)).rakePeriod ∧
      (∀ k : Nat, k ≠ fieldAt r.payload 1 1 → t.ctrl k = s.ctrl k) ∧ t.pool.cells = s.pool.cells)) ∧
  (∀ r s, Served s 0x0304 r → fieldAt r.payload 0 1 = 2 → fieldAt r.payload 1 1 < 12 → ctrlBase (fieldAt r.payload 1 1) ≤ fieldAt r.payload 8 8 →
    fieldAt r.payload 8 8 + fieldAt r.payload 16 8 ≤ ctrlBase (fieldAt r.payload 1 1) + s.served (fieldAt r.payload 1 1) →
    Completes (.memScrubPass r []) s (fun t => ∃ p, t = (s.taken 0x0304 r).respond 0x0304 r 0 p ∧ p.length = 20)) ∧
  (∀ r s n e, Served s 0x0304 r → fieldAt r.payload 0 1 = 2 → fieldAt r.payload 1 1 < 12 → ctrlBase (fieldAt r.payload 1 1) ≤ fieldAt r.payload 8 8 →
    fieldAt r.payload 8 8 + fieldAt r.payload 16 8 ≤ ctrlBase (fieldAt r.payload 1 1) + s.served (fieldAt r.payload 1 1) →
    fieldAt r.payload 8 8 ≤ 128 * n → 128 * n < fieldAt r.payload 8 8 + fieldAt r.payload 16 8 → lineBad e = true →
    s.isFenced (fieldAt r.payload 1 1) n = false → (s.die (fieldAt r.payload 1 1 / 3)).dc.find n = none →
    (s.ctrl (fieldAt r.payload 1 1)).fence = [] → (s.ctrl (fieldAt r.payload 1 1)).badTimes = [] →
    Completes (.memScrubPass r [(n, e)]) s (fun t => (Map.get {} (t.ctrl (fieldAt r.payload 1 1)).fence 0).valid = true ∧
      (Map.get {} (t.ctrl (fieldAt r.payload 1 1)).fence 0).line = n ∧ (∀ k : Nat, k ≠ fieldAt r.payload 1 1 → t.ctrl k = s.ctrl k) ∧
      t.pool.cells = s.pool.cells))

/-- R400 to R404, R410 and R411: SVC_STAGE collects the image; SVC_ACTIVATE takes an accepted one of the digest named, else answers its status;
a hand-over that fails restarts the image in flash; the flash write ends with the slot written, or invalid; the logs are copied to flash.
Model's choices: notes/assumptions/12, 61, 62, 83. -/
def Obligations.FirmwareIsStagedAndActivated : Prop :=
  (∀ r s, Served s 0x0601 r → s.svc.fwState ≠ 4 → fieldAt r.payload 0 8 = 0 → r.payload.length ≤ 4096 → bit (fieldAt r.payload 8 1) 0 = false →
    Completes (.svcStage r) s (fun t => ∃ u : State, t = u.respond 0x0601 r 0 (leBytes 8 (r.payload.drop 16).length) ∧
      u = { s.taken 0x0601 r with svc := { s.svc with staging := r.payload.drop 16, staged := false, fwState := 1 } })) ∧
  (∀ r s, Served s 0x0601 r → s.svc.fwState = 4 → Completes (.svcStage r) s (fun t => t = (s.taken 0x0601 r).respond 0x0601 r 5 [])) ∧
  (∀ r b s, Served s 0x0602 r → s.jobBlocks = true ∨ s.queueEnabled = true → Completes (.svcActivate r b) s (fun t =>
    t = (s.taken 0x0602 r).respond 0x0602 r 5 [])) ∧
  (∀ r b s, Served s 0x0602 r → s.jobBlocks = false → s.queueEnabled = false → s.svc.fwState = 2 → s.svc.staged = true →
    bytesAt r.payload 0 48 = fwDigest s.svc.staging → Completes (.svcActivate r b) s (fun t => t.pool = s.pool ∧
      (b = true ∧ imageCheck s.svc.minSvn s.svc.staging = 0 →
        t.svc.running = s.svc.staging ∧ t.svc.flash = s.svc.flash ∧ t.svc.fwState = 4 ∧ t.svc.flashMatch = false ∧ t.svc.minSvn = s.svc.minSvn ∧
        t.sec = { s.sec with aliasOf := aliasIdentityOf s.svc.staging s.sec.lifecycle.toNat } ∧
        t.dies = s.dies ∧ t.tiles = s.tiles ∧ t.lantern.job = s.lantern.job) ∧
      (b = false ∨ imageCheck s.svc.minSvn s.svc.staging ≠ 0 →
        t.svc.activating = some r ∧ t.svc.fwState = 3 ∧ t.lantern.handover = true ∧ t.svc.running = s.svc.running))) ∧
  (∀ r s, s.svc.activating = some r → (∀ b < 3, (s.box b).held = []) → Completes .activationHandoverTimeout s (fun t =>
    t.svc.activating = none ∧ t.lantern.handover = false ∧ t.svc.staged = false ∧ t.svc.flash = s.svc.flash ∧
    (imageCheck s.svc.minSvn s.svc.flash = 0 → t.svc.running = s.svc.flash ∧ t.power = s.power ∧ t.pool = s.pool ∧
      t.sec = { s.sec with aliasOf := aliasIdentityOf s.svc.flash s.sec.lifecycle.toNat }) ∧
    (imageCheck s.svc.minSvn s.svc.flash ≠ 0 → t.svc.running = [] ∧ t.lantern.rom = true ∧ t.power.state = .pilot ∧
      (s.power.state ≠ .pilot → t.power.pilot = 0x0101)))) ∧
  (∀ s, s.svc.fwState = 4 → Completes (.flashWriteComplete true) s (fun t => t.svc.flash = s.svc.running ∧ t.svc.fwState = 0 ∧
    t.svc.flashMatch = true ∧ Notified { s with svc := { s.svc with flash := s.svc.running, fwState := 0, flashMatch := true } } t)) ∧
  (∀ s, s.svc.fwState = 4 → Completes (.flashWriteComplete false) s (fun t =>
    Notified { s with svc := { s.svc with flash := [], fwState := 5, flashMatch := false } } t)) ∧
  (∀ r tiles lanes lines s, Served s 0x0603 r → s.jobBlocks = true ∨ s.queueEnabled = true → Completes (.svcSelftest r tiles lanes lines) s (fun t =>
    t = (s.taken 0x0603 r).respond 0x0603 r 5 [])) ∧
  (∀ r tiles lanes s, Served s 0x0603 r → s.jobBlocks = false → s.queueEnabled = false → fieldAt r.payload 0 4 = 8 →
    Completes (.svcSelftest r tiles lanes []) s (fun t => t = (s.taken 0x0603 r).respond 0x0603 r 0 (leBytes 4 8 ++ leBytes 2 0))) ∧
  (∀ s, s.power.state ≠ .off → Completes .logFlashCopy s (fun t => t = { s with svc := { s.svc with logsFlash := s.svc.logs } }))

/-- R382: the SPDM responder. Versions 1.2 and 1.3; P-384 with SHA-384 only; slot 0 only; eight measurement blocks.
Model's choices: notes/assumptions/9, 63. -/
def Obligations.SpdmAnswersSevenMessages : Prop :=
  (∀ m s, s.power.state ≠ .off → s.svc.running ≠ [] → 4 ≤ m.length → fieldAt m 1 1 = 0x84 → Completes (.getVersion m) s (fun t =>
    t = { s with pins := { s.pins with spdmVersion := 0, spdmNegotiated := false, spdmOut := [0x10, 0x04, 0, 0, 0, 2, 0x00, 0x12, 0x00, 0x13] } })) ∧
  (∀ m s, s.power.state ≠ .off → s.svc.running ≠ [] → 4 ≤ m.length → fieldAt m 1 1 = 0xE1 → fieldAt m 0 1 ∈ [0x12, 0x13] →
    Completes (.getCapabilities m) s (fun t => t.pins.spdmVersion = fieldAt m 0 1 ∧ t.pins.spdmOut.length = 20 ∧ fieldAt t.pins.spdmOut 1 1 = 0x61 ∧
      fieldAt t.pins.spdmOut 8 4 = 0x16 ∧ t = { s with pins := t.pins })) ∧
  (∀ m s, s.power.state ≠ .off → s.svc.running ≠ [] → 4 ≤ m.length → fieldAt m 1 1 = 0xE3 → s.pins.spdmVersion ≠ 0 →
    fieldAt m 0 1 = s.pins.spdmVersion → bit (fieldAt m 8 4) 7 = true → bit (fieldAt m 12 4) 1 = true →
    Completes (.negotiateAlgorithms m) s (fun t => t.pins.spdmNegotiated = true ∧ t.pins.spdmOut.length = 36 ∧ fieldAt t.pins.spdmOut 1 1 = 0x63 ∧
      t = { s with pins := t.pins })) ∧
  (∀ m s, s.power.state ≠ .off → s.svc.running ≠ [] → 4 ≤ m.length → fieldAt m 1 1 = 0xE3 → s.pins.spdmVersion ≠ 0 →
    fieldAt m 0 1 = s.pins.spdmVersion → bit (fieldAt m 12 4) 1 = false →
    Completes (.negotiateAlgorithms m) s (fun t => t.pins.spdmNegotiated = s.pins.spdmNegotiated ∧ fieldAt t.pins.spdmOut 1 1 = 0x7F ∧
      t = { s with pins := t.pins })) ∧
  (∀ m s, s.power.state ≠ .off → s.svc.running ≠ [] → 4 ≤ m.length → fieldAt m 1 1 = 0x81 → s.pins.spdmNegotiated = true →
    fieldAt m 0 1 = s.pins.spdmVersion → Completes (.getDigests m) s (fun t => t.pins.spdmOut.drop 4 = sha384 s.spdmChain ∧
      fieldAt t.pins.spdmOut 1 1 = 0x01 ∧ t = { s with pins := t.pins })) ∧
  (∀ m s, s.power.state ≠ .off → s.svc.running ≠ [] → 4 ≤ m.length → fieldAt m 1 1 = 0x82 → s.pins.spdmNegotiated = true →
    fieldAt m 0 1 = s.pins.spdmVersion → fieldAt m 2 1 % 16 = 0 → fieldAt m 4 2 < s.spdmChain.length → Completes (.getCertificate m) s (fun t =>
      t.pins.spdmOut.drop 8 = (s.spdmChain.drop (fieldAt m 4 2)).take (fieldAt m 6 2) ∧ fieldAt t.pins.spdmOut 1 1 = 0x02 ∧ t = { s with pins := t.pins })) ∧
  (∀ m s, s.power.state ≠ .off → s.svc.running ≠ [] → 4 ≤ m.length → fieldAt m 1 1 = 0x83 → s.pins.spdmNegotiated = true →
    fieldAt m 0 1 = s.pins.spdmVersion → fieldAt m 2 1 = 0 → Completes (.challenge m) s (fun t =>
      (t.pins.spdmOut.drop 4).take (sha384 s.spdmChain).length = sha384 s.spdmChain ∧ fieldAt t.pins.spdmOut 1 1 = 0x03 ∧
      t = { s with pins := t.pins, freeCount := s.freeCount + 3 })) ∧
  (∀ m s, s.power.state ≠ .off → s.svc.running ≠ [] → 4 ≤ m.length → fieldAt m 1 1 = 0xE0 → s.pins.spdmNegotiated = true →
    fieldAt m 0 1 = s.pins.spdmVersion → bit (fieldAt m 2 1) 0 = false → fieldAt m 3 1 = 0 → Completes (.getMeasurements m) s (fun t =>
      fieldAt t.pins.spdmOut 1 1 = 0x60 ∧ fieldAt t.pins.spdmOut 2 1 = 8 ∧ fieldAt t.pins.spdmOut 4 1 = 0 ∧
      t = { s with pins := t.pins, freeCount := s.freeCount + 3 })) ∧
  (∀ m s, s.power.state ≠ .off → s.svc.running ≠ [] → 4 ≤ m.length → fieldAt m 1 1 = 0xE0 → s.pins.spdmNegotiated = true →
    fieldAt m 0 1 = s.pins.spdmVersion → bit (fieldAt m 2 1) 0 = false → fieldAt m 3 1 = 6 → s.sec.ownerRoot.length = 48 →
    Completes (.getMeasurements m) s (fun t => fieldAt t.pins.spdmOut 4 1 = 1 ∧ bytesAt t.pins.spdmOut 15 48 = s.sec.ownerRoot))

/-- R425, R427 and Table 17-8: a powered target without an address takes one, with SETDASA to its own static address or with ENTDAA, which puts its
provisional ID on the bus; each TAP of the chain takes its eight bits of an instruction; TDI leads through the HD and TD0 to TD3: IDCODE reads five
words, BYPASS delays by one bit a TAP, and TRST_N selects IDCODE on every TAP. Model's choices: notes/assumptions/2, 8, 64. -/
def Obligations.SidePortsFollowTheirStandards : Prop :=
  (∀ (st a : BitVec 7) s, s.power.state ≠ .off → s.pins.i3cAddr = none → st = s.i3cStatic → Completes (.setdasa ⟨st, a⟩) s (fun t =>
    t = { s with pins := { s.pins with i3cAddr := some a } })) ∧
  (∀ (st a : BitVec 7) s, s.power.state = .off ∨ s.pins.i3cAddr.isSome = true ∨ st ≠ s.i3cStatic → Completes (.setdasa ⟨st, a⟩) s (fun t => t = s)) ∧
  (∀ (a : BitVec 7) s, s.power.state ≠ .off → s.pins.i3cAddr = none → Completes (.entdaa a) s (fun t =>
    t = { s with pins := { s.pins with i3cAddr := some a, i3cPid := i3cProvisional } })) ∧
  (∀ (ir : BitVec 40) (b : List Bool) s, s.power.state ≠ .off → Completes (.jtagTapAccess (.shiftIr ir) b) s (fun t =>
    (∀ k < 5, Map.get 0 t.pins.jtagIr k = (ir.extractLsb' (8 * k) 8).toNat + 1) ∧
    t = { s with pins := { s.pins with jtagIr := t.pins.jtagIr } })) ∧
  (∀ (b : List Bool) s, s.power.state ≠ .off → Completes (.jtagTapAccess .trst b) s (fun t => t = { s with pins := { s.pins with jtagIr := [] } })) ∧
  (∀ (bits : List Bool) s, s.power.state ≠ .off → s.pins.jtagIr = [] → bits.length = 160 → Completes (.jtagTapAccess .shiftDr bits) s (fun t =>
    t.pins.jtagOut = ([0x2C8A2D4B, 0x2C8A2D4B, 0x2C8A2D4B, 0x2C8A2D4B, 0x2C8A1D4B].map (fun x => (List.range 32).map (Nat.testBit x))).flatten ∧
    t = { s with pins := { s.pins with jtagOut := t.pins.jtagOut } })) ∧
  (∀ (bits : List Bool) s, s.power.state ≠ .off → (∀ k < 5, Map.get 0 s.pins.jtagIr k = 256) → 5 ≤ bits.length →
    Completes (.jtagTapAccess .shiftDr bits) s (fun t =>
      t.pins.jtagOut = List.replicate 5 false ++ bits.take (bits.length - 5) ∧ t = { s with pins := { s.pins with jtagOut := t.pins.jtagOut } }))

/-! ## Yesia: jobs and DEV_HALT (15) -/

/-- R343, R345, R346, R385 and Table 15-11: JOB_CREATE makes the one job, in state 0, with fresh keys from the free IDs and the code asked for; it is
refused while a job exists, in RETIRED, and when the pool is short. JOB_LOAD takes an image that passes the checks, and no other.
Model's choices: notes/assumptions/54, 55, 56. -/
def Obligations.JobsAreCreatedAndLoaded : Prop :=
  (∀ r s, Served s 0x0201 r → s.lantern.job = none → s.sec.lifecycle ≠ 3 → 1 ≤ fieldAt r.payload 24 1 → fieldAt r.payload 24 1 ≤ 8 →
    (s.freeKeys (fieldAt r.payload 24 1)).length = fieldAt r.payload 24 1 → Completes (.jobCreate r) s (fun t => ∃ j, t.lantern.job = some j ∧
      j.state = 0 ∧ j.owner = boxOf r.src ∧ j.handle = s.lantern.handles % 2 ^ 32 + 1 ∧ j.jobId.toNat = fieldAt r.payload 0 16 ∧
      j.code = (if fieldAt r.payload 25 1 = 0xFF then s.lantern.defaultCode else fieldAt r.payload 25 1) ∧
      j.keys.length = fieldAt r.payload 24 1 ∧ (∀ k ∈ j.keys, 1 ≤ k ∧ k < 64 ∧ (s.keySlot k).state = 0 ∧
        t.keySlot k = { state := 2, gen := (s.keySlot k).gen + 1 }) ∧
      (∀ k, k ∉ j.keys → t.keySlot k = s.keySlot k) ∧ t.pool = s.pool ∧ t.power = s.power)) ∧
  (∀ r s, Served s 0x0201 r → s.lantern.job.isSome = true → Completes (.jobCreate r) s (fun t => t = (s.taken 0x0201 r).respond 0x0201 r 5 [])) ∧
  (∀ r s, Served s 0x0201 r → s.lantern.job = none → s.sec.lifecycle = 3 → Completes (.jobCreate r) s (fun t =>
    t = (s.taken 0x0201 r).respond 0x0201 r 3 [])) ∧
  (∀ r s, Served s 0x0201 r → s.lantern.job = none → s.sec.lifecycle ≠ 3 → 1 ≤ fieldAt r.payload 24 1 → fieldAt r.payload 24 1 ≤ 8 →
    (s.freeKeys 64).length < fieldAt r.payload 24 1 → Completes (.jobCreate r) s (fun t => t = (s.taken 0x0201 r).respond 0x0201 r 0x0A [])) ∧
  (∀ r s, Served s 0x0202 r → s.lantern.job = none → Completes (.jobLoad r) s (fun t => t = (s.taken 0x0202 r).respond 0x0202 r 8 [])) ∧
  (∀ r s (j : Job), Served s 0x0202 r → s.lantern.job = some j → j.handle = r.handle.toNat → j.owner ≠ boxOf r.src →
    Completes (.jobLoad r) s (fun t => t = (s.taken 0x0202 r).respond 0x0202 r 7 [])) ∧
  (∀ r s (j : Job), Served s 0x0202 r → s.lantern.job = some j → j.handle = r.handle.toNat → j.owner = boxOf r.src → 1 < j.state.toNat →
    Completes (.jobLoad r) s (fun t => t = (s.taken 0x0202 r).respond 0x0202 r 5 [])) ∧
  (∀ r s s1 s2 (j : Job) img, Served s 0x0202 r → s.lantern.job = some j → j.handle = r.handle.toNat → j.owner = boxOf r.src → j.state.toNat ≤ 1 →
    fieldAt r.payload 16 1 < 64 → s.holds .core (fieldAt r.payload 16 1) = true →
    (s.taken 0x0202 r).wake.readMem (lanternAcc (fieldAt r.payload 16 1)) (fieldAt r.payload 0 8) (fieldAt r.payload 8 8) = (.ok img, s1) →
    s1.writeMem (lanternAcc (j.keys.headD 0)) (fieldAt r.payload 24 8) img = (none, s2) → Completes (.jobLoad r) s (fun t =>
      (s2.release.loadCheck img = none → ∃ k, t.lantern.job = some k ∧ k.state = 1 ∧ k.digest = imageDigest img ∧ k.keys = j.keys ∧
        k.handle = j.handle ∧ (∀ d < 4, (t.die d).stream = (imageDie img d).stream img ∧ (t.die d).running = false)) ∧
      (s2.release.loadCheck img ≠ none → t.lantern.job = some j ∧ t.dies = s2.dies)))

/-- R137, R284, R345 to R347, R409 and Table 15-11: JOB_ARM writes seed, die-cache settings and code into every die and zeroes the semaphores; the
job runs once a held ARM is lit; JOB_SUSPEND waits for the dies to stand at their boundaries; JOB_RESUME arms it again.
Model's choices: notes/assumptions/36, 56. -/
def Obligations.JobsAreArmedRunAndSuspended : Prop :=
  (∀ r s (j : Job), Served s 0x0203 r → s.lantern.job = some j → j.handle = r.handle.toNat → j.owner = boxOf r.src → j.state = 1 →
    fieldAt r.payload 0 1 = j.code → fieldAt r.payload 4 4 = 0 → s.power.state = .active → Completes (.jobArm r) s (fun t =>
      (∀ d < 4, (t.die d).seed = j.seed ∧ (t.die d).sems = [] ∧ (t.die d).dc.streamBypass = j.bypass ∧ (t.die d).dc.waymask = j.waymask ∧
        (t.diePower d).code = j.code ∧ (t.die d).tensors = (s.die d).tensors) ∧
      t.lantern.job = some { j with state := 2 } ∧ t.pool = s.pool ∧ t.tiles = s.tiles ∧ t.sec = s.sec)) ∧
  (∀ r s (j : Job), Served s 0x0203 r → s.lantern.job = some j → j.handle = r.handle.toNat → j.owner = boxOf r.src → j.state = 1 →
    fieldAt r.payload 0 1 ≠ j.code → Completes (.jobArm r) s (fun t => t = (s.taken 0x0203 r).respond 0x0203 r 6 [])) ∧
  (∀ r s (j : Job), Served s 0x0203 r → s.lantern.job = some j → j.handle = r.handle.toNat → j.owner = boxOf r.src → j.state ≠ 1 → j.state ≠ 2 →
    Completes (.jobArm r) s (fun t => t = (s.taken 0x0203 r).respond 0x0203 r 5 [])) ∧
  (∀ s (j : Job) m, s.lantern.job = some j → s.fabric.beacon.arm = some m → s.fabric.beacon.light = true → s.fabric.beacon.change = false →
    j.state = 2 → Completes .beaconStartTime s (fun t => ∃ k, t.lantern.job = some k ∧ (k.state = 3 ∨ k.state = 5) ∧
      k.epoch = some m.start.toNat ∧ t.fabric.beacon.arm = none ∧ t.timeNs = max s.timeNs m.start.toNat ∧
      (k.state = 3 → ∀ d < 4, (t.die d).esTime = m.start.toNat ∧ (t.die d).esBase = 0 ∧ (t.die d).sc = 0) ∧ t.pool = s.pool ∧ t.sec = s.sec)) ∧
  (∀ s m, s.fabric.beacon.arm = some m → s.fabric.beacon.light = false → Completes .beaconStartTime s (fun t =>
    t.fabric.beacon.arm = none ∧ t.lantern.job = s.lantern.job ∧ t.dies = s.dies ∧ t.timeNs = max s.timeNs m.start.toNat)) ∧
  (∀ r s (j : Job), Served s 0x0204 r → s.lantern.job = some j → j.handle = r.handle.toNat → j.owner = boxOf r.src → j.state = 3 →
    Completes (.jobSuspend r) s (fun t =>
      t = { s.taken 0x0204 r with lantern := { (s.taken 0x0204 r).lantern with job := some { j with suspending := some r } } })) ∧
  (∀ r s (j : Job), Served s 0x0204 r → s.lantern.job = some j → j.handle = r.handle.toNat → j.owner = boxOf r.src → j.state ≠ 3 →
    Completes (.jobSuspend r) s (fun t => t = (s.taken 0x0204 r).respond 0x0204 r 5 [])) ∧
  (∀ r s (j : Job), s.lantern.job = some j → j.suspending = some r → j.state = 3 → (∀ d < 4, s.still d = true) →
    Completes .jobSuspendQuiesce s (fun t => ∃ k, t.lantern.job = some k ∧ k.state = 4 ∧ k.suspending = none ∧ k.handle = j.handle ∧
      k.keys = j.keys ∧ t.pool = s.pool ∧ t.sec = s.sec)) ∧
  (∀ r s (j : Job), s.lantern.job = some j → j.suspending = some r → j.state = 3 → (∃ d < 4, s.still d = false) →
    Completes .jobSuspendQuiesce s (fun t => t = s)) ∧
  (∀ r s (j : Job), Served s 0x0205 r → s.lantern.job = some j → j.handle = r.handle.toNat → j.owner = boxOf r.src → j.state = 4 →
    s.meetsImage j = true → fieldAt r.payload 4 4 = 0 → s.power.state = .active → Completes (.jobResume r) s (fun t =>
      ∃ u : State, t = u.respond 0x0205 r 0 (List.replicate 20 0) ∧
        u = { s.taken 0x0205 r with lantern := { (s.taken 0x0205 r).lantern with job := some { j with resuming := true } } })) ∧
  (∀ r s (j : Job), Served s 0x0205 r → s.lantern.job = some j → j.handle = r.handle.toNat → j.owner = boxOf r.src →
    j.state ≠ 4 ∨ s.meetsImage j = false → Completes (.jobResume r) s (fun t => t = (s.taken 0x0205 r).respond 0x0205 r 5 []))

/-- R201, R346, R348, R349, R387 and Table 15-11: JOB_ABORT stops the job's work on every die and leaves it aborted; mode 1 also frees its key
IDs and removes it; DEV_HALT stops everything, disables every queue and is answered at the quiesce; keys other than the job's stay.
Model's choices: notes/assumptions/56, 58, 95, 101. -/
def Obligations.AbortAndHaltStopWork : Prop :=
  (∀ r s (j : Job), Served s 0x0206 r → fieldAt r.payload 0 1 = 0 → s.lantern.job = some j → j.handle = r.handle.toNat →
    j.owner = boxOf r.src ∨ boxOf r.src = 2 → 1 ≤ j.state.toNat → j.state.toNat ≤ 4 → Completes (.jobAbort r) s (fun t =>
      (∃ k, t.lantern.job = some k ∧ k.state = 7 ∧ k.handle = j.handle) ∧ (∀ d, (t.die d).running = false ∧
        ∀ o ∈ (t.die d).inflight, o.src.isStream = false) ∧ (∀ k, t.keySlot k = s.keySlot k) ∧ t.pool = s.pool)) ∧
  (∀ r s (j : Job), Served s 0x0206 r → fieldAt r.payload 0 1 = 0 → s.lantern.job = some j → j.handle = r.handle.toNat →
    j.owner ≠ boxOf r.src → boxOf r.src ≠ 2 → Completes (.jobAbort r) s (fun t => t = (s.taken 0x0206 r).respond 0x0206 r 7 [])) ∧
  (∀ r s (j : Job), Served s 0x0206 r → fieldAt r.payload 0 1 = 0 → s.lantern.job = some j → j.handle = r.handle.toNat →
    j.owner = boxOf r.src ∨ boxOf r.src = 2 → j.state = 0 ∨ 4 < j.state.toNat → Completes (.jobAbort r) s (fun t =>
      t = (s.taken 0x0206 r).respond 0x0206 r 5 [])) ∧
  (∀ r s (j : Job), Served s 0x0206 r → fieldAt r.payload 0 1 = 1 → s.lantern.job = some j → j.handle = r.handle.toNat →
    j.owner = boxOf r.src ∨ boxOf r.src = 2 → j.settling = false → (∀ e ∈ s.dies, e.2.orphans = [] ∧ e.2.remote = []) →
    Completes (.jobEnd r) s (fun t => t.lantern.job = none ∧ (∀ k ∈ j.keys, (s.keySlot k).state = 2 → (t.keySlot k).state = 0) ∧
      (∀ k, k ∉ j.keys → t.keySlot k = s.keySlot k) ∧ t.pool.cells = s.pool.cells ∧
      ∀ (d : DieId) (n : TileId), s.tileFree (128 * d.val + n.val) = true →
        (t.tile d n).ts = [] ∧ (t.tile d n).oc = [] ∧ (t.tile d n).plates = [] ∧ (t.tile d n).l1 = [])) ∧
  (∀ r s, Served s 0x0206 r → fieldAt r.payload 0 1 = 1 → s.lantern.job = none → Completes (.jobEnd r) s (fun t =>
    t = (s.taken 0x0206 r).respond 0x0206 r 8 [])) ∧
  (∀ r s, Served s 0x0103 r → s.lantern.haltBusy = false → Completes (.devHalt r) s (fun t =>
    t.lantern.haltBusy = true ∧ t.lantern.halting = s.lantern.halting ++ [r] ∧
    (∀ d, (t.die d).running = false ∧ (t.die d).inflight = [] ∧ (t.die d).due = [] ∧ ∀ q, (t.wq d q).enable = false) ∧
    (∀ j : Job, s.lantern.job = some j → 1 ≤ j.state.toNat → j.state.toNat ≤ 4 → ∃ k, t.lantern.job = some k ∧ k.state = 7) ∧ t.sec = s.sec)) ∧
  (∀ r s, Served s 0x0103 r → s.lantern.haltBusy = true → Completes (.devHalt r) s (fun t =>
    t = { s.taken 0x0103 r with lantern := { (s.taken 0x0103 r).lantern with halting := s.lantern.halting ++ [r] } })) ∧
  (∀ r s, s.lantern.haltBusy = true → s.lantern.halting = [r] → Completes .devHaltQuiesced s (fun t => ∃ (p : List Byte) (u : State),
    t = u.respond 0x0103 r 0 p ∧ p.length = 8 ∧ fieldAt p 0 1 = (if s.writesPending then 1 else 0) ∧
    u = { s with freeCount := s.freeCount + 1, lantern := { s.lantern with halting := [], haltBusy := false } })) ∧
  (∀ s, s.lantern.haltBusy = false → Completes .devHaltQuiesced s (fun t => t = s))

/-! ## Descriptors, slots, semaphores, work queues (06_descriptors_and_schedules) -/

/-- R108, R133 to R135, R151, R152: a due stream descriptor of any kind that its decode checks reject, or that names a fenced tile, fails the job
with its status, die and stream position; the job's work stops at once when no die has a descriptor of its present slot left to issue; a full unit
queue stretches the DSQ; one that is not due does nothing. A row for a queue entry is the issue of that entry by its queue.
Model's choices: notes/assumptions/1, 58, 72, 76, 78. -/
def Obligations.DescriptorsFailStretchOrWait : Prop :=
  (∀ k d pos raw c s, descCommand k d (s.streamSrc d pos) raw = some c → dKind raw = k → s.streamReady d pos raw = true → s.jobFailing = false →
    s.issueStatus d (s.streamSrc d pos) false raw % 2 ^ 16 ≠ 0 → Completes c s (fun t => FailsWith s t d pos
      (s.issueStatus d (s.streamSrc d pos) false raw) ∧ t.pool = s.pool ∧ t.sec = s.sec)) ∧
  (∀ k d pos raw c s, descCommand k d (s.streamSrc d pos) raw = some c → dKind raw = k → s.streamReady d pos raw = true → s.jobFailing = false →
    s.issueStatus d (s.streamSrc d pos) false raw = 0 → s.fencedTarget d raw = true → Completes c s (fun t => FailsWith s t d pos 0x000C ∧
      t.pool = s.pool)) ∧
  (∀ k d pos raw c s, descCommand k d (s.streamSrc d pos) raw = some c → dKind raw = k → s.streamReady d pos raw = true → s.jobFailing = false →
    s.issueStatus d (s.streamSrc d pos) false raw = 0 → s.fencedTarget d raw = false → s.queueFull d raw = true →
    Completes c s (fun t => (t.die d).stretch = some (s.fullCause d raw) ∧ (t.die d).due = (s.die d).due ∧
      (t.die d).inflight = (s.die d).inflight ∧ (t.die d).sc = (s.die d).sc ∧ t.tiles = s.tiles ∧ t.pool = s.pool ∧
      ∃ j, t.lantern.job = some j ∧ j.timingLost = true ∧ j.state = 3)) ∧
  (∀ k d pos n raw c s, descCommand k d (.stream pos n) raw = some c →
    dKind raw ≠ k ∨ n ≠ (s.die d).frames ∨ s.streamReady d pos raw = false → Completes c s (fun t => t = s)) ∧
  (∀ k d q h raw c s, descCommand k d (.queue q h) raw = some c → dKind raw = k → (s.wq d q).head.toNat = h →
    (s.wqFetch d q).1 = .ok (some raw) → exec c s = exec (.wqEntryIssue d q) s) ∧
  ∀ k d q h raw c s, descCommand k d (.queue q h) raw = some c → dKind raw ≠ k ∨ (s.wq d q).head.toNat ≠ h → Completes c s (fun t => t = s)

/-- R132, R138, R142, R147 to R149: what the descriptors of the sequencer itself do as they issue from a stream, each then ending with status ok;
done_sem rises by 1 at that end, and no other semaphore moves. Model's choices: notes/assumptions/1, 72. -/
def Obligations.SequencerDescriptorsActAndEnd : Prop :=
  (∀ d pos raw s, s.issues 0 d pos raw → Completes (.nop d (s.streamSrc d pos) raw) s (fun t =>
    t = ((s.popWith d id).finish d (s.streamSrc d pos) raw 0).stopCheck)) ∧
  (∀ d pos raw s, s.issues 1 d pos raw → Completes (.frame d (s.streamSrc d pos) raw) s (fun t => ∃ u : State,
    t = (u.finish d (s.streamSrc d pos) raw 0).stopCheck ∧ u = s.modDie d (fun _ => u.die d) ∧ (u.die d).frameStart = (s.die d).sc ∧
    (u.die d).frameL = fb raw 8 4 ∧ (u.die d).frameRepeat = fb raw 0x0C 4 ∧ (u.die d).frameRep = 0 ∧
    (u.die d).framePos = (s.die d).next ∧ (u.die d).sc = (s.die d).sc ∧ (u.die d).inflight = (s.die d).inflight ∧
    ∀ x ∈ (u.die d).due, x ∈ (s.die d).due ∨ (x.raw = streamDesc (s.die d).stream x.pos ∧ dOffset x.raw = 0))) ∧
  (∀ d pos raw s, s.issues 2 d pos raw → Completes (.tensor d (s.streamSrc d pos) raw) s (fun t =>
    t = ((s.popWith d (fun x => { x with tensors := Map.put none x.tensors (fb raw 8 2) (some (tensorOf raw)) })).finish d
      (s.streamSrc d pos) raw 0).stopCheck)) ∧
  (∀ d pos raw s, s.issues 8 d pos raw → (bit (fb raw 0x0B 1) 0 = true → (∀ o ∈ (s.die d).inflight, o.src.isStream = false) ∧
      ∀ o ∈ (s.die d).fenced, o.src.isStream = false) → slice (fb raw 0x0B 1) 2 1 ≤ 1 →
    Completes (.semSignal d (s.streamSrc d pos) raw) s (fun t => t = (((s.popWith d id).semUpdate
      (if slice (fb raw 0x0B 1) 2 1 = 0 then d.val else fb raw 0x12 1 % 4) (fb raw 8 2) (decide (fb raw 0x0A 1 = 1)) (fb raw 0x0C 4)).finish
        d (s.streamSrc d pos) raw 0).stopCheck)) ∧
  (∀ d pos raw s, s.issues 8 d pos raw → bit (fb raw 0x0B 1) 0 = false → 2 ≤ slice (fb raw 0x0B 1) 2 1 → s.jobFailing = false →
    Completes (.semSignal d (s.streamSrc d pos) raw) s (fun t => (∃ o ∈ (t.die d).inflight, o.src = s.streamSrc d pos ∧ o.raw = raw) ∧
      ((s.die d).nextTag.toNat, s.streamSrc d pos) ∈ (t.die d).signals ∧ (t.die d).nextTag = (s.die d).nextTag + 1 ∧
      (∀ x n, t.sem x n = s.sem x n) ∧ t.pool = s.pool)) ∧
  (∀ d pos raw s o, s.issues 8 d pos raw → bit (fb raw 0x0B 1) 0 = true → o ∈ (s.die d).inflight → o.src.isStream = true →
    Completes (.semSignal d (s.streamSrc d pos) raw) s (fun t => ∃ w, t = (s.popWith d (fun x => { x with
      fenced := x.fenced ++ [⟨s.streamSrc d pos, w, raw⟩] })).stopCheck ∧ o.src ∈ w)) ∧
  (∀ d pos raw s, s.issues 9 d pos raw → Completes (.flare d (s.streamSrc d pos) raw) s (fun t =>
    t = ((s.popWith d (fun x => { x with flares := x.flares ++ [⟨fb raw 8 1 % 8, x.sc + fb raw 0x0C 2,
      x.sc + fb raw 0x0C 2 + fb raw 0x10 4⟩] })).finish d (s.streamSrc d pos) raw 0).stopCheck)) ∧
  (∀ d pos raw s, s.issues 11 d pos raw → Completes (.endStream d (s.streamSrc d pos) raw) s (fun t =>
    t = ((s.popWith d (fun x => { x with ended := true })).finish d (s.streamSrc d pos) raw 0).stopCheck)) ∧
  ∀ d pos raw s k, s.issues 0 d pos raw → dDone raw = k → k < 4096 → (s.die d).fenced = [] → (s.die d).ended = false →
    (s.die d).stream ≠ [] → s.jobFailing = false → s.pool.msgs = [] → s.pool.agents = [] → Completes (.nop d (s.streamSrc d pos) raw) s (fun t => t.sem d k = s.sem d k + 1 ∧
      (∀ x n, (x ≠ d.val ∨ n ≠ k) → t.sem x n = s.sem x n) ∧ t.lantern.job = s.lantern.job ∧ t.tiles = s.tiles)

/-- R147, R148: a SEM_WAIT tests its condition, equal or at least, and consumes in the same step; one that fails stretches its stream with cause
0x04 until SEM_WAIT_SATISFIED finds it held; 100 µs raise one event; updates add modulo 2^32 or set.
Model's choices: notes/assumptions/1, 12. -/
def Obligations.SemaphoresWaitAndCount : Prop :=
  (∀ d pos raw s, s.issues 7 d pos raw → semHolds (decide (fb raw 0x0A 1 = 1)) (fb raw 0x0C 4) (s.sem d (fb raw 8 2)) = true →
    Completes (.semWait d (s.streamSrc d pos) raw) s (fun t => ∃ u : State, t = (u.finish d (s.streamSrc d pos) raw 0).stopCheck ∧ u.sem d (fb raw 8 2) =
      s.sem d (fb raw 8 2) - (if bit (fb raw 0x0B 1) 0 then BitVec.ofNat 32 (fb raw 0x0C 4) else 0) ∧
      u = s.modDie d (fun _ => u.die d) ∧ (u.die d).inflight = (s.die d).inflight)) ∧
  (∀ d pos raw s, s.issues 7 d pos raw → semHolds (decide (fb raw 0x0A 1 = 1)) (fb raw 0x0C 4) (s.sem d (fb raw 8 2)) = false →
    s.jobFailing = false → Completes (.semWait d (s.streamSrc d pos) raw) s (fun t => (t.die d).stretch = some 4 ∧ (t.die d).blocks = (s.die d).blocks ++
      [⟨s.streamSrc d pos, fb raw 8 2, decide (fb raw 0x0A 1 = 1), bit (fb raw 0x0B 1) 0, fb raw 0x0C 4, false⟩] ∧
      (∀ x n, t.sem x n = s.sem x n) ∧ t.tiles = s.tiles ∧ t.pool = s.pool)) ∧
  (∀ d src s b o, (s.die d).blocks.find? (fun b => decide (b.src = src)) = some b →
    (s.die d).inflight.find? (fun o => decide (o.src = src)) = some o → semHolds b.eqCond b.v (s.sem d b.sem) = true →
    Completes (.semWaitSatisfied d src) s (fun t => ∃ u : State, t = u.finish d src o.raw 0 ∧ u.sem d b.sem =
      s.sem d b.sem - (if b.consume then BitVec.ofNat 32 b.v else 0) ∧ (∀ c ∈ (u.die d).blocks, c.src ≠ src) ∧
      u = s.modDie d (fun _ => u.die d))) ∧
  (∀ d src s b, (s.die d).blocks.find? (fun b => decide (b.src = src)) = some b → semHolds b.eqCond b.v (s.sem d b.sem) = false →
    Completes (.semWaitSatisfied d src) s (fun t => t = s)) ∧
  (∀ d src s b, (s.die d).blocks.find? (fun b => decide (b.src = src)) = some b → b.reported = false →
    Completes (.semWaitTimeout d src) s (fun t => ∃ u : State, t = u.dieEvent d 0 0x0004 (leBytes 1 d ++ leBytes 2 b.sem) ∧
      (u.die d).blocks = (s.die d).blocks.map (fun c => if c.src = src then { c with reported := true } else c) ∧
      u = s.modDie d (fun _ => u.die d))) ∧
  (∀ d src s, (∀ b ∈ (s.die d).blocks, b.src = src → b.reported = true) → Completes (.semWaitTimeout d src) s (fun t => t = s)) ∧
  (∀ (d : DieId) (k : Fin 4096) set (v : Word) s, Completes (.semaphoreUpdate d k set v) s (fun t => ∃ u : State, t = u.release ∧
    u.sem d k = (if set then v else s.sem d k + v) ∧ (∀ x n, (x ≠ d.val ∨ n ≠ k.val) → u.sem x n = s.sem x n) ∧
    u = s.modDie d (fun x => { x with sems := (u.die d).sems }))) ∧
  ∀ (d : DieId) (k : Fin 4096) set (v : Word) s, s.pool.msgs = [] → s.pool.agents = [] → Completes (.semaphoreUpdate d k set v) s (fun t =>
    t.sem d k = (if set then v else s.sem d k + v) ∧ (∀ x n, (x ≠ d.val ∨ n ≠ k.val) → t.sem x n = s.sem x n) ∧
    t.tiles = s.tiles ∧ t.lantern = s.lantern ∧ t.pool = s.pool ∧
    ∀ x, (t.die x).inflight = (s.die x).inflight ∧ (t.die x).tensors = (s.die x).tensors)

/-- R84, R91, R92, R110, R142, R144, R145, R150: a descriptor for the units of tiles is in flight once it issued, with its tensors as the table
held them: a MATMUL stands in the queue of every target's matrix engine, an ISLAND's launch on every target, and a VLOOP or MOVE takes effect at
once or is held back by a hazard. A COLL joins the steps of its engine, and one of an
aborted collective ends at once with the aborted status. Model's choices: notes/assumptions/72, 74, 79, 81, 91, 92. -/
def Obligations.UnitDescriptorsJoinTheirUnits : Prop :=
  (∀ d pos raw s td, s.issues 3 d pos raw → s.jobFailing = false → (s.issuer d (s.streamSrc d pos) false).tensor (mmFields raw).d = some td →
    Completes (.matmul d (s.streamSrc d pos) raw) s (fun t => ∃ o x, (t.die d).inflight = (s.die d).inflight ++ [o] ∧ o.src = s.streamSrc d pos ∧
      o.raw = raw ∧ o.d = some td ∧ o.busy = dCount raw ∧ x.src = s.streamSrc d pos ∧ x.raw = raw ∧ x.dT = td ∧ x.kstep = 0 ∧ x.block = 0 ∧
      (∀ n, dFirst raw ≤ n → n < dFirst raw + dCount raw → t.tile d n = { s.tile d n with mxe := (s.tile d n).mxe ++ [x] }) ∧
      (∀ e n, e < 4 → n < 128 → dFirst raw + dCount raw ≤ 128 → (e ≠ d.val ∨ n < dFirst raw ∨ dFirst raw + dCount raw ≤ n) →
        t.tile e n = s.tile e n) ∧
      t.pool = s.pool ∧ t.lantern = s.lantern)) ∧
  (∀ d pos raw s, s.issues 10 d pos raw → s.jobFailing = false → Completes (.island d (s.streamSrc d pos) raw) s (fun t =>
    (∃ o, (t.die d).inflight = (s.die d).inflight ++ [o] ∧ o.src = s.streamSrc d pos ∧ o.raw = raw) ∧
    (t.die d).islands = (s.die d).islands ++ [⟨s.streamSrc d pos, raw, dFirst raw, dCount raw, (s.die d).sc + fb raw 0x18 4, true,
      bit (fb raw 0x1D 1) 0, fb raw 0x38 4⟩] ∧
    (∀ n, dFirst raw ≤ n → n < dFirst raw + dCount raw →
      t.tile d n = { s.tile d n with launches := (s.tile d n).launches ++ [kernelOf (s.streamSrc d pos) false raw] }) ∧
    ((∃ n ∈ dTiles raw, (s.tile d n).kernel.isSome = true) → (t.die d).stretch = some 1) ∧ t.pool = s.pool)) ∧
  (∀ d pos raw s, s.issues 4 d pos raw ∨ s.issues 5 d pos raw → ∃ o : InFlight, o.src = s.streamSrc d pos ∧ o.raw = raw ∧
    o.rep = (s.die d).frameRep ∧
    o.a = (s.issuer d (s.streamSrc d pos) false).tensor (if dKind raw = 4 then fb raw 0x18 2 else fb raw 0x10 2) ∧
    o.d = (s.issuer d (s.streamSrc d pos) false).tensor (if dKind raw = 4 then fb raw 0x1E 2 else fb raw 0x12 2) ∧
    Completes (if dKind raw = 4 then .vloop d (s.streamSrc d pos) raw else .move d (s.streamSrc d pos) raw) s (fun t =>
      t = (if ((s.popWith d id).addFlight d o).blocked d o then
          ((s.popWith d id).addFlight d o).modFlight d (s.streamSrc d pos) (fun y => { y with held := true })
        else ((s.popWith d id).addFlight d o).applyEffect d o).stopCheck)) ∧
  (∀ d pos raw s, s.issues 6 d pos raw → s.jobFailing = false → (collFields raw).collId ∈ (s.ce d (collFields raw).ce).aborted →
    Completes (.coll d (s.streamSrc d pos) raw) s (fun t => FailsWith s t d pos 0x000E ∧ t.pool = s.pool)) ∧
  ∀ d pos raw s ranks u, s.issues 6 d pos raw → (collFields raw).collId ∉ (s.ce d (collFields raw).ce).aborted →
    (s.popWith d id).rankTable d (s.streamSrc d pos) (collFields raw) = (.ok ranks, u) →
    Completes (.coll d (s.streamSrc d pos) raw) s (fun t => ∃ (v : State) (o : InFlight) (st : CollStep),
      t = (((v.modDie d (fun x => { x with inflight := x.inflight ++ [o] })).modCe d (collFields raw).ce
        (fun c => { c with steps := c.steps ++ [st] })).earlyCredits d (collFields raw).ce (collFields raw).collId (collFields raw).step).collGo.stopCheck ∧
      o.src = s.streamSrc d pos ∧ o.raw = raw ∧ st.src = s.streamSrc d pos ∧ st.raw = raw ∧ st.ranks = ranks ∧
      v = u.modDie d (fun x => { x with nextTag := (v.die d).nextTag }))

/-- R131, R132, R134, R137, R150, R152: SLOT_ADVANCE moves a running die's slot count on by one; while descriptors are due or the die is stretched
it only notes what holds the clock back, and a failing job's die stops; a saturated memory may make the fetch late, which stretches with cause 0x0A; a stretched die resumes when its cause has cleared; the end of an island's window closes its grants or stretches the
DSQ with cause 0x01, or 0x02 when a group is parked. Model's choices: notes/assumptions/1, 99. -/
def Obligations.SlotsAdvanceAndResume : Prop :=
  (∀ d s, s.slotReady d = true → s.jobFailing = false → s.memorySlow = false → Completes (.slotAdvance d) s (fun t =>
    (t.die d).sc = (s.die d).sc + 1 ∧
    (t.die d).inflight = (s.die d).inflight ∧ (∀ x, x ≠ d.val → t.die x = s.die x) ∧ t.tiles = s.tiles ∧ t.pool = s.pool ∧
    (s.clockCauses d = [] → (s.die d).clockHeld = 0 → t.lantern = s.lantern) ∧
    ((s.die d).ended = false → ((s.die d).frameRepeat = 0 ∨ (s.die d).sc + 1 < (s.die d).frameStart + (s.die d).frameL) →
      ∀ u ∈ (t.die d).due, (t.die d).frameStart + dOffset u.raw = (t.die d).sc))) ∧
  (∀ d s j, s.slotReady d = true → s.jobFailing = false → s.memorySlow = false → s.lantern.job = some j → (s.die d).ended = false →
    (s.die d).frameRepeat ≠ 0 →
    (s.die d).sc + 1 = (s.die d).frameStart + (s.die d).frameL → Completes (.slotAdvance d) s (fun t =>
      (t.die d).frames = (s.die d).frames + 1 ∧ (t.die d).frameStart = (s.die d).sc + 1 ∧
      (t.die d).frameRep = (if (s.die d).frameRep + 1 < (s.die d).frameRepeat then (s.die d).frameRep + 1 else 0) ∧
      (j.suspending.isSome = true → (t.die d).running = false ∧ (t.die d).quiesced = true ∧ (t.die d).due = []))) ∧
  (∀ d s, s.slotReady d = true → s.jobFailing = false → s.memorySlow = true → Completes (.slotAdvance d) s (fun t =>
    t.freeCount = s.freeCount + 1 ∧ t.tiles = s.tiles ∧ t.pool = s.pool ∧ ((t.die d).sc = (s.die d).sc + 1 ∨
      ((t.die d).stretch = some 0x0A ∧ (t.die d).sc = (s.die d).sc ∧ (t.die d).due = (s.die d).due)))) ∧
  (∀ d s, s.jobFailing = true → Completes (.slotAdvance d) s (fun t => t = s.stopCheck)) ∧
  (∀ d s, s.jobFailing = false → s.slotReady d = false → Completes (.slotAdvance d) s (fun t => t = s.noteClock d)) ∧
  (∀ d s c, (s.die d).stretch = some c → s.causeCleared d c = true → Completes (.stretchResume d) s (fun t =>
    (t.die d).stretch = none ∧ (s.die d).slip ≤ (t.die d).slip ∧ s.es d - (s.die d).sc ≤ (t.die d).slip ∧ (t.die d).sc = (s.die d).sc ∧
    (t.die d).due = (s.die d).due ∧ t.tiles = s.tiles ∧ t.pool = s.pool ∧
    ∀ i ∈ (s.die d).islands, s.islandClosed d i = false → i ∈ (t.die d).islands)) ∧
  (∀ d s, (∀ c, (s.die d).stretch = some c → s.causeCleared d c = false) → Completes (.stretchResume d) s (fun t => t = s)) ∧
  (∀ d s, (s.die d).windowDue = true → (s.die d).stretch = none →
    (∀ i ∈ (s.die d).islands, i.windowed = true → i.endSc ≤ (s.die d).sc → s.islandClosed d i = true) →
    Completes (.islandWindowEnd d) s (fun t => (∀ i ∈ (t.die d).islands, i ∈ (s.die d).islands ∧ (i.windowed = true → (s.die d).sc < i.endSc)) ∧
      (t.die d).stretch = none ∧ (t.die d).sc = (s.die d).sc ∧ t.tiles = s.tiles ∧ t.lantern = s.lantern)) ∧
  (∀ d s i, i ∈ (s.die d).islands → i.windowed = true → i.endSc ≤ (s.die d).sc → s.islandClosed d i = false → (s.die d).stretch = none →
    Completes (.islandWindowEnd d) s (fun t => (t.die d).islands = (s.die d).islands ∧
      ((t.die d).stretch = some 1 ∨ (t.die d).stretch = some 2) ∧
      ((∀ n x, ¬ (s.tile d n).hasParked x) → (t.die d).stretch = some 1) ∧
      ((∃ n ∈ i.tiles, (s.tile d n).hasParked i.src = true) → (t.die d).stretch = some 2) ∧ t.tiles = s.tiles)) ∧
  ∀ d s, (s.die d).windowDue = false → Completes (.islandWindowEnd d) s (fun t => t = s)

/-- R86 to R89, R91, R102, R110, R111, R124, R135: the matrix engine waits for its panels and for hazards; a panel enters its ring in order and
only into a free slot; a waiting launch opens when no kernel is open, and groups start in free slots with registers 0 and all threads live; an
in-flight descriptor ends when it is first of its unit queue and done everywhere, or with the status it has met.
Model's choices: notes/assumptions/1, 74, 80, 92, 93, 94, 95. -/
def Obligations.TilesStepAndDescriptorsEnd : Prop :=
  (∀ d t s, (s.tile d t).mxe = [] ∨ (s.tile d t).ringA.filled ≤ (s.tile d t).ringA.released ∨
    (s.tile d t).ringB.filled ≤ (s.tile d t).ringB.released → Completes (.mxeKStep d t) s (fun u => u = s)) ∧
  (∀ d t s (o : MxeOp) r y, (s.tile d t).mxe = o :: r → (s.die d).inflight.find? (fun x => decide (x.src = o.src)) = some y →
    s.blocked d y = false → (s.tile d t).ringA.released < (s.tile d t).ringA.filled →
    (s.tile d t).ringB.released < (s.tile d t).ringB.filled → (s.tile d t).ocBad = [] → o.kstep ≠ 0 →
    Completes (.mxeKStep d t) s (fun u => (u.tile d t).ringA.released = (s.tile d t).ringA.released + 1 ∧
      (u.tile d t).ringB.released = (s.tile d t).ringB.released + 1 ∧ (u.tile d t).ts = (s.tile d t).ts ∧ u.pool = s.pool ∧
      (o.kstep + 1 < cdiv (mmFields o.raw).k 32 → (u.tile d t).oc = (s.tile d t).oc ∧ ∃ x, (u.tile d t).mxe = x :: r ∧
        x.kstep = o.kstep + 1 ∧ x.block = o.block ∧ x.raw = o.raw ∧ x.src = o.src) ∧
      (∀ e n, e < 4 → n < 128 → (e ≠ d.val ∨ n ≠ t.val) → u.tile e n = s.tile e n))) ∧
  (∀ d t (c : Fin 4) s p panel rest, packFirst (s.tile d t).packs c = some p → p.panels = panel :: rest → p.ringB = false →
    (s.tile d t).ringA.base = p.base → (s.tile d t).ringA.slot = p.slot → (s.tile d t).ringA.slots = p.slots →
    (s.tile d t).ringA.filled - (s.tile d t).ringA.released < p.slots → Completes (.tdmRingSlotFill d t c) s (fun u =>
      (u.tile d t).ringA = { (s.tile d t).ringA with filled := (s.tile d t).ringA.filled + 1 } ∧ (u.tile d t).ringB = (s.tile d t).ringB ∧
      (u.tile d t).oc = putCells (s.tile d t).oc (p.base + (s.tile d t).ringA.filled % p.slots * p.slot) panel ∧
      u = s.modTile d t (fun _ => u.tile d t))) ∧
  (∀ d t (c : Fin 4) s p, packFirst (s.tile d t).packs c = some p → p.panels ≠ [] → p.ringB = true → (s.tile d t).ringB.base = p.base →
    (s.tile d t).ringB.slot = p.slot → (s.tile d t).ringB.slots = p.slots →
    p.slots ≤ (s.tile d t).ringB.filled - (s.tile d t).ringB.released → p.slots ≠ 0 →
    Completes (.tdmRingSlotFill d t c) s (fun u => ∀ n, u.tile d n = s.tile d n)) ∧
  (∀ d t s (k : Kernel) r, (s.tile d t).kernel = none → (s.tile d t).launches = k :: r → 0 < k.groups → k.next = 0 →
    Completes (.kernelLaunch d t) s (fun u => (u.tile d t).kernel = some { k with next := 1 } ∧ (u.tile d t).launches = r ∧
      (u.tile d t).l1 = [] ∧ (u.tile d t).slot 0 = freshGroup k ∧ (u.tile d t).oc = (s.tile d t).oc ∧
      (u.tile d t).plates = (s.tile d t).plates ∧ u = s.modTile d t (fun _ => u.tile d t))) ∧
  (∀ d t s, (s.tile d t).kernel.isSome = true ∨ (s.tile d t).launches = [] → Completes (.kernelLaunch d t) s (fun u =>
    ∀ e n, u.tile e n = s.tile e n)) ∧
  (∀ d t s (k : Kernel) n, (s.tile d t).kernel = some k → (s.tile d t).freeSlot = some n → k.next < k.groups →
    Completes (.groupStart d t) s (fun u => (u.tile d t).slot n =
      { st := .running, group := k.next, handle := k.handle, pc := BitVec.ofNat 32 k.code, live := 0xFFFFFFFF, active := 0xFFFFFFFF } ∧
      (u.tile d t).kernel = some { k with next := k.next + 1 } ∧ (∀ m, m ≠ n → (u.tile d t).slot m = (s.tile d t).slot m) ∧
      (u.tile d t).oc = (s.tile d t).oc ∧ u = s.modTile d t (fun _ => u.tile d t))) ∧
  (∀ d src s o, (s.die d).inflight.find? (fun o => decide (o.src = src)) = some o → o.status = 0 →
    (∃ y ∈ (s.die d).older src, sameUnit y.raw o.raw = true) → Completes (.descriptorComplete d src) s (fun t => t = s)) ∧
  (∀ d src s o, (s.die d).inflight.find? (fun o => decide (o.src = src)) = some o → o.status = 0 → dKind o.raw = 3 → o.busy ≠ 0 →
    Completes (.descriptorComplete d src) s (fun t => t = s)) ∧
  (∀ d src s o, (s.die d).inflight.find? (fun o => decide (o.src = src)) = some o → o.status = 0 → dKind o.raw = 3 → o.busy = 0 →
    (∀ y ∈ (s.die d).older src, sameUnit y.raw o.raw = false) → Completes (.descriptorComplete d src) s (fun t => ∃ u : State,
      t = u.finish d src o.raw 0 ∧ (u.die d).inflight = (s.die d).inflight ∧ u.pool = s.pool ∧ u.lantern = s.lantern)) ∧
  (∀ d pos n s o j, (s.die d).inflight.find? (fun o => decide (o.src = .stream pos n)) = some o → o.status % 2 ^ 16 ≠ 0 → dKind o.raw ≠ 6 →
    s.lantern.job = some j → j.state = 3 → j.failStatus = 0 → Completes (.descriptorComplete d (.stream pos n)) s (fun t => ∃ k,
      t.lantern.job = some k ∧ ((∀ x < 4, (s.die x).issuing = false) → k.state = 6) ∧ ((∃ x < 4, (s.die x).issuing = true) → k.state = 3) ∧
      k.failStatus = BitVec.ofNat 16 o.status ∧ k.failDie.toNat = d.val ∧ k.failPos = BitVec.ofNat 64 pos))

/-- R158: a doorbell is accepted when tail − head, as an unsigned 32-bit difference, is at most the ring size; the accepted tail replaces the earlier
one; any other is ignored and sets bad_db. The engine consumes entries while head ≠ tail. -/
def Obligations.DoorbellsMoveTheTail : Prop :=
  (∀ d q tail bar4 s, (bar4 = true → s.host.restarting = false) → s.domainOn .noc = true → (tail - (s.wq d q).head).toNat ≤ 2 ^ (s.wq d q).log2size.toNat →
    Completes (.wqDoorbell d q tail bar4) s (fun t => (t.wq d q).tail = tail ∧ (t.wq d q).head = (s.wq d q).head ∧
      (t.wq d q).badDb = (s.wq d q).badDb ∧ ((s.wq d q).state = 4 → (t.wq d q).state = 4) ∧
      ((s.wq d q).state = 3 → (t.wq d q).retries = 0 ∧ (t.wq d q).state ≠ 3) ∧ ∀ p, p ≠ q.val → t.wq d p = s.wq d p)) ∧
  (∀ d q tail bar4 s, (bar4 = true → s.host.restarting = false) → s.domainOn .noc = true → 2 ^ (s.wq d q).log2size.toNat < (tail - (s.wq d q).head).toNat →
    Completes (.wqDoorbell d q tail bar4) s (fun t => t.wq d q = { s.wq d q with badDb := true } ∧ ∀ p, p ≠ q.val → t.wq d p = s.wq d p)) ∧
  (∀ d q s s1 raw, s.wqActive d q = true → s.wqFetch d q = (.ok (some raw), s1) → (dAfter raw = true → s1.wqDrained d q = true) →
    s1.jobHolds = false → s1.issueStatus d (.queue q (s1.wq d q).head.toNat) false raw = 0 → dKind raw = 0 →
    Completes (.wqEntryIssue d q) s (fun t => (t.wq d q).head = (s1.wq d q).head + BitVec.ofNat 32 (dSize raw / 64) ∧
      (t.wq d q).tail = (s1.wq d q).tail ∧ (t.wq d q).retries = 0 ∧ t.lantern.job = s1.lantern.job)) ∧
  ∀ d q s, (s.wq d q).head = (s.wq d q).tail → Completes (.wqEntryIssue d q) s (fun t => t = s) ∧ Completes (.wqEntryReread d q) s (fun t => t = s)

/-- R157, R159 to R163, R328: the registers, re-reads, head entries and stops of a work queue. Model's choices: notes/assumptions/1, 66, 73. -/
def Obligations.WorkQueuesFetchIssueAndStop : Prop :=
  (∀ d q cfg s, 4 ≤ (if (s.wq d q).enable then (s.wq d q).log2size.toNat else slice cfg.toNat 11 8) →
    Completes (.wqEnable d q cfg) s (fun t => (t.wq d q).enable = true ∧ (t.wq d q).cqEnable = cfg.getLsbD 1 ∧
      (t.wq d q).irqEnable = cfg.getLsbD 2 ∧ (t.wq d q).key = cfg.extractLsb' 12 6 ∧
      (t.wq d q).log2size = (if (s.wq d q).enable then (s.wq d q).log2size else cfg.extractLsb' 8 4) ∧
      (t.wq d q).head = (s.wq d q).head ∧ (t.wq d q).tail = (s.wq d q).tail ∧ (t.wq d q).base = (s.wq d q).base ∧
      ((s.wq d q).enable = false → (t.wq d q).state = (if s.jobHolds then 5 else if (s.wq d q).head = (s.wq d q).tail then 1 else 2)) ∧
      (∀ p, p ≠ q.val → t.wq d p = s.wq d p))) ∧
  (∀ d q tail bar4 s, (bar4 = true ∧ s.host.restarting = true) ∨ s.domainOn .noc = false → Completes (.wqDoorbell d q tail bar4) s (fun t => t = s)) ∧
  (∀ d q s s1, s.wqActive d q = true → s.wqFetch d q = (.ok none, s1) → (s1.wq d q).retries + 1 < 64 →
    Completes (.wqEntryReread d q) s (fun t => t = s1.modWq d q (fun w => { w with retries := w.retries + 1 }))) ∧
  (∀ d q s s1, s.wqActive d q = true → s.wqFetch d q = (.ok none, s1) → (s1.wq d q).retries = 63 →
    Completes (.wqEntryReread d q) s (fun t => (t.wq d q).state = 3 ∧ (t.wq d q).early = true ∧
      (t.wq d q).earlyCnt.toNat = min ((s1.wq d q).earlyCnt.toNat + 1) (2 ^ 32 - 1) ∧ (t.wq d q).head = (s1.wq d q).head ∧
      t.pool = s1.pool)) ∧
  (∀ d q s s1 raw u, s.wqActive d q = true → s.wqFetch d q = (.ok (some raw), s1) → s1.wqTake d q raw = some u →
    Completes (.wqEntryReread d q) s (fun t => t = u) ∧ Completes (.wqEntryIssue d q) s (fun t => t = u)) ∧
  (∀ d q s s1 raw, s.wqActive d q = true → s.wqFetch d q = (.ok (some raw), s1) →
    (dAfter raw = true ∧ s1.wqDrained d q = false) ∨ (s1.jobHolds = true ∧ s1.heldPasses d raw = false) →
    Completes (.wqEntryIssue d q) s (fun t => t = s)) ∧
  (∀ d q s s1 raw, s.wqActive d q = true → s.wqFetch d q = (.ok (some raw), s1) → (dAfter raw = true → s1.wqDrained d q = true) →
    s1.jobHolds = false → s1.issueStatus d (.queue q (s1.wq d q).head.toNat) false raw ≠ 0 →
    Completes (.wqEntryIssue d q) s (fun t => (t.wq d q).state = 4 ∧ (t.wq d q).head = (s1.wq d q).head ∧
      (t.wq d q).errStatus = BitVec.ofNat 16 (s1.issueStatus d (.queue q (s1.wq d q).head.toNat) false raw) ∧
      (t.wq d q).errSeq = (s1.wq d q).head.setWidth 16 ∧ (t.wq d q).failSize = dSize raw / 64)) ∧
  (∀ d q s, s.wqActive d q = false → Completes (.wqEntryIssue d q) s (fun t => t = s) ∧ Completes (.wqEntryReread d q) s (fun t => t = s)) ∧
  (∀ d q s, (s.wq d q).state = 4 → Completes (.wqCtrlResume d q) s (fun t =>
    (t.wq d q).head = (s.wq d q).head + BitVec.ofNat 32 (s.wq d q).failSize ∧ (t.wq d q).failSize = 0 ∧ (t.wq d q).state ≠ 4 ∧
    (t.wq d q).tail = (s.wq d q).tail ∧ (t.wq d q).enable = (s.wq d q).enable ∧ ∀ p, p ≠ q.val → t.wq d p = s.wq d p)) ∧
  (∀ d q s, (s.wq d q).state ≠ 4 → Completes (.wqCtrlResume d q) s (fun t => t = s)) ∧
  (∀ d q s, (s.wq d q).enable = false → Completes (.wqCtrlReset d q) s (fun t =>
    t.wq d q = { s.wq d q with head := 0, tail := 0, retries := 0, failSize := 0 } ∧ ∀ p, p ≠ q.val → t.wq d p = s.wq d p)) ∧
  ∀ d q s, (s.wq d q).enable = true → Completes (.wqCtrlReset d q) s (fun t => t = s)

/-! ## The group engine (05_thread_groups) -/

/-- R113, R118, R127: a fetch fault or an illegal instruction parks the group whatever the row, a group that does not run stays as it is, and a row
acts on no other instruction than its own. R128, R129: what GXE_CTRL does with a parked group; an action on any other slot only reports 2.
Model's choices: notes/assumptions/1, 68, 69, 98. -/
def Obligations.GroupsFaultParkAndResolve : Prop :=
  (∀ d t n v c s k e, gxeRow v d t n = some c → ((s.tile d t).slot n).st = .running → (s.tile d t).kernel = some k →
    s.issueFault d t n = some e → Completes c s (fun u => GroupFaulted s u d t n e ((s.tile d t).slot n).pc.toNat)) ∧
  (∀ d t n v c s, gxeRow v d t n = some c → ((s.tile d t).slot n).st ≠ .running → Completes c s (fun u => u = s)) ∧
  (∀ d t n v c s k w, gxeRow v d t n = some c → s.groupAt d t n k w → gxeRow w d t n ≠ some c → Completes c s (fun u => u = s)) ∧
  (∀ d t (n : Fin 32) s, n.val < 24 → ((s.tile d t).slot n).st = .parked → Completes (.gxeReplay d t n) s (fun u =>
    (u.tile d t).slot n = { (s.tile d t).slot n with st := .running, fault := 0, faultAddr := 0 } ∧ (u.tile d t).ctrlResult = 0 ∧
    (u.tile d t).kernel = (s.tile d t).kernel ∧ (∀ m, m ≠ n.val → (u.tile d t).slot m = (s.tile d t).slot m) ∧ u.pool = s.pool)) ∧
  (∀ d t (n : Fin 32) s k, n.val < 24 → ((s.tile d t).slot n).st = .parked → (s.tile d t).kernel = some k →
    Completes (.gxeDiscard d t n) s (fun u => ((u.tile d t).slot n).st = .free ∧ (u.tile d t).ctrlResult = 0 ∧
      ((u.tile d t).kernel = none ∨ (u.tile d t).kernel = some { k with gone := k.gone + 1, incomplete := true }) ∧
      (∀ j, k.src.isStream = true → u.lantern.job = some j → j.kernelIncomplete = true) ∧ u.pool = s.pool)) ∧
  (∀ d t (n : Fin 32) s e s1 k, n.val < 24 → ((s.tile d t).slot n).st = .parked → (s.tile d t).kernel = some k →
    s.writeMem (k.acc d t) (s.tile d t).ctxBase ((s.tile d t).slot n).context = (e, s1) →
    Completes (.gxeSave d t n) s (fun u => u.pool = s1.pool ∧ (e = none → ((u.tile d t).slot n).st = .free ∧ (u.tile d t).ctrlResult = 0) ∧
      (e ≠ none → (u.tile d t).slot n = (s1.tile d t).slot n ∧ (u.tile d t).ctrlResult = 7))) ∧
  (∀ (d : DieId) (t : TileId) (n : Fin 32) s, 24 ≤ n.val ∨ ((s.tile d t).slot n).st ≠ .parked → ∀ c, c = .gxeReplay d t n ∨ c = .gxeSave d t n ∨ c = .gxeDiscard d t n →
    Completes c s (fun u => u = s.modTile d t (fun k => { k with ctrlResult := 2, ctrlSlot := BitVec.ofNat 5 n }))) ∧
  (∀ d t s r s1 k, (s.tile d t).kernel = some k → s.readMem (k.acc d t) (s.tile d t).ctxBase 16896 = (r, s1) →
    Completes (.gxeRestore d t) s (fun u => (∀ x, r = .error x → (u.tile d t).ctrlResult = 7) ∧
      (∀ c, r = .ok c → (u.tile d t).ctrlResult =
        (if 1 < fieldAt c 0 2 then 3 else if fieldAt c 0x28 4 ≠ k.handle then 4 else if ctxBad c k then 5
         else if (s1.tile d t).freeSlot = none then 6 else 0)) ∧
      ((u.tile d t).ctrlResult ≠ 0 → (u.tile d t).slots = (s1.tile d t).slots) ∧
      (∀ c m, r = .ok c → (s1.tile d t).freeSlot = some m → (u.tile d t).ctrlResult = 0 → ((u.tile d t).slot m).st = .running ∧
        ((u.tile d t).slot m).pc = BitVec.ofNat 32 (fieldAt c 0x10 4) ∧ ((u.tile d t).slot m).live = BitVec.ofNat 32 (fieldAt c 0x14 4) ∧
        ∀ l r, l < 32 → r < 128 → r ≠ 0 → ((u.tile d t).slot m).reg l r = fieldAt c (0x200 + 512 * l + 4 * r) 4))) ∧
  ∀ d t s, (s.tile d t).kernel = none → Completes (.gxeRestore d t) s (fun u => (u.tile d t).ctrlResult = 4 ∧ (u.tile d t).slots = (s.tile d t).slots)

/-- R111, R115, R119, R120, R173 and Tables 05-3 and 05-4: an arithmetic, move, lane or random instruction writes, in the threads that take part,
its one destination (a pair or a quad for the wide forms) with its operation on the values held before, and moves the pc on by 8.
Model's choices: notes/assumptions/6, 69. -/
def Obligations.ThreadsWriteTheirResults : Prop :=
  (∀ (d : DieId) (t : TileId) (n : Fin 24) s k w g, s.groupAt d t n k w → g = (s.tile d t).slot n →
    (gCls w = 0 ∨ gCls w = 1 → gOp w ≠ 0x0F → gOp w ≠ 0x10 → Completes (.gxeInteger d t n) s (fun u => ∃ h, SlotBecomes s u d t n h ∧
      g.wrote h w 1 (fun l => intOp (gOp w) (g.reg l (gA w)) (if gCls w = 1 then gImm w else g.reg l (gB w))))) ∧
    (gCls w = 0 → gOp w = 0x0F ∨ gOp w = 0x10 → Completes (.gxeInteger d t n) s (fun u => ∃ h, SlotBecomes s u d t n h ∧
      g.wrote h w 2 (fun l => intOp64 (gOp w) (g.pair l (gA w)) (g.pair l (gB w))))) ∧
    (gCls w = 1 → gOp w = 0x0F ∨ gOp w = 0x10 → Completes (.gxeInteger d t n) s (fun u => ∃ h, SlotBecomes s u d t n h ∧
      g.wrote h w 2 (fun l => intOp64 (gOp w) (g.pair l (gA w)) (unsigned 64 (signed 32 (gImm w)))))) ∧
    (gCls w = 2 → Completes (.gxeFp32 d t n) s (fun u => ∃ h, SlotBecomes s u d t n h ∧
      g.wrote h w 1 (fun l => (fpOp .fp32 (gFp w) (gOp w) (g.reg l (gA w)) (g.reg l (gB w)) (g.reg l (gC w))).1))) ∧
    (gCls w = 3 → Completes (.gxeFp64 d t n) s (fun u => ∃ h, SlotBecomes s u d t n h ∧
      g.wrote h w 2 (fun l => (fpOp .fp64 (gFp w) (gOp w) (g.pair l (gA w)) (g.pair l (gB w)) (g.pair l (gC w))).1))) ∧
    (∀ f : Fmt, f = (if bit w 4 then .fp16 else .bf16) → gCls w = 4 → Completes (.gxePacked16 d t n) s (fun u => ∃ h, SlotBecomes s u d t n h ∧
      g.wrote h w 1 (fun l =>
        (fpOp f (gFp w) (gOp w) (g.reg l (gA w) % 65536) (g.reg l (gB w) % 65536) (g.reg l (gC w) % 65536)).1 +
        65536 * (fpOp f (gFp w) (gOp w) (g.reg l (gA w) / 65536) (g.reg l (gB w) / 65536) (g.reg l (gC w) / 65536)).1))) ∧
    (∀ a b, gCls w = 5 → cvtFmt (slice w 14 10) = some a → cvtFmt (slice w 9 5) = some b → Completes (.cvt d t n) s (fun u =>
      ∃ h, SlotBecomes s u d t n h ∧ g.wrote h w (if b.width = 64 then 2 else 1) (fun l =>
        (convert b ⟨(gFp w).mode, (gFp w).sat, (gFp w).ftzOut⟩ (g.reg l (gB w) % 65536)
          (a.decodeFtz (gFp w).ftzIn (if a.width = 64 then g.pair l (gA w) else g.reg l (gA w) % 2 ^ a.width))).1))) ∧
    (gCls w = 7 → gOp w < 3 → Completes (.mov d t n) s (fun u => ∃ h, SlotBecomes s u d t n h ∧ g.wrote h w 1 (fun l =>
      if gOp w = 0 then g.reg l (gA w) else if gOp w = 1 then gImm w
      else if g.pred l (gC w % 8) then g.reg l (gA w) else g.reg l (gB w)))) ∧
    (gCls w = 8 → Completes (.shfl d t n) s (fun u => ∃ h, SlotBecomes s u d t n h ∧ g.wrote h w 1 (fun l =>
      if gOp w ≤ 1 then g.reg (g.reg l (gB w) % 32) (gA w)
      else if gOp w = 2 then (maskOf ((g.part w).filter (fun i => decide (g.reg i (gA w) ≠ 0)))).toNat
      else if gOp w = 3 then b2n ((g.part w).any (fun i => decide (g.reg i (gA w) ≠ 0)))
      else b2n ((g.part w).all (fun i => decide (g.reg i (gA w) ≠ 0)))))) ∧
    (gCls w = 0x10 → gOp w = 0 → Completes (.rand32 d t n) s (fun u => ∃ h, SlotBecomes s u d t n h ∧ g.wrote h w 1 (fun l =>
      rand32 (s.die d).seed.toNat (g.reg l (gA w)) (g.reg l (gC w)) (g.pair l (gB w))))) ∧
    (gCls w = 0x10 → gOp w = 1 → Completes (.rand128 d t n) s (fun u => ∃ h, SlotBecomes s u d t n h ∧ g.wrote h w 4 (fun l =>
      draw (s.die d).seed.toNat (g.reg l (gA w)) (g.reg l (gC w)) (g.pair l (gB w))))) ∧
    (gCls w = 7 → gOp w = 3 → Completes (.rdsp d t n) s (fun u => ∃ h, SlotBecomes s u d t n h ∧
      { g with timeHi := h.timeHi }.wrote h w 1 (fun l =>
        match gImm w % 256 with
        | 0 => l | 1 => g.group | 2 => k.groups | 3 => t.val | 4 => d.val | 5 => s.fabric.node.toNat | 6 => k.args % 2 ^ 32
        | 7 => k.args / 2 ^ 32 | 8 => s.timeNs % 2 ^ 32 | 9 => g.timeHi.toNat | 10 => g.plen | _ => k.seedId) ∧
      (gImm w % 256 = 8 → g.part w ≠ [] → h.timeHi = BitVec.ofNat 32 (s.timeNs / 2 ^ 32)) ∧ (gImm w % 256 ≠ 8 → h.timeHi = g.timeHi))) ∧
    (gCls w = 7 → gOp w = 4 → Completes (.setplen d t n) s (fun u => ∃ h : Group, SlotBecomes s u d t n h ∧
      h = { g with pc := g.pc + 8, rows := h.rows, cols := h.cols, full := h.full } ∧
      (g.part w = [] → h.plen = g.plen) ∧ (∀ l r, g.part w = l :: r → h.plen = g.reg l (gA w) % 4096))) ∧
    (gCls w = 6 → Completes (.gxeCompare d t n) s (fun u => ∃ h : Group, SlotBecomes s u d t n h ∧
      h = { g with pc := g.pc + 8, preds := h.preds } ∧ ∀ l p, l < 32 → p < 8 →
        (l ∈ g.part w → p = gD w % 8 → p ≠ 0 →
          (gOp w < 4 → h.pred l p = intRel (gOp w) (signed 32 (g.reg l (gA w))) (signed 32 (g.reg l (gB w)))) ∧
          (4 ≤ gOp w → gOp w < 8 → h.pred l p = fpRel (gOp w - 4) (Fmt.fp32.decode (g.reg l (gA w))) (Fmt.fp32.decode (g.reg l (gB w)))) ∧
          (8 ≤ gOp w → gOp w < 0x0C →
            h.pred l p = fpRel (gOp w - 8) (Fmt.fp64.decode (g.pair l (gA w))) (Fmt.fp64.decode (g.pair l (gB w)))) ∧
          (gOp w = 0x0C → h.pred l p = decide (g.reg l (gA w) < g.reg l (gB w))) ∧
          (gOp w = 0x0D → h.pred l p = decide (g.reg l (gA w) ≤ g.reg l (gB w))) ∧
          (gOp w = 0x10 → h.pred l p = (g.pred l (gA w % 8) && g.pred l (gB w % 8))) ∧
          (gOp w = 0x11 → h.pred l p = (g.pred l (gA w % 8) || g.pred l (gB w % 8))) ∧
          (gOp w = 0x12 → h.pred l p = (g.pred l (gA w % 8) != g.pred l (gB w % 8))) ∧
          (gOp w = 0x13 → h.pred l p = !g.pred l (gA w % 8))) ∧
        (l ∉ g.part w ∨ p ≠ gD w % 8 ∨ p = 0 → h.pred l p = g.pred l p))) ∧
    (gCls w = 0x0E → gOp w = 7 → Completes (.gxeNop d t n) s (fun u => SlotBecomes s u d t n { g with pc := g.pc + 8 })))

/-- R92, R93, R117, R122, R124, R125: every participating thread's access is checked before any takes place; a load writes its registers, a store
its bytes and an atomic both; a plate instruction writes the plate it names, or the OC rows of a plate store, inside PLEN and the grant only.
Model's choices: notes/assumptions/18, 69, 70, 98. -/
def Obligations.GroupMemoryAndPlatesAct : Prop :=
  (∀ (d : DieId) (t : TileId) (n : Fin 24) s k w c a e, s.groupAt d t n k w → (gCls w = 9 ∧ c = .gxeLoad d t n ∧ e = memBytes (gOp w)) ∨
      (gCls w = 0x0A ∧ c = .gxeStore d t n ∧ e = memBytes (gOp w)) ∨
      (gCls w = 0x0B ∧ c = .gxeAtomic d t n ∧ e = (if 0x10 ≤ gOp w then 8 else 4)) →
    ∀ f, (s.at d t n k w).checkAll s e = some (f, a) → Completes c s (fun u => GroupFaulted s u d t n f a)) ∧
  (∀ (d : DieId) (t : TileId) (n : Fin 24) s k w g s1 rs, s.groupAt d t n k w → g = (s.tile d t).slot n → gCls w = 9 →
    (s.at d t n k w).checkAll s (memBytes (gOp w)) = none → (s.at d t n k w).readAll (memBytes (gOp w)) (g.part w) s = (.ok rs, s1) →
    Completes (.gxeLoad d t n) s (fun u => ∃ h : Group, SlotBecomes s1 u d t n h ∧ h = { g with pc := g.pc + 8, regs := h.regs } ∧
      (∀ l b i, (l, b) ∈ rs → i < memWords (gOp w) → gD w + i ≠ 0 →
        h.reg l (gD w + i) = loadValue (gOp w) b / 2 ^ (32 * i) % 2 ^ 32) ∧
      ∀ l r, l < 32 → r < 128 → (l ∉ g.part w ∨ r < gD w ∨ gD w + memWords (gOp w) ≤ r) → h.reg l r = g.reg l r)) ∧
  (∀ (d : DieId) (t : TileId) (n : Fin 24) s k w g, s.groupAt d t n k w → g = (s.tile d t).slot n → gCls w = 0x0A →
    (s.at d t n k w).checkAll s (memBytes (gOp w)) = none → gMt w = 2 → Completes (.gxeStore d t n) s (fun u =>
      (u.tile d t).slot n = { g with pc := g.pc + 8 } ∧ u.pool = s.pool ∧ (u.tile d t).ts = (s.tile d t).ts ∧
      (∀ a : Nat, (∀ l ∈ g.part w, (a : Int) < (s.at d t n k w).addr l ∨ (s.at d t n k w).addr l + memBytes (gOp w) ≤ a) →
        Map.get 0 (u.tile d t).oc a = Map.get 0 (s.tile d t).oc a) ∧
      ∀ l ∈ g.part w, (∀ m ∈ g.part w, l < m → (s.at d t n k w).addr l ≠ (s.at d t n k w).addr m) →
        sramRead (u.tile d t).oc ((s.at d t n k w).addr l).toNat (memBytes (gOp w)) =
          leBytes (memBytes (gOp w)) (g.words l (gD w) (memWords (gOp w))))) ∧
  (∀ (d : DieId) (t : TileId) (n : Fin 24) s k w g, s.groupAt d t n k w → g = (s.tile d t).slot n → gCls w = 0x0A →
    (s.at d t n k w).checkAll s (memBytes (gOp w)) = none → gMt w = 3 → Completes (.gxeStore d t n) s (fun u =>
      (u.tile d t).slot n = { g with pc := g.pc + 8 } ∧ u.pool = s.pool ∧ (u.tile d t).oc = (s.tile d t).oc ∧
      (∀ a : Nat, (∀ l ∈ g.part w, (a : Int) < (s.at d t n k w).addr l ∨ (s.at d t n k w).addr l + memBytes (gOp w) ≤ a) →
        Map.get 0 (u.tile d t).ts a = Map.get 0 (s.tile d t).ts a) ∧
      ∀ l ∈ g.part w, (∀ m ∈ g.part w, l < m → (s.at d t n k w).addr l ≠ (s.at d t n k w).addr m) →
        sramRead (u.tile d t).ts ((s.at d t n k w).addr l).toNat (memBytes (gOp w)) =
          leBytes (memBytes (gOp w)) (g.words l (gD w) (memWords (gOp w))))) ∧
  (∀ (d : DieId) (t : TileId) (n : Fin 24) s k w g, s.groupAt d t n k w → g = (s.tile d t).slot n → gCls w = 0x0A →
    (s.at d t n k w).checkAll s (memBytes (gOp w)) = none → gMt w < 2 → Completes (.gxeStore d t n) s (fun u =>
      (u.tile d t).slot n = { g with pc := g.pc + 8 } ∧ u.pool = ((g.part w).foldl (fun x l =>
        (s.at d t n k w).write x l (leBytes (memBytes (gOp w)) (g.words l (gD w) (memWords (gOp w))))) s).pool)) ∧
  (∀ (d : DieId) (t : TileId) (n : Fin 24) s k w g l, s.groupAt d t n k w → g = (s.tile d t).slot n → gCls w = 0x0A →
    (s.at d t n k w).checkAll s (memBytes (gOp w)) = none → gMt w < 2 → g.part w = [l] → Completes (.gxeStore d t n) s (fun u =>
      (u.tile d t).slot n = { g with pc := g.pc + 8 } ∧ u.pool = (s.writeMem (s.at d t n k w).acc ((s.at d t n k w).addr l).toNat
        (leBytes (memBytes (gOp w)) (g.words l (gD w) (memWords (gOp w))))).2.pool)) ∧
  (∀ (d : DieId) (t : TileId) (n : Fin 24) s k w g l b, s.groupAt d t n k w → g = (s.tile d t).slot n → gCls w = 0x0B → gOp w < 0x10 →
    (s.at d t n k w).checkAll s 4 = none → gMt w = 2 → g.part w = [l] → ((s.at d t n k w).read s 4 l).1 = .ok b →
    Completes (.gxeAtomic d t n) s (fun u => ∃ h : Group, (u.tile d t).slot n = h ∧ g.wrote h w 1 (fun _ => leNat b) ∧
      sramRead (u.tile d t).oc ((s.at d t n k w).addr l).toNat 4 =
        leBytes 4 (atomicValue 32 (gOp w) (leNat b) (g.reg l (gD w)) (g.reg l (gD w + 1))) ∧ u.pool = s.pool)) ∧
  (∀ (d : DieId) (t : TileId) (n : Fin 24) s k w e l q rs b s1 c, s.groupAt d t n k w → gCls w = 0x0B → e = (if 0x10 ≤ gOp w then 8 else 4) →
    (s.at d t n k w).checkAll s e = none → ((s.at d t n k w).bypass.readAll e (((s.tile d t).slot n).part w) s).1 = .ok rs →
    ((s.tile d t).slot n).part w = l :: q → (∀ m ∈ q, (s.at d t n k w).addr m = (s.at d t n k w).addr l) →
    (s.at d t n k w).bypass.read s e l = (.ok b, s1) → (s.at d t n k w).combine e (l :: q) (leNat b) = c →
    Completes (.gxeAtomic d t n) s (fun u => ∃ v : State, v = (s.at d t n k w).atomicWrite s1 l (leBytes e c.1) ∧ u.pool = v.pool ∧
      (u.tile d t).oc = (v.tile d t).oc ∧ (u.tile d t).ts = (v.tile d t).ts ∧
      (u.tile d t).slot n = (c.2.foldl (fun g r => g.setWords r.1 (gD w) (e / 4) r.2) ((s.tile d t).slot n)).step)) ∧
  (∀ (d : DieId) (t : TileId) (n : Fin 24) s k w f a s1, s.groupAt d t n k w →
    (gCls w = 9 → (s.at d t n k w).checkAll s (memBytes (gOp w)) = none →
      (s.at d t n k w).readAll (memBytes (gOp w)) (((s.tile d t).slot n).part w) s = (.error (f, a), s1) →
      Completes (.gxeLoad d t n) s (fun u => GroupFaulted s u d t n f a)) ∧
    (∀ e, e = (if 0x10 ≤ gOp w then 8 else 4) → gCls w = 0x0B → (s.at d t n k w).checkAll s e = none →
      (s.at d t n k w).bypass.readAll e (((s.tile d t).slot n).part w) s = (.error (f, a), s1) →
      Completes (.gxeAtomic d t n) s (fun u => GroupFaulted s u d t n f a))) ∧
  (∀ (d : DieId) (t : TileId) (n : Fin 24) s k w p r c x, s.groupAt d t n k w → ((s.tile d t).slot n).part w = p :: r → gxeRow w d t n = some c →
    c = .plateOp d t n ∨ c = .plateLookup d t n →
    (k.badPlateOf (plateOperands w) = some x → Completes c s (fun u => GroupFaulted s u d t n 3 x)) ∧
    (k.badPlateOf (plateOperands w) = none → badPlateSource s (s.at d t n k w) = some x →
      Completes c s (fun u => GroupFaulted s u d t n 5 x))) ∧
  (∀ (d : DieId) (t : TileId) (n : Fin 24) s k w g p r f, s.groupAt d t n k w → g = (s.tile d t).slot n → g.part w = p :: r → gCls w = 0x0D → gOp w ≤ 0x0C →
    plateFmt (slice w 37 35) = some f → k.badPlateOf (plateOperands w) = none → badPlateSource s (s.at d t n k w) = none →
    Completes (.plateOp d t n) s (fun u =>
      (u.tile d t).slot n = { g with pc := g.pc + 8 } ∧ (∀ q, q ≠ slice w 47 43 → u.plate d t q = s.plate d t q) ∧
      (∀ i j, i < 16 → j < plateCols f → g.rows.toNat ≤ i ∨ g.ncols f ≤ j →
        plateGet f (u.plate d t (slice w 47 43)) i j = plateGet f (s.plate d t (slice w 47 43)) i j) ∧
      (gOp w < 2 ∨ 4 < gOp w → ∀ i j, i < g.rows.toNat → j < g.ncols f → plateGet f (u.plate d t (slice w 47 43)) i j =
        (plateElem f (gOp w) 0 (if bit w 34 then .rtz else .rne) (plateGet f (s.plate d t (slice w 42 38)) i j)
          (scalarCode f (gImm w)) 0).1 % 2 ^ f.width) ∧
      (u.tile d t).oc = (s.tile d t).oc ∧ u.pool = s.pool)) ∧
  (∀ (d : DieId) (t : TileId) (n : Fin 24) s k w g p r f, s.groupAt d t n k w → g = (s.tile d t).slot n → g.part w = p :: r → gCls w = 0x0C → gOp w ≤ 0x0C →
    plateFmt (slice w 27 25) = some f → k.badPlateOf (plateOperands w) = none → badPlateSource s (s.at d t n k w) = none →
    Completes (.plateOp d t n) s (fun u =>
      (u.tile d t).slot n = { g with pc := g.pc + 8 } ∧ (∀ q, q ≠ slice w 47 43 → u.plate d t q = s.plate d t q) ∧
      (∀ i j, i < 16 → j < plateCols f → plateGet f (u.plate d t (slice w 47 43)) i j =
        if i < g.rows.toNat ∧ j < g.ncols f then
          (plateElem f (gOp w) (slice w 37 33) (if bit w 24 then .rtz else .rne) (plateGet f (s.plate d t (slice w 42 38)) i j)
            (plateGet f (s.plate d t (if gOp w = 3 then slice w 32 28 else slice w 37 33)) i j)
            (plateGet f (s.plate d t (slice w 32 28)) i j)).1 % 2 ^ f.width
        else plateGet f (s.plate d t (slice w 47 43)) i j) ∧
      (u.tile d t).oc = (s.tile d t).oc ∧ u.pool = s.pool)) ∧
  (∀ (d : DieId) (t : TileId) (n : Fin 24) s k w g p r f, s.groupAt d t n k w → g = (s.tile d t).slot n → g.part w = p :: r → gCls w = 0x0C → gOp w = 0x0D →
    plateFmt (slice w 27 25) = some f → k.badPlateOf (plateOperands w) = none → badPlateSource s (s.at d t n k w) = none →
    Completes (.plateLookup d t n) s (fun u =>
      (u.tile d t).slot n = { g with pc := g.pc + 8 } ∧ (∀ q, q ≠ slice w 47 43 → u.plate d t q = s.plate d t q) ∧
      (∀ i j, i < g.rows.toNat → j < g.ncols f → plateGet f (u.plate d t (slice w 47 43)) i j =
        tableEntry f (s.plate d t (slice w 37 33)) (s.plate d t (slice w 37 33 + 1))
          (plateGet f (s.plate d t (slice w 42 38)) i j / 2 ^ slice w 32 28 % 256)) ∧
      (u.tile d t).oc = (s.tile d t).oc ∧ u.pool = s.pool)) ∧
  (∀ (d : DieId) (t : TileId) (n : Fin 24) s k w g l r c, s.groupAt d t n k w → g = (s.tile d t).slot n → g.part w = l :: r → gxeRow w d t n = some c →
    c = .plateLoad d t n ∨ c = .plateStore d t n →
    (∀ e a, (plateMem (s.at d t n k w) l).fault s (s.at d t n k w) (gOp w = 0x10) = some (e, a) →
      Completes c s (fun u => GroupFaulted s u d t n e a)) ∧
    ((plateMem (s.at d t n k w) l).fault s (s.at d t n k w) (gOp w = 0x10) = none → Completes c s (fun u =>
      (u.tile d t).slot n = { g with pc := g.pc + 8 } ∧ u.pool = s.pool ∧ (u.tile d t).ts = (s.tile d t).ts))) ∧
  (∀ (d : DieId) (t : TileId) (n : Fin 24) s k w g l r m, s.groupAt d t n k w → g = (s.tile d t).slot n → g.part w = l :: r → gCls w = 0x0C → gOp w = 0x10 →
    m = plateMem (s.at d t n k w) l → m.fault s (s.at d t n k w) true = none → Completes (.plateLoad d t n) s (fun u =>
      (u.tile d t).oc = (s.tile d t).oc ∧ (∀ q, q ≠ m.plate → u.plate d t q = s.plate d t q) ∧
      ∀ i j, i < 16 → j < plateCols m.pf → plateGet m.pf (u.plate d t m.plate) i j =
        if i < g.rows.toNat ∧ j < g.ncols m.pf then
          (loadElem m.pf m.mf { m.o with ftzOut := false } m.ftzIn
            (if m.mf.isMx then some (Map.get 0 (s.tile d t).oc (m.c + i).toNat).toNat else none) 0x3F800000
            (getBits (s.tile d t).oc (8 * (m.a + i * m.b).toNat + j * m.mf.width) m.mf.width)).1 % 2 ^ m.pf.width
        else plateGet m.pf (s.plate d t m.plate) i j)) ∧
  (∀ (d : DieId) (t : TileId) (n : Fin 24) s k w g l r m, s.groupAt d t n k w → g = (s.tile d t).slot n → g.part w = l :: r → gCls w = 0x0C → gOp w = 0x11 →
    m = plateMem (s.at d t n k w) l → m.fault s (s.at d t n k w) false = none → Completes (.plateStore d t n) s (fun u =>
      (∀ q, u.plate d t q = s.plate d t q) ∧
      (∀ a : Nat, (∀ b ∈ m.spans g, (a : Int) < b.1 ∨ b.1 + b.2 ≤ a) → Map.get 0 (u.tile d t).oc a = Map.get 0 (s.tile d t).oc a) ∧
      (g.rows = 1 → m.mf.isMx = false → ∀ j, j < g.ncols m.pf → getBits (u.tile d t).oc (8 * m.a.toNat + j * m.mf.width) m.mf.width =
        (plateStoreRow m ((List.range (g.ncols m.pf)).map (fun c => plateGet m.pf (s.plate d t m.plate) 0 c))).1.getD j 0
          % 2 ^ m.mf.width))) ∧
  ∀ d t n s k w, s.groupAt d t n k w → gCls w = 0x0F → gOp w = 4 → Completes (.l1inv d t n) s (fun u =>
    (((s.tile d t).slot n).part w ≠ [] → (u.tile d t).l1 = []) ∧ (((s.tile d t).slot n).part w = [] → (u.tile d t).l1 = (s.tile d t).l1) ∧
    (u.tile d t).slot n = { (s.tile d t).slot n with pc := ((s.tile d t).slot n).pc + 8 } ∧ u.pool = s.pool)

/-- R121, R123, R187 to R189, R195: control moves the pc, the active mask and the stack only; a jump whose guard splits the threads is illegal; a
barrier completes when all live threads stand at one ID, and diverges into fault 0x07, or 0x08 by its watchdog.
Model's choices: notes/assumptions/69, 71, 96, 97. -/
def Obligations.GroupControlAndBarriers : Prop :=
  (∀ (d : DieId) (t : TileId) (n : Fin 24) s k w g, s.groupAt d t n k w → g = (s.tile d t).slot n → gCls w = 0x0E →
    (gOp w = 0 → g.part w ≠ [] → maskOf (g.part w) = g.active → Completes (.bra d t n) s (fun u =>
      SlotBecomes s u d t n { g with pc := g.pc + BitVec.ofInt 32 (8 * signed 32 (gImm w)) })) ∧
    (∀ c, (gOp w = 0 ∧ c = .bra d t n) ∨ (gOp w = 3 ∧ c = .call d t n) ∨ (gOp w = 4 ∧ c = .ret d t n) ∨ (gOp w = 5 ∧ c = .jmpi d t n) →
      (g.part w = [] → Completes c s (fun u => SlotBecomes s u d t n { g with pc := g.pc + 8 })) ∧
      (g.part w ≠ [] → maskOf (g.part w) ≠ g.active → Completes c s (fun u => GroupFaulted s u d t n 1 g.pc.toNat))) ∧
    (gOp w = 3 → g.part w ≠ [] → maskOf (g.part w) = g.active → Completes (.call d t n) s (fun u => ∃ h : Group, SlotBecomes s u d t n h ∧
      h = { g with pc := g.pc + BitVec.ofInt 32 (8 * signed 32 (gImm w)), regs := h.regs } ∧ ∀ l r, l < 32 → r < 128 →
        h.reg l r = if l ∈ g.part w ∧ r = 1 then (g.pc + 8).toNat else g.reg l r)) ∧
    (∀ l q, gOp w = 4 → g.part w = l :: q → maskOf (g.part w) = g.active → (∀ m ∈ q, g.reg m 1 = g.reg l 1) →
      Completes (.ret d t n) s (fun u => SlotBecomes s u d t n { g with pc := BitVec.ofNat 32 (g.reg l 1) })) ∧
    (∀ l q, gOp w = 5 → g.part w = l :: q → maskOf (g.part w) = g.active → (∀ m ∈ q, g.reg m (gA w) = g.reg l (gA w)) →
      Completes (.jmpi d t n) s (fun u => SlotBecomes s u d t n { g with pc := BitVec.ofNat 32 (g.reg l (gA w)) })) ∧
    (∀ l r q, (gOp w = 4 ∧ r = 1) ∨ (gOp w = 5 ∧ r = gA w) → g.part w = l :: q → maskOf (g.part w) = g.active →
      (∃ m ∈ q, g.reg m r ≠ g.reg l r) → Completes (if gOp w = 4 then .ret d t n else .jmpi d t n) s (fun u =>
        GroupFaulted s u d t n 1 g.pc.toNat)) ∧
    (gOp w = 1 → maskOf (g.part w) = g.active → g.active ≠ 0 → Completes (.brd d t n) s (fun u =>
      SlotBecomes s u d t n { g with pc := g.pc + BitVec.ofInt 32 (8 * signed 16 (gImm w / 65536)) })) ∧
    (gOp w = 1 → g.part w = [] → g.active ≠ 0 → Completes (.brd d t n) s (fun u => SlotBecomes s u d t n { g with pc := g.pc + 8 })) ∧
    (gOp w = 1 → g.part w ≠ [] → maskOf (g.part w) ≠ g.active → g.stack = [] → Completes (.brd d t n) s (fun u => SlotBecomes s u d t n
      { g with
        active := g.active &&& ~~~(maskOf (g.part w)), pc := g.pc + 8, stack := [⟨g.pc + BitVec.ofInt 32 (8 * signed 16 (gImm w)), g.active,
          g.pc + BitVec.ofInt 32 (8 * signed 16 (gImm w / 65536)), maskOf (g.part w)⟩] })) ∧
    (gOp w = 1 → g.part w ≠ [] → maskOf (g.part w) ≠ g.active → g.stack.length = 16 → (∀ e ∈ g.stack, e.pendMask ≠ 0) →
      Completes (.brd d t n) s (fun u => GroupFaulted s u d t n 9 g.pc.toNat)) ∧
    (∀ e r, gOp w = 2 → g.stack = r ++ [e] → e.rpc = g.pc → e.pendMask ≠ 0 → Completes (.join d t n) s (fun u => SlotBecomes s u d t n
      { g with active := e.pendMask, pc := e.pendPc, stack := sinkEntry r { e with pendMask := 0 } } ∧
      ((∀ x ∈ r, x.saved &&& e.saved ≠ x.saved ∨ x.saved = e.saved) → sinkEntry r { e with pendMask := 0 } = r ++ [{ e with pendMask := 0 }]))) ∧
    (∀ e r, gOp w = 2 → g.stack = r ++ [e] → e.rpc = g.pc → e.pendMask = 0 → Completes (.join d t n) s (fun u => SlotBecomes s u d t n
      { g with active := e.saved &&& g.live, pc := g.pc + 8, stack := r })) ∧
    (gOp w = 2 → (∀ e ∈ g.stack, e.rpc ≠ g.pc) → Completes (.join d t n) s (fun u => SlotBecomes s u d t n { g with pc := g.pc + 8 })) ∧
    (gOp w = 6 → g.stack = [] → maskOf (g.part w) = g.active → Completes (.exit d t n) s (fun u =>
      ((u.tile d t).slot n).st = .free ∧ ((u.tile d t).kernel = none ∨ (u.tile d t).kernel = some { k with gone := k.gone + 1 }) ∧
      (∀ m, m ≠ n.val → (u.tile d t).slot m = (s.tile d t).slot m) ∧ (u.tile d t).oc = (s.tile d t).oc ∧ u.pool = s.pool)) ∧
    (gOp w = 6 → g.bwait = 0 → g.active &&& ~~~(maskOf (g.part w)) ≠ 0 → Completes (.exit d t n) s (fun u => ∃ h : Group,
      SlotBecomes s u d t n h ∧ h.live = g.live &&& ~~~(maskOf (g.part w)) ∧ h.active = g.active &&& ~~~(maskOf (g.part w)) ∧
      h.pc = g.pc + 8 ∧ h.regs = g.regs ∧ h.preds = g.preds))) ∧
  (∀ (d : DieId) (t : TileId) (n : Fin 24) s k w g, s.groupAt d t n k w → g = (s.tile d t).slot n → gCls w = 0x0F →
    (gOp w = 0 → maskOf (g.part w) = g.active → g.live = g.active → g.active ≠ 0 → g.bwait = 0 → g.stack = [] →
      Completes (.gsync d t n) s (fun u => SlotBecomes s u d t n
        { g with pc := g.pc + 8, st := .running, bwait := 0, bid := [], wdog := 0 })) ∧
    (gOp w = 0 → g.part w ≠ [] → maskOf (g.part w) ||| g.bwait = 0xFFFFFFFF → g.live = 0xFFFFFFFF →
      (∃ l < 32, g.bwait.getLsbD l = true ∧ l ∉ g.part w ∧ g.barrier l ≠ gB w % 16) →
      Completes (.gsync d t n) s (fun u => GroupFaulted s u d t n 7 g.pc.toNat)) ∧
    (gOp w = 1 → Completes (.barT d t n) s (fun u => SlotBecomes s u d t n { g with pc := g.pc + 8 })) ∧
    (gOp w = 2 → g.part w ≠ [] → Completes (.barD d t n) s (fun u => (u.tile d t).l1 = [] ∧
      (u.tile d t).slot n = { g with pc := g.pc + 8 } ∧ u.pool = s.pool ∧ u.lantern = s.lantern)) ∧
    (gOp w = 3 → g.part w ≠ [] → (s.release.tile d t).barErr = [] → Completes (.barS d t n) s (fun u => (u.tile d t).l1 = [] ∧
      (u.tile d t).slot n = { g with pc := g.pc + 8 } ∧ u.pool = s.release.pool ∧ u.host.readAhead = [])) ∧
    (∀ a r, gOp w = 3 → g.part w ≠ [] → (s.release.tile d t).barErr = a :: r → Completes (.barS d t n) s (fun u =>
      (u.tile d t).slot n = { (s.release.tile d t).slot n with st := .parked, fault := 0x0A, faultAddr := BitVec.ofNat 64 (r.foldl min a) } ∧
      (u.tile d t).barErr = [])) ∧
    (s.pool.msgs = [] → s.pool.agents = [] → s.release = { s with host := { s.host with readAhead := [] } }) ∧
    (gOp w = 3 → g.part w = [] → Completes (.barS d t n) s (fun u => SlotBecomes s u d t n { g with pc := g.pc + 8 }))) ∧
  (∀ d t (n : Fin 24) s, ((s.tile d t).slot n).bwait ≠ 0 → ((s.tile d t).slot n).st = .waiting → Completes (.gsyncWatchdog d t n) s (fun u =>
    ((u.tile d t).slot n).st = .parked ∧ ((u.tile d t).slot n).fault = 8 ∧ ((u.tile d t).slot n).wdog = 0x100000 ∧
    ((u.tile d t).slot n).pc = ((s.tile d t).slot n).pc ∧ ((u.tile d t).slot n).bwait = ((s.tile d t).slot n).bwait ∧ u.pool = s.pool)) ∧
  ∀ d t (n : Fin 24) s, ((s.tile d t).slot n).bwait = 0 → Completes (.gsyncWatchdog d t n) s (fun u => u = s)

/-! ## Ordering, coherence, caches and memory tiers (08 to 10) -/

/-- R181, R186, R187, R191, R195 to R197, R199, R205, R312 to R315: write-combining buffers, the cores' barriers and cache-block operations, abandoned
stores, device loads without an answer, the drain cutoff and WIN_SYNC. A release ends every transaction first; it changes nothing else where none
is under way. Model's choices: notes/assumptions/12, 19, 25, 26, 27, 100, 102. -/
def Obligations.CoresOrderAndMaintainLines : Prop :=
  (∀ (h : HartId) (b : Fin 8) s c, (Map.get {} (s.hart h).wc b).valid = true → s.place ((Map.get {} (s.hart h).wc b).line * 128) = .mem c →
    s.holds .core (Map.get {} (s.hart h).wc b).key = true →
    ∀ u, (s.modHart h (fun x => { x with wc := Map.put {} x.wc b {} })).coherentWrite ⟨16 * h, 2, .core, (Map.get {} (s.hart h).wc b).key, false⟩ c
      (Map.get {} (s.hart h).wc b).line (Map.get {} (s.hart h).wc b).mask.toNat (Map.get {} (s.hart h).wc b).data = (true, u) →
    Completes (.wcBufferDrain h (.drain b)) s (fun t => t = u)) ∧
  (∀ (h : HartId) (b : Fin 8) s, (Map.get {} (s.hart h).wc b).valid = false → Completes (.wcBufferDrain h (.drain b)) s (fun t => t = s)) ∧
  (∀ (h : HartId) (b : Fin 8) s, s.wcLost h b = true → Completes (.wcBufferDrain h (.drain b)) s (fun t =>
    (t.hart h).cause = some 7 ∧ (t.hart h).tval = 128 * (Map.get {} (s.hart h).wc b).line ∧ (t.hart h).reservation = none)) ∧
  (∀ (h : HartId) (a : DWord) key l s b, s.place a.toNat ≠ .dev → l ≠ [] → a.toNat % 128 + l.length ≤ 128 →
    ((s.hart h).wcSlot (a.toNat / 128) (s.pageKey h key) = some b ∨ ((s.hart h).wcSlot (a.toNat / 128) (s.pageKey h key) = none ∧
      (List.range 8).find? (fun i => !(Map.get {} (s.hart h).wc i).valid) = some b)) →
    ((Map.get ({} : WcBuf) (s.hart h).wc b).mask ||| BitVec.ofNat 128 ((2 ^ l.length - 1) * 2 ^ (a.toNat % 128))).toNat ≠ fullMask →
    Completes (.wcBufferDrain h (.store a key l)) s (fun t => t = s.modHart h (fun x => { x with
      wc := Map.put {} x.wc b ((Map.get ({} : WcBuf) (s.hart h).wc b).gather (a.toNat / 128) (s.pageKey h key) (a.toNat % 128) l) }))) ∧
  (∀ (h : HartId) (a : DWord) key l s, s.place a.toNat = .dev → Completes (.wcBufferDrain h (.store a key l)) s (fun t => t = s)) ∧
  (∀ (h : HartId) (e : Word) s, customOp e.toNat = some 0 → Completes (.jlSyncC ⟨h, e⟩) s (fun t => (List.finRange 8).foldl (fun (o : Out) b =>
    match o with | .next u => exec (.wcBufferDrain h (.drain b)) u | x => x) (.next s) = .next t)) ∧
  (∀ (h : HartId) (e : Word) s, customOp e.toNat = some 1 → (∀ b < 8, (Map.get {} (s.hart h).wc b).valid = false) →
    ((s.release.hart h).pendErr = none → Completes (.jlSyncS ⟨h, e⟩) s (fun t => t = s.release)) ∧
    ∀ a, s.pool.msgs = [] → s.pool.agents = [] → (s.hart h).pendErr = some a → Completes (.jlSyncS ⟨h, e⟩) s (fun t =>
      t.hart h = { s.hart h with pendErr := none, cause := some 24, tval := a, reservation := none } ∧ t.pool = s.pool ∧ t.dies = s.dies)) ∧
  (∀ s : State, s.pool.msgs = [] → s.pool.agents = [] → s.release = { s with host := { s.host with readAhead := [] } }) ∧
  (∀ (h : HartId) (p : Priv) (sel : DWord) (e : Word) s, customOp e.toNat = some 2 → p ≠ .u ∨ (s.hart h).uinval = true → Completes (.jlInvalT ⟨h, e⟩ p sel) s (fun t =>
    (∀ x ∈ s.invalTiles sel.toNat, (t.tile x.1 x.2).l1 = []) ∧ (∀ d n, (t.tile d n).oc = (s.tile d n).oc ∧ (t.tile d n).ts = (s.tile d n).ts ∧
      (t.tile d n).slots = (s.tile d n).slots) ∧ t.pool = s.pool ∧ t.host = s.host)) ∧
  (∀ (h : HartId) (sel : DWord) (e : Word) s, (s.hart h).uinval = false → (∀ b < 8, (Map.get {} (s.hart h).wc b).valid = false) →
    Completes (.jlInvalT ⟨h, e⟩ .u sel) s (fun t => t.tiles = s.tiles ∧ (t.hart h).cause = some 2 ∧ t.pool = s.pool)) ∧
  (∀ (h : HartId) (p : Priv) (sel : DWord) (e : Word) s c, (∀ b < 8, (Map.get {} (s.hart h).wc b).valid = false) →
    (c = .jlSyncC ⟨h, e⟩ ∧ customOp e.toNat ≠ some 0) ∨ (c = .jlSyncS ⟨h, e⟩ ∧ customOp e.toNat ≠ some 1) ∨
      (c = .jlInvalT ⟨h, e⟩ p sel ∧ customOp e.toNat ≠ some 2) →
    Completes c s (fun t => (t.hart h).cause = some 2 ∧ (t.hart h).tval = 0 ∧ t.tiles = s.tiles ∧ t.pool = s.pool)) ∧
  (∀ (h : HartId) (a : DWord) s c, s.place a.toNat = .mem c → s.calm → s.dirtyHolder (a.toNat / 128) = none →
    Completes (.cboClean h a) s (fun t => t = s)) ∧
  (∀ (h : HartId) (a : DWord) s c x, s.place a.toNat = .mem c → s.calm → s.dirtyHolder (a.toNat / 128) = some x →
    (s.agentLine x (a.toNat / 128)).st = .m →
    Completes (.cboClean h a) s (fun t => t.agentLine x (a.toNat / 128) = { s.agentLine x (a.toNat / 128) with st := .e })) ∧
  (∀ (h : HartId) (a : DWord) s c, s.place a.toNat = .mem c →
    Completes (.cboFlush h a) s (fun t => ∀ x, (t.agentLine x (a.toNat / 128)).st = .i)) ∧
  (∀ (h : HartId) (a : DWord) s c, s.place a.toNat = .mem c →
    Completes (.cboInval h a) s (fun t => ∀ x, (t.agentLine x (a.toNat / 128)).st = .i)) ∧
  (∀ h (a : DWord) s, exec (.cboInval h a) s = exec (.cboFlush h a) s) ∧
  (∀ (h : HartId) (a : DWord) s c, s.place a.toNat = .none → (∀ b < 8, (Map.get {} (s.hart h).wc b).valid = false) →
    c = .cboClean h a ∨ c = .cboFlush h a ∨ c = .cboInval h a → Completes c s (fun t => (t.hart h).cause = some 7 ∧ t.pool = s.pool)) ∧
  (∀ (h : HartId) (a : DWord) (k : KeyId) s u, s.writeMem ⟨16 * h, 2, .core, s.pageKey h k, false⟩ (a.toNat / 128 * 128) (zeros 128) = (none, u) →
    Completes (.cboZero h a k) s (fun t => t = u)) ∧
  (∀ (g : BitVec 16) (a : DWord) s, g.toNat % 16 = 0 → Completes (.storeAbandon g a) s (fun t => (t.hart (g.toNat / 16)).pendErr =
      some (match (s.hart (g.toNat / 16)).pendErr with | some b => min b a.toNat | none => a.toNat) ∧ t.pool = s.pool ∧ t.tiles = s.tiles)) ∧
  (∀ (g : BitVec 16) (a : DWord) s, g.toNat % 16 = 1 → (s.tile (g.toNat / 16 / 128) (g.toNat / 16 % 128)).kernel.isSome = true →
    Completes (.storeAbandon g a) s (fun t => (t.tile (g.toNat / 16 / 128) (g.toNat / 16 % 128)).barErr =
      (s.tile (g.toNat / 16 / 128) (g.toNat / 16 % 128)).barErr ++ [a.toNat] ∧ t.pool = s.pool)) ∧
  (∀ (g : BitVec 16) (a : DWord) s, g.toNat % 16 = 0 → (∀ b < 8, (Map.get {} (s.hart (g.toNat / 16)).wc b).valid = false) →
    Completes (.deviceLoadTimeout g a) s (fun t => (t.hart (g.toNat / 16)).cause = some 5 ∧ (t.hart (g.toNat / 16)).tval = a.toNat ∧
      t.host.reply = .fault 5 ∧ t.pool = s.pool)) ∧
  (∀ (d : Fin 5) s, d.val < 4 → Completes (.drainCutoff d) s (fun t => (t.die d).dc.lines = [] ∧ (t.die d).dc.side = [] ∧
    t.svc.discarded = s.svc.discarded ++ (s.dcModified d ++ s.dieWrites d) ∧ t.pool = s.pool ∧
    ∀ l ∈ s.dcModified d ++ s.dieWrites d, ∀ r ∈ t.sec.regions, r.base ≤ 128 * l → 128 * l < r.base + r.size → r.state ≠ 0)) ∧
  (∀ s, Completes (.drainCutoff 4) s (fun t => t.pool.agents = [] ∧ t.pool.homes = [] ∧ t.pool.msgs = [] ∧ t.pool.cells = s.pool.cells ∧
    t.svc.discarded = s.svc.discarded ++ s.hdModified ∧ t.dies = s.dies)) ∧
  (∀ s : State, s.pool.msgs = [] → s.writesDue (fun _ => true) = [] → (∀ e ∈ s.dies, s.dieWrites e.1 = []) →
    Completes .winSync s (fun t => t = s.release.reply (.bytes (leBytes 8 s.timeNs)))) ∧
  ∀ s, Completes .winSync s (fun t => t.host.reply = .bytes (leBytes 8 s.timeNs) ∨
    (t.host.reply = .bytes (List.replicate 8 255) ∧ t.pool = s.pool ∧ t.dies = s.dies))

/-- R24, R25, R194, R207 to R215, R312, R385 and Tables 09-3 to 09-7: how a core's access meets its cluster's copy, what the home answers, whom it
snoops, what an agent answers and installs, and how a write-back that crosses a snoop serves as its data.
Model's choices: notes/assumptions/1, 18, 19, 22, 23, 100, 103. -/
def Obligations.LinesFollowTheDirectory : Prop :=
  (∀ (a : CacheId) (line : LineAddr) (key : KeyId) x c s, (c = .rdS a line ⟨key, x⟩ ∨ c = .rdU a line ⟨key, x⟩ ∨ c = .upg a line ⟨key, x⟩) → x.kind ≠ .prefetch →
    s.power.state ≠ .idle → s.place (128 * line.toNat + x.offset.toNat) = .none ∨ s.holds .core (s.pageKey x.hart key) = false →
    (∀ b < 8, (Map.get {} (s.hart x.hart).wc b).valid = false) →
    Completes c s (fun t => t.pool = s.pool ∧ t.dies = s.dies ∧ t.host.reply = .fault (accessCause x.kind) ∧
      (t.hart x.hart).cause = some (accessCause x.kind) ∧ (t.hart x.hart).tval = 128 * line.toNat + x.offset.toNat)) ∧
  (∀ (r : Requester) (line : LineAddr) (key : KeyId) m data op s, s.unitMayNot line.toNat key r →
    (3 ≤ r.agent.toNat % 16 → (∀ c, (c = .rdSn r line key ∨ c = .atom r line key op) →
        Completes c s (fun t => t.pool = s.pool ∧ t.dies = s.dies ∧ t.host.reply = .unsupported)) ∧
      ∀ c, (c = .wrFull r line key data ∨ c = .wrPart r line key m data) →
        Completes c s (fun t => t.pool = s.pool ∧ t.dies = s.dies ∧ t.host.reply = .discarded)) ∧
    (r.agent.toNat % 16 = 1 → (s.tile (r.agent.toNat / 16 / 128) (r.agent.toNat / 16 % 128)).runningSlots ≠ [] →
      Completes (.rdSn r line key) s (fun t => t.pool = s.pool ∧
        ∃ n ∈ (s.tile (r.agent.toNat / 16 / 128) (r.agent.toNat / 16 % 128)).runningSlots,
          ((t.tile (r.agent.toNat / 16 / 128) (r.agent.toNat / 16 % 128)).slot n).st = .parked ∧
          ((t.tile (r.agent.toNat / 16 / 128) (r.agent.toNat / 16 % 128)).slot n).fault = 2))) ∧
  (∀ (a : CacheId) (line : LineAddr) (key : KeyId) x s l, s.coreMay line.toNat (s.pageKey x.hart key) x → (s.agentLine a line.toNat) = l →
    l.key = s.pageKey x.hart key → l.st = .m →
    (∀ c, (c = .rdS a line ⟨key, x⟩ ∨ c = .rdU a line ⟨key, x⟩ ∨ c = .upg a line ⟨key, x⟩) →
      (x.kind = .load → Completes c s (fun t => t = s.reply (.bytes (bytesAt l.data x.offset.toNat (2 ^ x.size.toNat))))) ∧
      (x.kind = .lr → Completes c s (fun t => (t.hart x.hart).reservation = some line.toNat ∧ t.pool = s.pool)) ∧
      (x.kind = .sc → (s.hart x.hart).reservation = some line.toNat → Completes c s (fun t => (t.hart x.hart).reservation = none ∧
        t.host.reply = .bytes [0] ∧ t.pool = s.pool)) ∧
      (x.kind = .sc → (s.hart x.hart).reservation ≠ some line.toNat → Completes c s (fun t => (t.hart x.hart).reservation = none ∧
        t.host.reply = .bytes [1] ∧ t.pool = s.pool)))) ∧
  (∀ (a : CacheId) (line : LineAddr) (key : KeyId) x s c l, s.coreMiss a line.toNat (s.pageKey x.hart key) x → s.lineCtrl line.toNat = some c →
    s.homeOpen line.toNat → s.home line.toNat = {} → (s.dirPeers line.toNat).length < dirWays line.toNat →
    (s.homeRead ⟨cacheAgent a, 2, .anyone, s.pageKey x.hart key, false⟩ c line.toNat).1 = some l →
    Completes (.rdS a line ⟨key, x⟩) s (fun t => .data (.cache a) line.toNat l .e false ∈ t.pool.msgs ∧ (t.home line.toNat).dir = .de ∧
      (t.home line.toNat).owner = some a ∧ (t.home line.toNat).key = s.pageKey x.hart key ∧ (t.home line.toNat).txn = none ∧
      t.pool.misses = s.pool.misses ++ [⟨a, line.toNat, x⟩]) ∧
    Completes (.rdU a line ⟨key, x⟩) s (fun t => .data (.cache a) line.toNat l .m false ∈ t.pool.msgs ∧ (t.home line.toNat).dir = .de ∧
      (t.home line.toNat).owner = some a ∧ (t.home line.toNat).txn = none) ∧
    Completes (.upg a line ⟨key, x⟩) s (fun t => .data (.cache a) line.toNat l .m false ∈ t.pool.msgs ∧ (t.home line.toNat).dir = .de ∧
      (t.home line.toNat).owner = some a ∧ (t.home line.toNat).txn = none)) ∧
  (∀ (a : CacheId) (line : LineAddr) (key : KeyId) x s c, s.coreMay line.toNat (s.pageKey x.hart key) x → (s.agentLine a line.toNat).st = .s → x.kind = .store →
    s.wbDue a line.toNat = false → s.lineCtrl line.toNat = some c → s.homeOpen line.toNat →
    s.home line.toNat = { dir := .ds, sharers := agentMask [a], key := s.pageKey x.hart key } →
    Completes (.upg a line ⟨key, x⟩) s (fun t => .comp (.cache a) line.toNat ∈ t.pool.msgs ∧ (t.home line.toNat).dir = .de ∧
      (t.home line.toNat).owner = some a ∧ (t.home line.toNat).sharers = 0 ∧ (t.home line.toNat).txn = none)) ∧
  (∀ (r : Requester) (line : LineAddr) (key : KeyId) c s l, s.unitMay line.toNat key c r → s.home line.toNat = {} →
    (s.homeRead (unitAcc r key) c line.toNat).1 = some l →
    Completes (.rdSn r line key) s (fun t => .data (.other r) line.toNat l .i false ∈ t.pool.msgs ∧ (t.home line.toNat).dir = .di) ∧
    ∀ op, Completes (.atom r line key op) s (fun t => .data (.other r) line.toNat (atomApply op l).2 .i false ∈ t.pool.msgs ∧
      .comp (.other r) line.toNat ∈ t.pool.msgs ∧ (t.home line.toNat).dir = .di ∧ (t.home line.toNat).txn = none ∧
      t.pool.cells = (s.homeWrite (unitAcc r key) c line.toNat fullMask (atomApply op l).1).2.pool.cells ∧
      t.dies = (s.homeWrite (unitAcc r key) c line.toNat fullMask (atomApply op l).1).2.dies)) ∧
  (∀ (r : Requester) (line : LineAddr) (key : KeyId) m data c s, s.unitMay line.toNat key c r → s.home line.toNat = {} →
    Completes (.wrFull r line key data) s (fun t => .comp (.other r) line.toNat ∈ t.pool.msgs ∧ (t.home line.toNat).dir = .di ∧
      (t.home line.toNat).txn = none ∧ t.pool.cells = (s.homeWrite (unitAcc r key) c line.toNat fullMask (bytesAt data 0 128)).2.pool.cells ∧
      t.dies = (s.homeWrite (unitAcc r key) c line.toNat fullMask (bytesAt data 0 128)).2.dies) ∧
    Completes (.wrPart r line key m data) s (fun t => .comp (.other r) line.toNat ∈ t.pool.msgs ∧ (t.home line.toNat).dir = .di ∧
      (t.home line.toNat).txn = none ∧ t.pool.cells = (s.homeWrite (unitAcc r key) c line.toNat m.toNat (bytesAt data 0 128)).2.pool.cells ∧
      t.dies = (s.homeWrite (unitAcc r key) c line.toNat m.toNat (bytesAt data 0 128)).2.dies)) ∧
  (∀ (r : Requester) (line : LineAddr) (key : KeyId) c s, s.power.state ≠ .idle → s.place (128 * line.toNat) = .mem c →
    s.holds (s.partyHolder (.other r)) key = true → sliceLimit ≤ s.sliceLoad line.toNat → (s.home line.toNat).placed = false →
    Completes (.rdSn r line key) s (fun t => t = { s with
      pool := { s.pool with heldBack := s.pool.heldBack ++ [(line.toNat, txnOf .rdSn (.other r) key)] } })) ∧
  (∀ a o (line : LineAddr) (key : KeyId) x s c, s.coreMiss a line.toNat (s.pageKey x.hart key) x → s.lineCtrl line.toNat = some c →
    s.homeOpen line.toNat → a ≠ o → s.home line.toNat = { dir := .de, owner := some o, key := s.pageKey x.hart key } →
    Completes (.rdS a line ⟨key, x⟩) s (fun t => t.pool.msgs = s.pool.msgs ++ [.snoop .sh o line.toNat (some (.cache a))] ∧
      (t.home line.toNat).waiting = agentMask [o] ∧ t.pool.agents = s.pool.agents ∧ t.dies = s.dies) ∧
    Completes (.rdU a line ⟨key, x⟩) s (fun t => t.pool.msgs = s.pool.msgs ++ [.snoop .un o line.toNat (some (.cache a))] ∧
      (t.home line.toNat).waiting = agentMask [o])) ∧
  (∀ a (line : LineAddr) f r s, s.pool.msgs = .snoop .sh a line.toNat f :: r → s.grantDue a line.toNat = false →
    (s.agentLine a line.toNat).st = .m →
    ((s.agentLine a line.toNat).hold = true → Completes (.snpS a line) s (fun t => t.pool.msgs = r ∧
      t.agentLine a line.toNat = { s.agentLine a line.toNat with snoops := (s.agentLine a line.toNat).snoops ++ [(.sh, f)] })) ∧
    (∀ p, f = some p → (s.agentLine a line.toNat).hold = false → Completes (.snpS a line) s (fun t =>
      t.pool.msgs = r ++ [.data p line.toNat (s.agentLine a line.toNat).data .s false, .ack a line.toNat true true] ∧
      t.agentLine a line.toNat = { s.agentLine a line.toNat with st := .o } ∧ t.pool.cells = s.pool.cells))) ∧
  (∀ a (line : LineAddr) r s, s.pool.msgs = .snoop .un a line.toNat none :: r → s.grantDue a line.toNat = false →
    (s.agentLine a line.toNat).st = .m → (s.agentLine a line.toNat).hold = false → Completes (.snpU a line) s (fun t =>
      t.pool.msgs = r ++ [.ackD a line.toNat (s.agentLine a line.toNat).data] ∧ t.agentLine a line.toNat = {})) ∧
  (∀ a (line : LineAddr) f r s, s.pool.msgs = .snoop .inv a line.toNat f :: r → s.grantDue a line.toNat = false →
    (s.agentLine a line.toNat).st = .s → (s.agentLine a line.toNat).hold = false → Completes (.snpInv a line) s (fun t =>
      t.pool.msgs = r ++ [.ack a line.toNat false false] ∧ t.agentLine a line.toNat = {})) ∧
  (∀ a (line : LineAddr) p r s, s.pool.msgs = .snoop .rd a line.toNat (some p) :: r → s.grantDue a line.toNat = false →
    (s.agentLine a line.toNat).st = .o → (s.agentLine a line.toNat).hold = false → Completes (.snpRd a line) s (fun t =>
      t.pool.msgs = r ++ [.data p line.toNat (s.agentLine a line.toNat).data .i false, .ack a line.toNat true true] ∧
      t.pool.agents = s.pool.agents)) ∧
  (∀ a (line : LineAddr) s, (s.agentLine a line.toNat).hold = true → (s.agentLine a line.toNat).snoops = [] →
    Completes (.holdExpiry a line) s (fun t => t.agentLine a line.toNat = { s.agentLine a line.toNat with hold := false } ∧ t.pool.msgs = s.pool.msgs)) ∧
  (∀ a (line : LineAddr) b st r s, s.pool.msgs = .data (.cache a) line.toNat b st false :: r →
    ((∀ m ∈ s.pool.misses, m.cache ≠ a ∨ m.line ≠ line.toNat) → Completes (.data (.cache a) line) s (fun t =>
      t.agentLine a line.toNat = ⟨st, (s.home line.toNat).key, b, decide (st = .e) || decide (st = .m), []⟩ ∧ t.pool.msgs = r ∧
      t.pool.homes = s.pool.homes)) ∧
    ∀ x q, s.pool.misses = ⟨a, line.toNat, x⟩ :: q → x.kind = .load → Completes (.data (.cache a) line) s (fun t =>
      t.agentLine a line.toNat = ⟨st, (s.home line.toNat).key, b, decide (st = .e) || decide (st = .m), []⟩ ∧ t.pool.msgs = r ∧
      t.pool.misses = q ∧ t.host.reply = .bytes (bytesAt b x.offset.toNat (2 ^ x.size.toNat)))) ∧
  (∀ a (line : LineAddr) b st r s x q, s.pool.msgs = .data (.cache a) line.toNat b st true :: r → s.pool.misses = ⟨a, line.toNat, x⟩ :: q →
    (∀ b < 8, (Map.get {} (s.hart x.hart).wc b).valid = false) → Completes (.data (.cache a) line) s (fun t => t.pool.msgs = r ∧ t.pool.misses = q ∧
      t.pool.agents = s.pool.agents ∧ (t.hart x.hart).cause = some (accessCause x.kind) ∧ t.host.reply = .fault (accessCause x.kind))) ∧
  (∀ q (line : LineAddr) b st r s, s.pool.msgs = .data (.other q) line.toNat b st false :: r →
    Completes (.data (.other q) line) s (fun t => t.host.reply = .bytes b ∧ t.pool.msgs = r ∧ t.pool.agents = s.pool.agents)) ∧
  (∀ a (line : LineAddr) r s, s.pool.msgs = .comp (.cache a) line.toNat :: r → (s.agentLine a line.toNat).st ≠ .i →
    (∀ m ∈ s.pool.misses, m.cache ≠ a ∨ m.line ≠ line.toNat) → Completes (.comp (.cache a) line) s (fun t =>
      t.agentLine a line.toNat = { s.agentLine a line.toNat with st := .m, hold := true } ∧ t.pool.msgs = r)) ∧
  (∀ q (line : LineAddr) r s, s.pool.msgs = .comp (.other q) line.toNat :: r →
    Completes (.comp (.other q) line) s (fun t => t = { s with pool := { s.pool with msgs := r } }.reply .done)) ∧
  (∀ a b (line : LineAddr) d r s x h, s.lineCtrl line.toNat = some x → s.homeOpen line.toNat → s.pool.msgs = .ack a line.toNat true d :: r →
    s.home line.toNat = h → h.txn = some ⟨.rdS, .cache b, h.key, [], 0, ⟨0, false, 0, 0, 0⟩⟩ → h.waiting = agentMask [a] → h.queue = [] →
    Completes (.ack a line) s (fun t =>
      t.pool.msgs = r ∧ (t.home line.toNat).txn = none ∧ (t.home line.toNat).dir = (if d then .dOwn else .ds) ∧
      (t.home line.toNat).sharers.getLsbD b.val = true)) ∧
  (∀ a (q : Requester) (line : LineAddr) data r s x h m w, s.lineCtrl line.toNat = some x → s.homeOpen line.toNat →
    s.pool.msgs = .ackD a line.toNat data :: r →
    s.home line.toNat = h → h.txn = some ⟨.wrPart, .other q, h.key, w, m, ⟨0, false, 0, 0, 0⟩⟩ → h.waiting = agentMask [a] → h.owner = some a →
    h.placed = false → h.queue = [] → Completes (.ackD a line data) s (fun t => .comp (.other q) line.toNat ∈ t.pool.msgs ∧
      (t.home line.toNat).txn = none ∧ (t.home line.toNat).dir = .di)) ∧
  (∀ a (line : LineAddr) r s, s.pool.msgs = .ndwb a line.toNat :: r → (s.home line.toNat).waiting.getLsbD a.val = true →
    (s.home line.toNat).wbHeld = none → s.wbDue a line.toNat = true → Completes (.ndwb a line) s (fun t => t.pool.msgs = r ∧
      t.home line.toNat = { s.home line.toNat with ndwb := some a } ∧ t.pool.agents = s.pool.agents)) ∧
  (∀ a (line : LineAddr) (key : KeyId) data x s l, s.lineCtrl line.toNat = some x → s.agentLine a line.toNat = l → l.key = key.val → l.snoops = [] →
    l.st = .m ∨ l.st = .o ∨ l.st = .e → s.wbDue a line.toNat = false → Completes (.wb a line key data) s (fun t =>
      t.pool.msgs = s.pool.msgs ++ [.wb a line.toNat key.val (bytesAt data 0 128)] ∧ t.pool.cells = s.pool.cells ∧ t.pool.homes = s.pool.homes ∧
      t.agentLine a line.toNat = { l with st := .wbp, data := bytesAt data 0 128, hold := false, snoops := [] })) ∧
  (∀ a (line : LineAddr) (key : KeyId) data x s k b r, s.lineCtrl line.toNat = some x → s.homeOpen line.toNat →
    s.pool.msgs = .wb a line.toNat k b :: r →
    ((s.home line.toNat).waiting.getLsbD a.val = false → Completes (.wb a line key data) s (fun t => .wbAck a line.toNat ∈ t.pool.msgs ∧
      t.pool.cells = (s.homeWrite ⟨cacheAgent a, 2, .anyone, k, false⟩ x line.toNat fullMask b).2.pool.cells ∧
      (t.home line.toNat).owner ≠ some a ∧ (t.home line.toNat).sharers.getLsbD a.val = false)) ∧
    ((s.home line.toNat).waiting.getLsbD a.val = true → (s.home line.toNat).ndwb ≠ some a → Completes (.wb a line key data) s (fun t =>
      t.home line.toNat = { s.home line.toNat with wbHeld := some (a, b) } ∧ t.pool.msgs = r ∧ t.pool.cells = s.pool.cells))) ∧
  (∀ a (line : LineAddr) (key : KeyId) s l, s.homeOpen line.toNat → s.agentLine a line.toNat = l → l.key = key.val → l.snoops = [] →
    l.st = .s ∨ l.st = .e → (s.home line.toNat).waiting.getLsbD a.val = false → Completes (.evc a line key) s (fun t =>
      t.agentLine a line.toNat = {} ∧ (t.home line.toNat).owner ≠ some a ∧ (t.home line.toNat).sharers.getLsbD a.val = false ∧
      t.pool.cells = s.pool.cells)) ∧
  ∀ a (line : LineAddr) r s, (s.agentLine a line.toNat).st = .wbp →
    (s.pool.msgs = .wbAck a line.toNat :: r → Completes (.wbAck a line) s (fun t => t.agentLine a line.toNat = {} ∧ t.pool.msgs = r)) ∧
    (s.pool.msgs = .wbConsumed a line.toNat :: r → Completes (.wbConsumed a line) s (fun t => t.agentLine a line.toNat = {} ∧ t.pool.msgs = r))

/-- R207, R220 to R222, R228 to R230, R232, R233, R235, R237, R238: prefetches enter the side buffer, saturation is recorded, a flush empties the die
cache; a read returns the line or, for a window, a completer abort, and fences what the code cannot correct; the rake walks the lines; a soft repair
reads its row and completes. Model's choices: notes/assumptions/8, 21, 24, 28, 59, 100. -/
def Obligations.CachesAndTiersServeLines : Prop :=
  (∀ (line : LineAddr) (key : KeyId) (src : PrefetchSource) s c, s.lineCtrl line.toNat = some c → c < 12 → s.isFenced c line.toNat = false →
    (src = .detector → (s.die (c / 3)).dc.pfDetect = true) →
    (s.die (c / 3)).dc.satMask.getLsbD (dcSlice line.toNat) = false → (s.die (c / 3)).dc.find line.toNat = none →
    (∀ e ∈ s.sideOf (c / 3) line.toNat, e.line ≠ line.toNat) → (s.sideOf (c / 3) line.toNat).length < 64 →
    Completes (.dcPrefetch line ⟨key, src⟩) s (fun t => t.sideOf (c / 3) line.toNat = s.sideOf (c / 3) line.toNat ++
      [⟨line.toNat, key.val, s.rawLine key.val line.toNat⟩] ∧ (t.die (c / 3)).dc.lines = (s.die (c / 3)).dc.lines ∧ t.pool = s.pool)) ∧
  (∀ (line : LineAddr) (key : KeyId) (src : PrefetchSource) s c, s.lineCtrl line.toNat = some c →
    12 ≤ c ∨ s.isFenced c line.toNat = true ∨ (src = .detector ∧ (s.die (c / 3)).dc.pfDetect = false) →
    Completes (.dcPrefetch line ⟨key, src⟩) s (fun t => t = s)) ∧
  (∀ d (h : Fin 32) s, Completes (.dcSaturationPersist d h) s (fun t => (t.die d).dc.satMask = (s.die d).dc.satMask ||| BitVec.ofNat 32 (2 ^ h.val) ∧
    (t.die d).dc.satEvent = true ∧ (t.die d).dc.satSlice.toNat = h.val ∧ (t.die d).dc.lines = (s.die d).dc.lines ∧ t.pool = s.pool)) ∧
  (∀ d s, Completes (.dcFlush d) s (fun t => (t.die d).dc.lines = [] ∧ (t.die d).dc.side = [] ∧
    (s.calm → t.pool.agents = s.pool.agents ∧ t.pool.homes = s.pool.homes))) ∧
  (∀ (d : DieId) (s : State), s.calm → (∀ e ∈ (s.die d).dc.lines, e.2.dirty = false) → Completes (.dcFlush d) s (fun t => t.pool = s.pool)) ∧
  (∀ (c : CtrlId) (line : LineAddr) (g : BitVec 16) (er : List (List Byte)) s, s.place (line.toNat * 128) ≠ .mem c → Completes (.lineReadReturn c line ⟨g, er⟩) s (fun t => t = s)) ∧
  (∀ (c : CtrlId) (line : LineAddr) (g : BitVec 16) (er : List (List Byte)) s, s.place (line.toNat * 128) = .mem c → s.isFenced c line.toNat = true →
    (3 ≤ g.toNat % 16 → Completes (.lineReadReturn c line ⟨g, er⟩) s (fun t => t.host.reply = .completerAbort ∧ t.pool = s.pool)) ∧
    (g.toNat % 16 = 0 → (∀ b < 8, (Map.get {} (s.hart (g.toNat / 16)).wc b).valid = false) → Completes (.lineReadReturn c line ⟨g, er⟩) s (fun t =>
      (t.hart (g.toNat / 16)).cause = some 5 ∧ (t.hart (g.toNat / 16)).tval = 128 * line.toNat ∧ t.pool = s.pool))) ∧
  (∀ (c : CtrlId) (line : LineAddr) (g : BitVec 16) s, s.place (line.toNat * 128) = .mem c → s.isFenced c line.toNat = false →
    Completes (.lineReadReturn c line ⟨g, []⟩) s (fun t =>
      t.host.reply = .bytes (s.rawLine (Map.get {} s.pool.tags line.toNat).key line.toNat) ∧ t.pool = s.pool)) ∧
  (∀ (c : CtrlId) (line : LineAddr) (g : BitVec 16) (er : List (List Byte)) s, s.place (line.toNat * 128) = .mem c → s.isFenced c line.toNat = false → lineBad er = true →
    3 ≤ g.toNat % 16 → Completes (.lineReadReturn c line ⟨g, er⟩) s (fun t => t.host.reply = .completerAbort ∧ t.pool.cells = s.pool.cells ∧
      (t.ctrl c).uncorrectable = satAdd 32 (s.ctrl c).uncorrectable 1 ∧ t.isFenced c line.toNat = true)) ∧
  (∀ (c : CtrlId) (ch : Fin 32) n s, 3 ≤ n → ch.val < ctrlChans c → Completes (.channelParityFailure c ch n false) s (fun t =>
    (t.ctrl c).chanFenced.getLsbD ch.val = true ∧ t.pool.cells = s.pool.cells)) ∧
  (∀ (c : CtrlId) (ch : Fin 32) n r s, r = true ∨ n < 3 ∨ ctrlChans c ≤ ch.val → Completes (.channelParityFailure c ch n r) s (fun t => t = s)) ∧
  (∀ c er s, s.rakePaused c = true → Completes (.rakeRead c er) s (fun t => t = s)) ∧
  (∀ (c : CtrlId) s p, s.rakePaused c = false → (s.ctrl c).rakePos = p → p + 1 < s.ctrlLines c → s.isFenced c (ctrlBase c / 128 + p) = false →
    Completes (.rakeRead c []) s (fun t => (t.ctrl c).rakePos = p + 1 ∧ t.pool.cells = s.pool.cells) ∧
    Completes (.rakeWaitExpiry c []) s (fun t => (t.ctrl c).rakePos = p + 1 ∧ t.pool.cells = s.pool.cells)) ∧
  (∀ c er s, exec (.rakeWaitExpiry c er) s = exec (.rakeRead c er) s) ∧
  (∀ (c : CtrlId) (er : List (List (List Byte))) s r rest, (s.ctrl c).repairing = r :: rest → (∀ e ∈ er, lineBad e = false ∧ lineFixed e = 0) →
    Completes (.rowSoftRepairComplete ⟨c, er⟩) s (fun t => (t.ctrl c).repairing = rest ∧
      (t.ctrl c).softRepairs = (s.ctrl c).softRepairs ++ [r] ∧ t.pool.cells = s.pool.cells)) ∧
  (∀ (c : CtrlId) (e : List (List Byte)) s r rest l ls, (s.ctrl c).repairing = r :: rest → s.rowLines c r = l :: ls → s.isFenced c l = false → lineBad e = true →
    Completes (.rowSoftRepairComplete ⟨c, [e]⟩) s (fun t => t.isFenced c l = true ∧ (t.ctrl c).softRepairs = (s.ctrl c).softRepairs ++ [r])) ∧
  (∀ (c : CtrlId) (er : List (List (List Byte))) s, (s.ctrl c).repairing = [] → Completes (.rowSoftRepairComplete ⟨c, er⟩) s (fun t => t = s)) ∧
  (∀ (c : CtrlId) (ch : Fin 32) s, ch.val < ctrlChans c → Completes (.channelSaturationPersist c ch) s (fun t =>
    (t.ctrl c).satMask = (s.ctrl c).satMask ||| BitVec.ofNat 32 (2 ^ ch.val) ∧ (t.ctrl c).satEvent = true ∧
    (t.ctrl c).satChannel.toNat = ch.val ∧ t.pool.cells = s.pool.cells)) ∧
  ∀ (c : CtrlId) (ch : Fin 32) s, ctrlChans c ≤ ch.val → Completes (.channelSaturationPersist c ch) s (fun t => t = s)

/-! ## Links, fabric, Beacon, collectives (11 to 13) -/

/-- R252 to R259: a flit with a bad CRC is nak'd and counted on its module, the next one in sequence is delivered, its messages acting at their die or
going on, a stray one held or owed again; a sender cuts messages into flits under credit; link control trims the replay buffer and replays; lane
checks set the module's state at both ends and a bundle without a module hands over. Model's choices: notes/assumptions/1, 16, 29, 103. -/
def Obligations.BundlesReplayAndDegrade : Prop :=
  (∀ (e : LinkEnd) (m : Fin 12) f s, ((s.link e).module m).serves = true → d2dOk f = false → ((s.link e).module m).replayTimes = [] →
    Completes (.d2dFlitReceive e m f) s (fun t => (t.link e).nak = true ∧ (t.link e).rxNext = (s.link e).rxNext ∧
      (t.link e).inbox = (s.link e).inbox ∧ (t.link e).rxPart = (s.link e).rxPart ∧ ((t.link e).module m).replayTimes = [s.timeNs] ∧
      ∀ x, x ≠ e.val → t.link x = s.link x)) ∧
  (∀ (e : LinkEnd) (m : Fin 12) f s c r, ((s.link e).module m).serves = true → d2dOk f = true → c = slice (fieldAt f 0 4) 2 0 → c < 4 →
    (s.link e).held = [] → slice (fieldAt f 0 4) 14 3 = (s.link e).rxNext.toNat →
    r = takeUnits c (unitsOf 7 (bytesAt f 4 56)) (Map.get [] (s.link e).rxPart c) [] →
    Completes (.d2dFlitReceive e m f) s (fun t => ∃ u : State, t = r.1.foldl (fun s k => s.linkDeliver e k) u ∧
      u = s.modLink e (fun l => { l with
        rxNext := l.rxNext + 1, owesAck := true, rxPart := Map.put [] l.rxPart c r.2, owedCredits := Map.modify 0 l.owedCredits c (· + 1) }))) ∧
  (∀ (e : LinkEnd) (k : LinkMsg) (s : State), k.ddie ≠ endNode e →
    s.linkDeliver e k = s.linkSend (endNode e) (decide (k.chan ≤ 1) && decide (k.tag % 2 = 1)) k) ∧
  (∀ (e : LinkEnd) (k : LinkMsg) (s : State) a l fw d, k.ddie = endNode e → s.pool.msgs.find? k.carries = some (.ack a l fw d) →
    s.linkDeliver e k = ((s.modLink e (fun x => { x with inbox := x.inbox ++ [k] })).ackArrives a l)) ∧
  (∀ (e : LinkEnd) (k : LinkMsg) (s : State), k.ddie = endNode e → s.pool.msgs = [] → k.chan = 2 → k.op = 1 → k.body.headD 0 % 65536 < 96 →
    1 ≤ slice (k.body.headD 0) 31 16 → slice (k.body.headD 0) 31 16 ≤ 2047 →
    slice (k.body.headD 0) 31 16 ∈ Map.get [] (s.linkDeliver e k).host.imsicS (k.body.headD 0 % 65536)) ∧
  (∀ (s : State) node odd (k : LinkMsg) b r e, s.diePath node k.ddie odd = some (node :: b :: r) → e = endToward node b → k.chan < 4 →
    (s.link e).outq = [] → (s.link e).resend = [] → (s.link e).handover = false → (s.link e).rotation e ≠ [] →
    0 < Map.get 0 (s.link e).credits k.chan → (s.link e).replay.length < 2048 → k.body.length ≤ 6 →
    ∃ m, ((s.linkSend node odd k).link e).sent = (s.link e).sent ++
        [(m, d2dFlit k.chan (s.link e).txNext.toNat (unitBytes (k.header :: k.body)))] ∧ m ∈ (s.link e).rotation e ∧
      ((s.linkSend node odd k).link e).replay = (s.link e).replay ++
        [⟨(s.link e).txNext.toNat, m, d2dFlit k.chan (s.link e).txNext.toNat (unitBytes (k.header :: k.body))⟩] ∧
      ((s.linkSend node odd k).link e).txNext = (s.link e).txNext + 1 ∧ ((s.linkSend node odd k).link e).outq = [] ∧
      Map.get 0 ((s.linkSend node odd k).link e).credits k.chan = Map.get 0 (s.link e).credits k.chan - 1) ∧
  (∀ (e : LinkEnd) (m : Fin 12) f s, ((s.link e).module m).serves = true → d2dOk f = true → slice (fieldAt f 0 4) 2 0 < 4 →
    2048 ≤ (slice (fieldAt f 0 4) 14 3 + 4096 - (s.link e).rxNext.toNat) % 4096 →
    Completes (.d2dFlitReceive e m f) s (fun t => t = s.modLink e (fun l => { l with owesAck := true }))) ∧
  (∀ (e : LinkEnd) f s, d2dOk f = true → slice (fieldAt f 0 4) 2 0 = 7 → bit (fieldAt f 4 56) 12 = false → (s.link e).outq = [] →
    (s.link e).resend = [] → Completes (.linkControlFlit e f) s (fun t =>
      (∀ x ∈ (t.link e).replay, x ∈ (s.link e).replay ∧ x.seq ≠ slice (fieldAt f 4 56) 11 0) ∧ (t.link e).sent = (s.link e).sent ∧
      (∀ c < 4, Map.get 0 (t.link e).credits c = Map.get 0 (s.link e).credits c + slice (fieldAt f 4 56) (34 + 10 * c) (25 + 10 * c)) ∧
      (t.link e).rxNext = (s.link e).rxNext)) ∧
  (∀ (e : LinkEnd) f s, d2dOk f = true → slice (fieldAt f 0 4) 2 0 = 7 → bit (fieldAt f 4 56) 12 = true → (s.link e).handover = false →
    (s.link e).rotation e ≠ [] → Completes (.linkControlFlit e f) s (fun t => (t.link e).resend = [] ∧
      ∀ x ∈ (((s.link e).control (fieldAt f 4 56)).replay.dropWhile (fun y => decide (y.seq ≠ slice (fieldAt f 4 56) 24 13))),
        x.flit ∈ (t.link e).sent.map (·.2))) ∧
  (∀ (e : LinkEnd) f s, d2dOk f = false ∨ slice (fieldAt f 0 4) 2 0 ≠ 7 → Completes (.linkControlFlit e f) s (fun t => t = s)) ∧
  (∀ (e : LinkEnd) s, (s.link e).owesAck = true → Completes (.linkControlDue e) s (fun t => ∃ m r, t.link e = { s.link e with
    sent := (s.link e).sent ++ [(m, (s.link e).controlFlit)], rot := r, owesAck := false, nak := false, owedCredits := [] })) ∧
  (∀ (e : LinkEnd) s, (s.link e).owesAck = false → (s.link e).nak = false → (s.link e).owedCredits = [] →
    Completes (.linkControlDue e) s (fun t => t = s)) ∧
  (∀ (e : LinkEnd) (m : Fin 12) n s, m.val < endModules e → n < endModules e → n ≠ m.val → ((s.link e).module m).serves = true →
    ((s.link e).module n).serves = true → Completes (.spareMonitorError e m) s (fun t => ((t.link e).module m).checking = true ∧
      ((t.link (partnerEnd e)).module m).checking = true ∧
      (t.link e).module n = (s.link e).module n ∧ ((t.link e).module m).badTx = ((s.link e).module m).badTx)) ∧
  (∀ (e : LinkEnd) (m : Fin 12) r s, ((s.link e).module m).checking = true → ((s.link e).module m).checkTimes = [] →
    (∀ k, ((s.link e).module k).checkDue = false ∧ ((s.link (partnerEnd e)).module k).checkDue = false) → s.fabric.commonFeatures.getLsbD 0 = true →
    Completes (.laneCheckEnd e m r) s (fun t =>
      ((t.link e).module m).badTx = ((s.link e).module m).badTx ||| r.badTx ∧ ((t.link e).module m).badRx = ((s.link e).module m).badRx ||| r.badRx ∧
      ((t.link (partnerEnd e)).module m).badRx = ((s.link e).module m).badTx ||| r.badTx ∧
      ((t.link e).module m).st = (if s.fabric.commonFeatures.getLsbD 1 = false ∧
          laneState (((s.link e).module m).badTx ||| r.badTx) (((s.link e).module m).badRx ||| r.badRx)
            (r.clockOk && !((s.link e).module m).clockFail) = .half then .retired
        else laneState (((s.link e).module m).badTx ||| r.badTx) (((s.link e).module m).badRx ||| r.badRx)
          (r.clockOk && !((s.link e).module m).clockFail)) ∧
      ((t.link (partnerEnd e)).module m).st = ((t.link e).module m).st ∧
      ((t.link e).module m).retraining = decide (((t.link e).module m).st ≠ .retired) ∧ ((t.link e).module m).checking = false)) ∧
  (∀ (e : LinkEnd) (m : Fin 12) r s, ((s.link e).module m).checking = false → Completes (.laneCheckEnd e m r) s (fun t => t = s)) ∧
  (∀ (e : LinkEnd) (m : Fin 12) s, ((s.link e).module m).retraining = true →
    (∀ k, ((s.link e).module k).checkDue = false ∧ ((s.link (partnerEnd e)).module k).checkDue = false) →
    Completes (.moduleRetrainComplete e m) s (fun t => (t.link e).module m = { (s.link e).module m with retraining := false } ∧
      (t.link (partnerEnd e)).module m = { (s.link (partnerEnd e)).module m with retraining := false })) ∧
  (∀ (e : LinkEnd) (m : Fin 12) s, m.val < endModules e → ((s.link e).module m).st ≠ .retired → Completes (.forwardedClockFailure e m) s (fun t =>
    ((t.link e).module m).st = .retired ∧ ((t.link e).module m).clockFail = true ∧ ((t.link (partnerEnd e)).module m).st = .retired ∧
    ((∀ k < endModules e, k ≠ m.val → ((s.link e).module k).st = .retired) → (t.link e).handover = true))) ∧
  (∀ (e : LinkEnd) (dl : BitVec 12) s, (s.link e).handover = true → Completes (.handoverComplete e dl) s (fun t => ∃ u : State,
    u = s.modLink e (fun l => { l with
      handover := false, replay := [], resend := [], unacked := [], outq := [], held := [], rxPart := [],
      cntReroutes := BitVec.ofNat 16 (min (l.cntReroutes.toNat + 1) 65535) }) ∧
    ((s.link e).unacked = [] → (s.link e).outq = [] → t = u) ∧
    (∀ q k, (s.link e).unacked = [(q, k)] → (s.link e).outq = [] → 1 ≤ (q + 4096 - dl.toNat) % 4096 → (q + 4096 - dl.toNat) % 4096 < 2048 →
      t = u.linkSend (endNode e) (decide (k.chan ≤ 1) && decide (k.tag % 2 = 1)) k))) ∧
  ∀ (e : LinkEnd) dl s, (s.link e).handover = false → Completes (.handoverComplete e dl) s (fun t => t = s)

/-- R148, R231, R265, R266, R268 to R272, R277, R278, R286, R430 and Tables 12-4 and 12-6: training, loss of a link, flits refused, taken and sent in
the order of the classes, and what the packets of remote reads, writes and semaphore signals do here.
Model's choices: notes/assumptions/1, 16, 30, 31, 34, 105. -/
def Obligations.FabricPortsAndPacketsAct : Prop :=
  (∀ p lanes (pl : Fin 4) j6 partner s, bit (s.port p).cfg.toNat 0 = true → (s.port p).state = 1 → pl.val = p.val / 6 →
    j6 = bit (s.port p).cfg.toNat 1 → trainedWidth lanes.toNat ≠ 0 → s.fabric.isRoot = false →
    Completes (.portTraining p lanes pl j6 partner) s (fun t =>
      (t.port p).state = 2 ∧ (t.port p).width.toNat = trainedWidth lanes.toNat ∧ (t.port p).partner = partner ∧ (t.port p).rxNext = 0 ∧
      (∀ c < 4, Map.get 0 (t.port p).credits c = classBuffer c) ∧
      (t.port p).trainFail = 0 ∧ (∀ q, q ≠ p.val → t.port q = s.port q) ∧ t.lantern = s.lantern)) ∧
  (∀ p lanes (pl : Fin 4) j6 partner s, bit (s.port p).cfg.toNat 0 = true → (s.port p).state = 3 → pl.val = p.val / 6 →
    j6 = bit (s.port p).cfg.toNat 1 → trainedWidth lanes.toNat ≠ 0 → Completes (.portTraining p lanes pl j6 partner) s (fun t =>
      t.port p = { s.port p with
        state := 2, width := BitVec.ofNat 2 (trainedWidth lanes.toNat), j6 := j6, trainFail := 0, partner := partner, nak := false } ∧
      ∀ q, q ≠ p.val → t.port q = s.port q)) ∧
  (∀ p lanes (pl : Fin 4) j6 partner s, bit (s.port p).cfg.toNat 0 = true → (s.port p).state = 1 → pl.val ≠ p.val / 6 →
    (s.port p).violTimes = [] → Completes (.portTraining p lanes pl j6 partner) s (fun t => (t.port p).state = 5 ∧ (t.port p).partner = partner)) ∧
  (∀ p lanes (pl : Fin 4) j6 partner s, bit (s.port p).cfg.toNat 0 = false → Completes (.portTraining p lanes pl j6 partner) s (fun t => t = s)) ∧
  (∀ p s, (s.port p).state = 1 → (s.port p).trainFail = 0 → Completes (.portTrainingFailure p) s (fun t =>
    (t.port p).trainFail = 1 ∧ (t.port p).state = 1 ∧ (t.port p).width = 0)) ∧
  (∀ p s, (s.port p).state = 1 → (s.port p).trainFail = 2 → (s.port p).outq = [] → (s.port p).violTimes = [] → s.fabric.isRoot = false →
    Completes (.portTrainingFailure p) s (fun t => (t.port p).trainFail = 3 ∧ (t.port p).state = 4)) ∧
  (∀ p s, (s.port p).state = 2 → (s.port p).outq = [] → s.fabric.isRoot = false → Completes (.fabricPortLinkLoss p) s (fun t =>
    t.port p = { s.port p with state := 1, width := 0, partner := 0 } ∧ ∀ q, q ≠ p.val → t.port q = s.port q)) ∧
  (∀ p s, (s.port p).state = 0 → Completes (.fabricPortLinkLoss p) s (fun t => t = s) ∧ Completes (.portTrainingFailure p) s (fun t => t = s)) ∧
  (∀ p f s, (s.port p).state ≠ 2 → Completes (.fabricFlitReceive p f) s (fun t => t = s)) ∧
  (∀ p f s, (s.port p).state = 2 → f.length = 256 → crc32c (f.take 252) ≠ fb f 252 4 → Completes (.fabricFlitReceive p f) s (fun t =>
    (t.port p).nak = true ∧ (t.port p).rxNext = (s.port p).rxNext ∧ (t.port p).rx = (s.port p).rx ∧
    (t.port p).violations.toNat = min ((s.port p).violations.toNat + 1) 65535)) ∧
  (∀ p f s, (s.port p).state = 2 → f.length = 256 → crc32c (f.take 252) = fb f 252 4 → flitClean f = true → fb f 0 8 % 16 = 2 →
    slice (fb f 0 8) 17 6 = (s.port p).rxNext.toNat → bit (fb f 0 8) 30 = false → (s.port p).replayTimes = [] →
    (s.port p).unacked (fb f 0 8) ≤ 2048 →
    Completes (.fabricFlitReceive p f) s (fun t => (t.port p).rxNext = (s.port p).rxNext + 1 ∧ (t.port p).nak = false ∧
      (t.port p).owesAck = true ∧ (t.port p).rx = (s.port p).rx ∧ (t.port p).state = 2)) ∧
  (∀ (p : PortId) f s k, (s.port p).state = 2 → f.length = 256 → crc32c (f.take 252) = fb f 252 4 → flitClean f = true → fb f 0 8 % 16 = 0 →
    slice (fb f 0 8) 17 6 = (s.port p).rxNext.toNat → bit (fb f 0 8) 30 = false → (s.port p).replayTimes = [] →
    (s.port p).unacked (fb f 0 8) ≤ 2048 → Map.get 0 (s.port p).owed (slice (fb f 0 8) 5 4) < classBuffer (slice (fb f 0 8) 5 4) →
    Map.get [] (s.port p).partial_ (slice (fb f 0 8) 5 4) = [] → k = packetOf (bytesAt f 8 240) → k.len.toNat ≤ 208 →
    (∀ b ∈ (bytesAt f 8 240).drop (32 + k.len.toNat), b = 0) → packetOpOk k.op.toNat = true → packetClean k = true →
    s.packetHere (p.val / 6) k = true → s.power.state ≠ .idle → Completes (.fabricFlitReceive p f) s (fun t =>
      (t.port p).rxNext = (s.port p).rxNext + 1 ∧ (t.port p).rx = (s.port p).rx ++ [k] ∧
      Map.get 0 (t.port p).owed (slice (fb f 0 8) 5 4) = Map.get 0 (s.port p).owed (slice (fb f 0 8) 5 4) + 1)) ∧
  (∀ x : Port, x.j6 = false → (x.tc2Wait < 31 ∨ x.ready 2 = false) →
    (x.ready 0 = true → x.nextClass = some 0) ∧
    (x.ready 0 = false → x.ready 3 = true → x.tc3Gap = 0 → x.nextClass = some 3) ∧
    (x.ready 0 = false → x.ready 3 = false ∨ x.tc3Gap ≠ 0 → x.ready 1 = true → x.nextClass = some 1) ∧
    (x.ready 0 = false → x.ready 3 = false ∨ x.tc3Gap ≠ 0 → x.ready 1 = false → x.ready 2 = true → x.nextClass = some 2)) ∧
  (∀ x : Port, x.j6 = false → 31 ≤ x.tc2Wait → x.ready 2 = true → x.nextClass = some 2) ∧
  (∀ (x : Port) c k, x.resend = [] → x.nextClass = some c → c < 4 → Map.get [] x.cut c = [] → x.outq = [k] → k.tc = c → k.data.length = k.len.toNat →
    k.len.toNat ≤ 208 → x.slot.sent = x.sent ++ [x.flit 0 c x.txNext.toNat k.bytes] ∧ x.slot.outq = [] ∧ x.slot.txNext = x.txNext + 1 ∧
      x.slot.replay = x.replay ++ [(x.txNext.toNat, x.flit 0 c x.txNext.toNat k.bytes)] ∧
      Map.get 0 x.slot.credits c = Map.get 0 x.credits c - 1 ∧ crc32c ((x.flit 0 c x.txNext.toNat k.bytes).take 252) =
        fb (x.flit 0 c x.txNext.toNat k.bytes) 252 4) ∧
  (∀ d k s l u, k.op = 1 → fb k.arg 0 4 ≤ 1024 → (s.takeRx k).readMem (s.fabricAcc d k) k.local (fb k.arg 0 4) = (.ok l, u) →
    Completes (.remoteRead d k) s (fun t => t = u.answer d k 2 [] l)) ∧
  (∀ d k s e u, k.op = 1 → fb k.arg 0 4 ≤ 1024 → (s.takeRx k).readMem (s.fabricAcc d k) k.local (fb k.arg 0 4) = (.error e, u) →
    Completes (.remoteRead d k) s (fun t => t = u.negative d k (match e.1 with | .unmapped => 9 | .fenced => 0x0B | .sram => 0x0A))) ∧
  (∀ d k s u, k.op = 3 → (s.takeRx k).writeMem (s.fabricAcc d k) k.local (bytesAt k.data 0 k.len.toNat) = (none, u) →
    Completes (.remoteWrite d k) s (fun t => t = u.answer d k 4 [] [])) ∧
  (∀ d k s e u, k.op = 3 → (s.takeRx k).writeMem (s.fabricAcc d k) k.local (bytesAt k.data 0 k.len.toNat) = (some e, u) →
    Completes (.remoteWrite d k) s (fun t => t = u.negative d k (match e.1 with | .unmapped => 9 | .fenced => 0x0B | .sram => 0x0A))) ∧
  (∀ d k s (q : RemoteReq), q ∈ (s.die k.die).remote → q.tag = k.tag.toNat → q.done = false →
    (k.op = 2 → q.op = 1 → Completes (.readData d k) s (fun t => (t.die k.die).inflight = (s.die k.die).inflight ∧
      { q with data := k.data, done := true } ∈ (t.die k.die).remote ∧ t.pool = s.pool)) ∧
    (k.op = 4 → q.op = 3 → Completes (.writeAcknowledgement d k) s (fun t => { q with data := [], done := true } ∈ (t.die k.die).remote ∧
      t.pool = s.pool))) ∧
  (∀ d k s, k.op = 5 → s.pool.msgs = [] → s.pool.agents = [] → Completes (.semaphoreSignal d k) s (fun t => t.sem k.die (fb k.arg 0 2 % 4096) =
      (if fb k.arg 2 1 = 1 then BitVec.ofNat 32 (fb k.arg 4 4) else s.sem k.die (fb k.arg 0 2 % 4096) + BitVec.ofNat 32 (fb k.arg 4 4)) ∧
    (∀ n, n ≠ fb k.arg 0 2 % 4096 → t.sem k.die n = s.sem k.die n) ∧ t.pool = s.pool ∧ t.tiles = s.tiles)) ∧
  (∀ d k s, k.op = 5 → Completes (.semaphoreSignal d k) s (fun t => ∃ u : State, t = (u.answer d k 6 [] []) ∧
    u = (s.takeRx k).semUpdate k.die (fb k.arg 0 2 % 4096) (decide (fb k.arg 2 1 = 1)) (fb k.arg 4 4))) ∧
  (∀ d k s src o, k.op = 6 → (s.die k.die).signals = [(k.tag.toNat, src)] → (s.die k.die).inflight.find? (fun o => decide (o.src = src)) = some o →
    Completes (.signalAcknowledgement d k) s (fun t => ∃ u : State, t = u.finish k.die src o.raw 0 ∧ (u.die k.die).signals = [] ∧
      (u.die k.die).inflight = (s.die k.die).inflight ∧ u.pool = s.pool)) ∧
  ∀ d k s q, k.op = 0x0F → (s.die k.die).remote.find? (fun q => decide (q.tag = k.tag.toNat) && !q.done) = some q →
    Completes (.negativeResponse d k) s (fun t => (∀ o ∈ (t.die k.die).inflight, o.src = q.src → o.status ≠ 0) ∧
      { q with done := true } ∈ (t.die k.die).remote ∧ t.pool = s.pool)

/-- R271, R273, R274, R280, R281, R407: a probe is answered by the module at the end of its route and passed on before it; the root collects replies,
and CONFIG from the registered root alone takes effect; time flits slew or step the count by the delay measured both ways; without an upstream the
module holds over, then leaves the tree. Model's choices: notes/assumptions/2, 12, 32, 33, 34. -/
def Obligations.FabricIsDiscoveredAndTimed : Prop :=
  (∀ p k s, k.op = 0x20 → fb k.arg 10 1 ≤ fb k.arg 11 1 → Completes (.probe p k) s (fun t => ∃ r : Packet,
    (t.port p).outq = ((s.takeRx k).port p).outq ++ [r] ∧ r.op = 0x21 ∧ r.tag = k.tag ∧ fb r.data 32 16 = ownSerial ∧
    fb r.data 48 1 = s.pins.slotId.toNat ∧ fb r.data 49 1 = p.val / 6 ∧ fb r.data 50 1 = p.val % 6 ∧
    fb r.data 53 3 = s.portsUp (p / 6) ∧ t.fabric = s.fabric)) ∧
  (∀ p k s, k.op = 0x20 → fb k.arg 11 1 < fb k.arg 10 1 → s.fabric.node = 0 → Completes (.probe p k) s (fun t => t = s.takeRx k)) ∧
  (∀ (p : PortId) k s, k.op = 0x20 → fb k.arg 11 1 < fb k.arg 10 1 → s.fabric.node ≠ 0 → fb k.data (fb k.arg 11 1) 1 < 6 →
    Completes (.probe p k) s (fun t => ∃ r : Packet, t = (s.takeRx k).enqueue (p.val / 6 * 6 + fb k.data (fb k.arg 11 1) 1) r ∧ r.op = 0x20 ∧
      r.tag = k.tag ∧ fb r.arg 11 1 = (fb k.arg 11 1 + 1) % 256)) ∧
  (∀ p k s, k.op = 0x21 → fb k.arg 11 1 = 0 → s.fabric.probes = [] → Completes (.probeReply p k) s (fun t => t.fabric = s.fabric)) ∧
  (∀ p k s q, k.op = 0x21 → fb k.arg 11 1 = 0 → s.fabric.walking = false → s.fabric.probes = [q] → q.tag = k.tag.toNat → q.rootPort = p.val →
    k.src = 0 → Completes (.probeReply p k) s (fun t => t.fabric.probes = [] ∧ ∃ c ∈ t.fabric.cables, c.a = q.serial ∧ c.ap = q.port ∧
      c.b = fb (k.data.drop 32) 0 16)) ∧
  (∀ p k s, k.op = 0x22 → fb k.arg 10 1 ≤ fb k.arg 11 1 → s.fabric.root = 0 ∨ k.src ≠ s.fabric.root → Completes (.config p k) s (fun t =>
    t.fabric = s.fabric ∧ ∀ d, (t.die d).routes = (s.die d).routes ∧ (t.die d).routesNew = (s.die d).routesNew)) ∧
  (∀ p k s, k.op = 0x22 → fb k.arg 10 1 ≤ fb k.arg 11 1 → s.fabric.root ≠ 0 → k.src = s.fabric.root → fb k.arg 0 1 = 0 →
    Completes (.config p k) s (fun t => t.fabric.newNode = some (BitVec.ofNat 16 (fb (k.data.drop 32) 0 2)) ∧ t.fabric.node = s.fabric.node ∧
      t.fabric.newUpstream = (if fb (k.data.drop 32) 2 1 < 24 then some (fb (k.data.drop 32) 2 1) else none) ∧ t.dies = s.dies)) ∧
  (∀ p k s, k.op = 0x22 → fb k.arg 10 1 ≤ fb k.arg 11 1 → s.fabric.root ≠ 0 → k.src = s.fabric.root → fb k.arg 0 1 = 1 →
    Completes (.config p k) s (fun t => Map.get 0 (t.die (fb k.arg 1 1 % 4)).routesNew (fb k.arg 2 2) =
      BitVec.ofNat 16 (fb (k.data.drop 32) 0 2 % 512) ∧ t.fabric = s.fabric ∧ ∀ d, (t.die d).routes = (s.die d).routes)) ∧
  (∀ p k s n, k.op = 0x22 → fb k.arg 10 1 ≤ fb k.arg 11 1 → s.fabric.root ≠ 0 → k.src = s.fabric.root → fb k.arg 0 1 = 2 →
    s.fabric.newNode = some n → Completes (.config p k) s (fun t => t.fabric.node = n ∧ t.fabric.upstream = s.fabric.newUpstream ∧
      t.fabric.newNode = none ∧ ∀ d < 4, (t.die d).routesNew = [] ∧
        (t.die d).routes = (s.die d).routesNew.foldl (fun m e => Map.put 0 m e.1 e.2) (s.die d).routes)) ∧
  (∀ k s, k.op = 0x23 → s.fabric.node ≠ 0 → Completes (.managementMessage k) s (fun t =>
    t.fabric = { s.fabric with mgmt := s.fabric.mgmt ++ [k] } ∧ t.dies = s.dies)) ∧
  (∀ plan s, (∃ p < 24, s.portUp p = true) → Completes (.topologyWalk plan) s (fun t => t.fabric.isRoot = true ∧ t.fabric.walking = true ∧
    t.fabric.plan = plan ∧ t.fabric.found = [] ∧ t.fabric.probes.length = ((List.range 24).filter (fun p => s.portUp p)).length)) ∧
  (∀ p (sent heard : DWord) s delay, s.fabric.upstream = some p.val → s.portUp p = true → s.fabric.joining = true →
    delay = (((s.timeNs : Int) - sent.toNat + heard.toInt) / 2).toNat →
    Completes (.timeFlit p sent heard) s (fun t => t.timeNs = sent.toNat + delay ∧ t.fabric.joining = false ∧
      t.fabric.linkDelay = delay ∧ t.dies = s.dies)) ∧
  (∀ p (sent heard : DWord) s delay, s.fabric.upstream = some p.val → s.portUp p = true → s.fabric.joining = false →
    delay = (((s.timeNs : Int) - sent.toNat + heard.toInt) / 2).toNat →
    s.timeNs + 1 ≤ sent.toNat + delay → sent.toNat + delay ≤ s.timeNs + 1000 → Completes (.timeFlit p sent heard) s (fun t =>
      t.timeNs = s.timeNs + 1)) ∧
  (∀ p (sent heard : DWord) s, s.fabric.upstream ≠ some p.val → s.portUp p = true → Completes (.timeFlit p sent heard) s (fun t =>
    t = s.modPort p (fun x => { x with timeDiff := (s.timeNs : Int) - sent.toNat }))) ∧
  (∀ p (sent heard : DWord) s, s.portUp p = false → Completes (.timeFlit p sent heard) s (fun t => t = s)) ∧
  (∀ p s, s.portUp p = true → Completes (.timeFlitSend p) s (fun t => ∃ f, (t.port p).timeSent = (s.port p).timeSent ++ [f] ∧
    fb f 0 8 % 16 = 3 ∧ fb f 8 8 = s.timeNs % 2 ^ 64 ∧ (BitVec.ofNat 64 (fb f 16 8)) = BitVec.ofInt 64 (s.port p).timeDiff ∧
    f.length = 256 ∧ crc32c (f.take 252) = fb f 252 4 ∧ (t.port p).nak = false)) ∧
  (∀ p s, s.portUp p = false → Completes (.timeFlitSend p) s (fun t => t = s)) ∧
  (∀ p r s, s.fabric.upstream = some p → s.fabric.reserve = some r → r ≠ p → s.portUp r = true → Completes .upstreamPortDown s (fun t =>
    t.fabric.upstream = some r ∧ t.fabric.reserve = none ∧ t.timeNs = s.timeNs ∧ (t.port r).upstream = true ∧ (t.port p).upstream = false)) ∧
  (∀ p s, s.fabric.upstream = some p → s.fabric.reserve = none → Completes .upstreamPortDown s (fun t => t.fabric.upstream = none ∧
    t.fabric.holdover = true ∧ t.fabric.holdSince = some s.timeNs ∧ t.timeNs = s.timeNs)) ∧
  (∀ s, s.fabric.holdover = true → Completes .holdoverExpiry s (fun t => t.fabric.inTree = false ∧ t.fabric.unsync = true ∧
    t.fabric.holdover = false ∧ ∀ j, s.lantern.job = some j → j.state = 3 → ∃ k, t.lantern.job = some k ∧ k.state = 6)) ∧
  ∀ s, s.fabric.holdover = false → s.fabric.refHoldover = false → Completes .holdoverExpiry s (fun t => t = s)

/-- R282 to R285, R347: an ARM from the parent with a higher seq is checked and held, LIGHT is held until the start, SNUFF discards the ARM held;
the root that has every node's ACK with status 0 in time sends LIGHT, and at its deadline SNUFF.
Model's choices: notes/assumptions/12, 35, 36. -/
def Obligations.BeaconMessagesTravelTheTree : Prop :=
  (∀ m s j, s.fabric.beaconVersion = 1 → s.lantern.job = some j → j.jobId = m.jobId → j.rank ≠ 0 → m.rank = (j.rank - 1) / 4 →
    s.fabric.beacon.seq < m.seq → Completes (.beaconArm m) s (fun t => t.fabric.beacon.arm = some m ∧ t.fabric.beacon.root = false ∧
      t.fabric.beacon.light = false ∧ t.fabric.beacon.seq = m.seq ∧ t.fabric.beacon.ownStatus = (if s.armOk j m then 0 else 1) ∧
      t.fabric.beacon.sent = decide (4 * j.rank + 1 ≥ j.nranks) ∧ t.lantern = s.lantern ∧ t.dies = s.dies ∧ t.pool = s.pool)) ∧
  (∀ m s j, s.lantern.job = some j → j.jobId = m.jobId → m.seq ≤ s.fabric.beacon.seq → s.fabric.beaconVersion = 1 →
    Completes (.beaconArm m) s (fun t => t.fabric = s.fabric ∧ t.lantern = s.lantern)) ∧
  (∀ m s, s.lantern.job = none → Completes (.beaconArm m) s (fun t => t.fabric = s.fabric ∧ t.dies = s.dies)) ∧
  (∀ m s j a, s.fabric.beaconVersion = 1 → s.lantern.job = some j → j.jobId = m.jobId → s.fabric.beacon.arm = some a → a.seq = m.seq →
    s.fabric.beacon.root = true → s.fabric.beacon.ownStatus = 0 → j.rank = 0 → j.nranks = 2 → m.rank = 1 → m.armed = 1 → m.status = 0 →
    s.fabric.beacon.acks = [] → s.fabric.beacon.sent = false →
    (s.timeNs + 10000 ≤ a.start.toNat → Completes (.beaconAck m) s (fun t => t.fabric.beacon.light = true ∧ t.fabric.beacon.root = false ∧
      t.fabric.beacon.arm = some a)) ∧
    (a.start.toNat < s.timeNs + 10000 → Completes (.beaconAck m) s (fun t => t.fabric.beacon.light = s.fabric.beacon.light ∧
      t.fabric.beacon.root = true ∧ t.lantern = s.lantern))) ∧
  (∀ m s, s.fabric.beacon.arm = none → Completes (.beaconAck m) s (fun t => t.fabric = s.fabric) ∧ Completes (.light m) s (fun t => t.fabric = s.fabric)) ∧
  (∀ m s j a, s.fabric.beaconVersion = 1 → s.lantern.job = some j → j.jobId = m.jobId → s.fabric.beacon.arm = some a → a.seq = m.seq →
    (s.timeNs ≤ m.start.toNat → Completes (.light m) s (fun t => t.fabric.beacon.light = true ∧ t.fabric.beacon.arm = some a ∧
      t.lantern = s.lantern)) ∧
    (m.start.toNat < s.timeNs → Completes (.light m) s (fun t => t.fabric = s.fabric)) ∧
    Completes (.snuff m) s (fun t => t.fabric.beacon.arm = none ∧ t.fabric.beacon.light = false ∧ t.lantern.job = s.lantern.job ∧ t.dies = s.dies)) ∧
  (∀ m s, s.fabric.beacon.arm = none → Completes (.snuff m) s (fun t => t.fabric = s.fabric ∧ t.lantern = s.lantern)) ∧
  (∀ s j a r, s.lantern.job = some j → s.fabric.beacon.root = true → s.fabric.beacon.arm = some a → s.fabric.beacon.request = some r →
    s.fabric.beacon.change = false → j.resuming = false → Completes .beaconDeadline s (fun t => t.fabric.beacon.arm = none ∧
      t.fabric.beacon.root = false ∧ t.fabric.beacon.request = none ∧ t.lantern.job = some j)) ∧
  ∀ s, s.fabric.beacon.root = false → Completes .beaconDeadline s (fun t => t = s)

/-- R287, R290, R299, R301, R302, R304 to R307: data and credit of a step under way are taken in order and let the engines go on, a packet of no step is
dropped or kept; probes are answered from hardware; a step that has waited is probed, and an unanswered probe, a wrong check value, a wrong rank
table or an abort ends the collective; a step with nothing missing writes its dst and ends. Model's choices: notes/assumptions/1, 12, 37. -/
def Obligations.CollectivesCheckWaitAndAbort : Prop :=
  (∀ d e k s st have_ n l, k.op = 7 → kindOf k = 0 → (s.ce d e).steps = [st] → (s.ce d e).step (collOf k) (stepOf k) = some st →
    rankOf k < st.ranks.length → have_ = Map.get [] st.got (rankOf k) → k.addr.toNat % 2 ^ 22 = have_.length % 2 ^ 22 →
    (st.checked.contains (rankOf k) = true ∧ n = 0 ∨
      (st.checked.contains (rankOf k) = false ∧ n = 4 ∧ 4 ≤ k.len.toNat ∧ fb k.data 0 4 = checkValue st.raw st.ranks)) →
    l = (bytesAt k.data 0 k.len.toNat).drop n → st.received (rankOf k) + l.length ≤ Map.get 0 st.granted (rankOf k) →
    (s.ce d e).waitRank ≠ some (rankOf k) → Completes (.collectiveData d e k) s (fun t => ∃ u : State, t = u.collGo ∧ u.pool = s.pool ∧ u.tiles = s.tiles ∧
      u.ce d e = { s.ce d e with steps := [{ st with
        got := Map.put [] st.got (rankOf k) (have_ ++ l), checked := if n = 4 then st.checked ++ [rankOf k] else st.checked }] })) ∧
  (∀ d e k s st, k.op = 7 → (s.ce d e).step (collOf k) (stepOf k) = some st → st.checked.contains (rankOf k) = false → 4 ≤ k.len.toNat →
    fb k.data 0 4 ≠ checkValue st.raw st.ranks →
    Completes (.collectiveData d e k) s (fun t => t = (s.takeRx k).collAbort d e st 4 true 0xFFFFFFFF)) ∧
  (∀ d e k s, k.op = 7 → (s.ce d e).step (collOf k) (stepOf k) = none → (∀ p, (s.port p).violTimes = [] ∧ (s.port p).state ≠ 2) →
    Completes (.collectiveData d e k) s (fun t => t.dies = s.dies ∧ t.pool = s.pool ∧ t.lantern = s.lantern)) ∧
  (∀ d e k s st, k.op = 8 → kindOf k = 0 → (s.ce d e).steps = [st] → (s.ce d e).step (collOf k) (stepOf k) = some st →
    st.checked.contains (rankOf k) = true → (s.ce d e).waitRank ≠ some (rankOf k) → Completes (.collectiveCredit d e k) s (fun t => ∃ u : State,
      t = u.collGo ∧ u.pool = s.pool ∧ u.tiles = s.tiles ∧ u.ce d e = { s.ce d e with steps := [{ st with
        credit := Map.modify 0 st.credit (rankOf k) (· + k.addr.toNat % 2 ^ 22) }] })) ∧
  (∀ d e k s, k.op = 8 → kindOf k = 0 → s.engines = [] → (s.ce d e).steps = [] → (s.ce d e).waitRank ≠ some (rankOf k) →
    Completes (.collectiveCredit d e k) s (fun t => (t.ce d e).early = (s.ce d e).early ++ [k] ∧ (t.ce d e).steps = [] ∧ t.pool = s.pool)) ∧
  (∀ d e k s, k.op ≠ 8 → Completes (.collectiveCredit d e k) s (fun t => t.dies = s.dies ∧ t.pool = s.pool)) ∧
  (∀ d e k s, k.op = 8 → kindOf k = 1 → (s.ce d e).step (collOf k) (stepOf k) = none → Completes (.collectiveProbe d e k) s (fun t =>
    t.dies = s.dies ∧ t.pool = s.pool ∧ ∃ r : Packet, t = ((s.takeRx k).send d r).2 ∧ r.op = 8 ∧ fb r.arg 6 1 = 2 ∧ r.tag = k.tag ∧ r.dst = k.src ∧
      fb r.arg 8 4 = rankOf k ∧ r.data.length = 8 ∧ fb r.data 6 2 = 0xFFFF ∧
      (∀ st l, (s.ce d e).steps = st :: l → fb r.data 0 4 = (collFields st.raw).collId ∧ fb r.data 4 2 = (collFields st.raw).step))) ∧
  (∀ d e k s st l, k.op = 8 → kindOf k = 1 → (s.ce d e).steps = st :: l → (s.ce d e).step (collOf k) (stepOf k) = some st →
    st.greeted.contains (rankOf k) = true → k.len.toNat < 4 → Completes (.collectiveProbe d e k) s (fun t =>
    t.dies = s.dies ∧ t.pool = s.pool ∧ ∃ r : Packet, t = ((s.takeRx k).send d r).2 ∧ r.op = 8 ∧ fb r.arg 6 1 = 2 ∧ r.tag = k.tag ∧ r.dst = k.src ∧
      fb r.data 0 4 = (collFields st.raw).collId ∧ fb r.data 4 2 = (collFields st.raw).step ∧ fb r.data 6 2 = 0)) ∧
  (∀ d e k s st, k.op = 8 → kindOf k = 1 → (s.ce d e).steps = [st] → (s.ce d e).step (collOf k) (stepOf k) = some st →
    st.greeted.contains (rankOf k) = false → rankOf k < st.ranks.length → k.len.toNat < 4 → Completes (.collectiveProbe d e k) s (fun t =>
    (t.ce d e).steps = [{ st with greeted := st.greeted ++ [rankOf k] }] ∧ t.pool = s.pool ∧ ∃ r : Packet, t.ports = ((s.takeRx k).send d r).2.ports ∧
      r.op = 8 ∧ fb r.data 0 4 = checkValue st.raw st.ranks ∧ fb r.data 4 4 = (collFields st.raw).collId ∧ fb r.data 10 2 = 0)) ∧
  (∀ d e k s n, k.op = 8 → kindOf k = 2 → (s.ce d e).probing = some n →
    (∀ st, (s.ce d e).step (collOf k) (stepOf k) = some st → k.len.toNat < 12 ∨ fb k.data 0 4 = checkValue st.raw st.ranks) →
    Completes (.collectiveProbeReply d e k) s (fun t => t.ce d e = { s.ce d e with probing := none } ∧ t.pool = s.pool)) ∧
  (∀ d e k s, k.op = 8 → kindOf k = 3 → collOf k ∈ (s.ce d e).aborted → Completes (.collectiveAbort d e k) s (fun t => t.dies = s.dies ∧
    t.lantern = s.lantern)) ∧
  (∀ d e k s, k.op = 8 → kindOf k = 3 → collOf k ∉ (s.ce d e).aborted → (s.ce d e).steps = [] → Completes (.collectiveAbort d e k) s (fun t =>
    (t.ce d e).aborted = (collOf k :: (s.ce d e).aborted).take 16 ∧ (t.ce d e).abortColl = BitVec.ofNat 32 (collOf k) ∧
    (t.ce d e).abortRank = BitVec.ofNat 32 (rankOf k) ∧ (t.ce d e).cntAborts.toNat = min ((s.ce d e).cntAborts.toNat + 1) 65535 ∧
    t.pool = s.pool)) ∧
  (∀ d e (rank : Word) s st l, (s.ce d e).steps = st :: l → rank.toNat < st.ranks.length → rank.toNat ≠ (collFields st.raw).rank →
    s.isLocal (st.ranks.getD rank.toNat 0) = false → Completes (.cePeerWaitTimeout d e rank) s (fun t =>
      (t.ce d e).waitRank = some rank.toNat ∧ (t.ce d e).probing = some rank.toNat ∧
      (st.greeted.contains rank.toNat = true → (t.ce d e).steps = (s.ce d e).steps) ∧
      (t.ce d e).cntProbes.toNat = min ((s.ce d e).cntProbes.toNat + 1) 65535 ∧ t.pool = s.pool)) ∧
  (∀ d e rank s, (s.ce d e).steps = [] → Completes (.cePeerWaitTimeout d e rank) s (fun t => t = s) ∧
    Completes (.probeReplyTimeout d e rank) s (fun t => t = s) ∧ (s.engines = [] → Completes (.collectiveStepComplete d e) s (fun t => t = s))) ∧
  (∀ d e (rank : Word) s st p n j, (s.ce d e).steps = [st] → st.src = .stream p n → (s.ce d e).probing = some rank.toNat → s.lantern.job = some j →
    j.state = 3 → j.failStatus = 0 → (s.localPeers st) = [] → Completes (.probeReplyTimeout d e rank) s (fun t => ∃ k, t.lantern.job = some k ∧
      k.failStatus = 0x000E ∧ k.failPos = BitVec.ofNat 64 p ∧ ((∀ x < 4, (s.die x).issuing = false) → k.state = 6) ∧ t.pool = s.pool)) ∧
  (∀ d e s st p n j, s.engines = [(d.val, e.val)] → (s.ce d e).steps = [st] → st.src = .stream p n → st.started = false →
    (∀ o ∈ (s.die d).inflight, o.src = st.src → o.status = 0) →
    s.badTable d e (collFields st.raw) st.ranks = true → s.lantern.job = some j → j.state = 3 → j.failStatus = 0 → (s.localPeers st) = [] →
    Completes (.collectiveStepComplete d e) s (fun t => ∃ k, t.lantern.job = some k ∧ k.failStatus = 4 ∧ k.failPos = BitVec.ofNat 64 p ∧
      ((∀ x < 4, (s.die x).issuing = false) → k.state = 6))) ∧
  (∀ (d : DieId) (e : CeId) s (v : State) st r, s.collGo = v → (v.ce d e).steps = st :: r → st.started = true → st.rounds ≤ st.round → st.out = [] → st.outCeil = [] →
    v.allPassed st = true → st.writing = false →
    (st.b = none → Completes (.collectiveStepComplete d e) s (fun t => ∃ u : State, t = (u.finish d st.src st.raw 0).collGo ∧
      (u.ce d e).steps = (v.ce d e).steps.filter (fun o => decide (o.src ≠ st.src)) ∧
      (u.ce d e).cntSteps.toNat = min ((v.ce d e).cntSteps.toNat + 1) (2 ^ 32 - 1) ∧ u.pool = v.pool ∧ u.tiles = v.tiles)) ∧
    (∀ b y w, st.b = some b → b.remote = false → (collFields st.raw).op ≠ 6 → bit (collFields st.raw).fl 2 = false →
      writePieces (ceAcc (v.stepOwner d st) d e b) (codePieces b st.rep st.result none) v = (y, w) →
      Completes (.collectiveStepComplete d e) s (fun t => ∃ u : State, t = (u.finish d st.src st.raw y).collGo ∧ u.pool = w.pool ∧
        (u.ce d e).steps = (w.ce d e).steps.filter (fun o => decide (o.src ≠ st.src))))) ∧
  ∀ d e (v : Fin 4) s, Completes (.ceSaturationPersist d e v) s (fun t => (t.ce d e).sat = (s.ce d e).sat ||| BitVec.ofNat 4 (2 ^ v.val) ∧
    (t.ce d e).satEvent = true ∧ (t.ce d e).satLevel.toNat = v.val ∧ (t.ce d e).steps = (s.ce d e).steps ∧ t.pool = s.pool)

/-! ## The host die and the registers (14, and the field tables of every chapter) -/

/-- R202, R204, R318, R320, R323 to R328: MSI writes reach S-level pages only; BAR2 moves with WIN_BASE and answers a host restart with errors;
PE1 reaches memory through its ranges or its window; resets keep what they must; three missed beats or HOST_HB_CFG restart the host.
Model's choices: notes/assumptions/12, 38, 39, 40, 51. -/
def Obligations.HostWindowsAndRestarts : Prop :=
  (∀ r (a : DWord) (v : Word) h s, s.domainOn .pe1 = true → h < 96 → a.toNat = 0x0F0003000000 + h * 0x1000 → 1 ≤ v.toNat → v.toNat ≤ 2047 →
    Completes (.pe1MsiWrite r a v) s (fun t => v.toNat ∈ Map.get [] t.host.imsicS h ∧ t.host.reply = .done ∧ t.pool = s.pool)) ∧
  (∀ r (a : DWord) (v : Word) s, s.domainOn .pe1 = true → a.toNat < 0x0F0003000000 ∨ 0x0F0003060000 ≤ a.toNat → Completes (.pe1MsiWrite r a v) s (fun t =>
    t.host.imsicS = s.host.imsicS ∧ t.host.reply = .discarded ∧ t.pool = s.pool)) ∧
  (∀ o n s, s.domainOn .pe0 = true → s.host.restarting = true → Completes (.bar2Access o (.read n)) s (fun t => t = s.reply .completerAbort)) ∧
  (∀ o l s, s.domainOn .pe0 = true → s.host.restarting = true → Completes (.bar2Access o (.write l)) s (fun t =>
    t = { s with host := { s.host with bar2Discarded := s.host.bar2Discarded + 1, reply := .discarded } })) ∧
  (∀ (o : BitVec 29) l s u, s.power.state = .active → s.host.restarting = false → s.host.readAhead = [] →
    s.writeMem ⟨3, 2, .bar2, slice s.host.winBase.toNat 5 0, false⟩ (slice s.host.winBase.toNat 47 21 * 2 ^ 21 + o.toNat) l = (none, u) →
    Completes (.bar2Access o (.write l)) s (fun t => t = u.reply .done)) ∧
  (∀ (o : BitVec 29) n s, s.power.state = .active → s.host.restarting = false → s.host.readAhead = [] → 0 < n → s.holds .bar2 (slice s.host.winBase.toNat 5 0) = false →
    Completes (.bar2Access o (.read n)) s (fun t => t.host.reply = .unsupported ∧ t.pool = s.pool)) ∧
  (∀ o a s, s.power.state = .pilot → s.host.restarting = false → Completes (.bar2Access o a) s (fun t => t.pool = s.pool ∧
    t.host.reply = (match a with | .read _ => .unsupported | .write _ => .discarded))) ∧
  (∀ o a s, s.power.state = .idle → s.host.restarting = false → s.holds .bar2 (slice s.host.winBase.toNat 5 0) = true →
    Completes (.bar2Access o a) s (fun t => t.power.state = .active)) ∧
  (∀ v s, Completes (.winBaseWrite v) s (fun t => t = { s with host := { s.host with winBase := v &&& 0x0000FFFFFFE0003F, readAhead := [] } })) ∧
  (∀ r (a : DWord) n s, s.domainOn .pe1 = true → s.host.pe1Root = true → s.host.dma = [] → Completes (.pe1InboundDma r a (.read n)) s (fun t =>
    t.host.reply = .unsupported ∧ t.pool = s.pool ∧ t.tiles = s.tiles)) ∧
  (∀ r (a : DWord) l s k u, s.power.state = .active → s.host.pe1Root = true → s.dmaKey a.toNat l.length = some k →
    s.writeMem ⟨4 + 16 * r.toNat, 2, .os, k, false⟩ a.toNat l = (none, u) →
    Completes (.pe1InboundDma r a (.write l)) s (fun t => t = u.reply .done)) ∧
  (∀ r (a : DWord) v x s, s.domainOn .pe1 = false → Completes (.pe1InboundDma r a x) s (fun t => t = s) ∧
    Completes (.pe1MsiWrite r a v) s (fun t => t = s)) ∧
  (∀ s, Completes .perst0N s (fun t => t.host.winBase = 0 ∧ t.host.regwin = 0 ∧ t.host.readAhead = [] ∧ t.host.msixTable = [] ∧
    t.host.msixEnable = false ∧ t.host.pe0Link = s.host.pe0Ready ∧ t.pool = s.pool ∧ t.dies = s.dies ∧ t.lantern.job = s.lantern.job ∧
    t.sec = s.sec)) ∧
  (∀ s, s.host.pe1Root = true → Completes .perst1N s (fun t => t = s)) ∧
  (∀ s, s.host.pe1Root = false → Completes .perst1N s (fun t => t = { s with host := { s.host with pe1Win := 0 } })) ∧
  (∀ s, Completes .hostHbBeat s (fun t => t = { s with host := { s.host with missed := 0 } })) ∧
  (∀ os s, s.host.hbEnable = false ∨ s.lantern.handover = true ∨ (s.power.state ≠ .active ∧ s.power.state ≠ .idle) → Completes (.heartbeatPeriodExpiry os) s (fun t => t = s)) ∧
  (∀ os s, s.host.hbEnable = true → s.lantern.handover = false → s.power.state = .active → s.host.missed.toNat < 2 →
    Completes (.heartbeatPeriodExpiry os) s (fun t => t.host.missed.toNat = s.host.missed.toNat + 1 ∧ t.pool = s.pool ∧ t.dies = s.dies ∧
      t.host.wired = (if s.host.missed = 1 then s.host.wired ||| BitVec.ofNat 64 (2 ^ 13) else s.host.wired))) ∧
  (∀ os s, s.host.hbEnable = true → s.lantern.handover = false → s.power.state = .active → s.host.missed.toNat = 2 →
    exec (.heartbeatPeriodExpiry os) s = exec (.hostHbRestart os) { s with host := { s.host with missed := 3 } }) ∧
  (∀ os s, s.power.state ≠ .active → s.power.state ≠ .idle → Completes (.hostHbRestart os) s (fun t => t = s)) ∧
  ∀ s, s.power.state = .active → Completes (.hostHbRestart none) s (fun t => t.power.state = .pilot ∧ t.host.restarting = true ∧
    t.host.missed = 0 ∧ t.sec.level = 0 ∧
    t.power.pilot = (if 2 ≤ (s.host.restarts.filter (fun x => decide (s.timeNs < x + 600000000000))).length then 2 else 0x0902) ∧
    t.host.restarts = s.host.restarts.filter (fun x => decide (s.timeNs < x + 600000000000)) ++ [s.timeNs])

/-- R10, R25, R320, R321 and the field tables: a read-to-clear register answers its count and is 0 afterwards; a write reaches the register at its
address, with the masks and locks of its fields, and an address without one is logged and faults or is discarded.
Model's choices: notes/assumptions/15, 65, 66, 67, 89. -/
def Obligations.RegistersReadAndWrite : Prop :=
  (∀ d q s, s.domainOn .noc = true → Completes (.wqEarlyCnt d q) s (fun t => t.host.reply = .bytes (leBytes 4 (s.wq d q).earlyCnt.toNat) ∧
    t.wq d q = { s.wq d q with earlyCnt := 0 } ∧ ∀ p, p ≠ q.val → t.wq d p = s.wq d p)) ∧
  (∀ d (c : Fin 4) s, s.domainOn .noc = true → Completes (.dcHit d c false) s (fun t => t.host.reply = .bytes (leBytes 8 (Map.get 0 (s.die d).dc.hits c).toNat) ∧
      Map.get 0 (t.die d).dc.hits c = 0 ∧ (t.die d).dc.misses = (s.die d).dc.misses ∧ (t.die d).dc.lines = (s.die d).dc.lines) ∧
    Completes (.dcHit d c true) s (fun t => t.host.reply = .bytes (leBytes 8 (Map.get 0 (s.die d).dc.misses c).toNat) ∧
      Map.get 0 (t.die d).dc.misses c = 0 ∧ (t.die d).dc.hits = (s.die d).dc.hits)) ∧
  (∀ d s, s.domainOn .noc = true → Completes (.dcPfCnt d) s (fun t => t.host.reply = .bytes (leBytes 8 ((s.die d).dc.pfUsed.toNat + 2 ^ 32 * (s.die d).dc.pfDropped.toNat)) ∧
    (t.die d).dc = { (s.die d).dc with pfUsed := 0, pfDropped := 0 })) ∧
  (∀ (c : CtrlId) s, s.domainOn (if c.val < 12 then .noc else .unc) = true → Completes (.mcEccCnt c) s (fun t => t.host.reply = .bytes (leBytes 8 ((s.ctrl c).corrected + 2 ^ 32 * (s.ctrl c).uncorrectable)) ∧
    t.ctrl c = { s.ctrl c with corrected := 0, uncorrectable := 0 } ∧ t.pool.cells = s.pool.cells)) ∧
  (∀ (e : LinkEnd) s, s.domainOn (if e.val < 12 then .noc else .unc) = true → Completes (.d2dBcnt e) s (fun t => t.host.reply = .bytes (leBytes 8 ((s.link e).cntReplayed.toNat + 2 ^ 32 * (s.link e).cntChecks.toNat +
    2 ^ 48 * (s.link e).cntReroutes.toNat)) ∧ t.link e = { s.link e with cntReplayed := 0, cntChecks := 0, cntReroutes := 0 })) ∧
  (∀ p s, s.domainOn .noc = true → Completes (.fabPcnt p) s (fun t => t.host.reply = .bytes (leBytes 8 ((s.port p).replays.toNat + 2 ^ 32 * (s.port p).retrains.toNat +
    2 ^ 48 * (s.port p).violations.toNat)) ∧ t.port p = { s.port p with replays := 0, retrains := 0, violations := 0 })) ∧
  (∀ d e s, s.domainOn .noc = true → Completes (.ceCnt d e) s (fun t => t.host.reply = .bytes (leBytes 8 ((s.ce d e).cntSteps.toNat + 2 ^ 32 * (s.ce d e).cntAborts.toNat +
    2 ^ 48 * (s.ce d e).cntProbes.toNat)) ∧ t.ce d e = { s.ce d e with cntSteps := 0, cntAborts := 0, cntProbes := 0 })) ∧
  (∀ eh s, s.domainOn .lnt = true → Completes (.mbxEvtLost eh) s (fun t => t.host.reply = .bytes (leBytes 4 (s.box (b2n eh)).evtLost.toNat) ∧
      t.box (b2n eh) = { s.box (b2n eh) with evtLost := 0 }) ∧
    Completes (.mbxMalformed eh) s (fun t => t.host.reply = .bytes (leBytes 4 (s.box (b2n eh)).malformed.toNat) ∧
      t.box (b2n eh) = { s.box (b2n eh) with malformed := 0 })) ∧
  (∀ d q p e c s, s.domainOn .noc = false → Completes (.wqEarlyCnt d q) s (fun t => t = s.reply .unsupported) ∧
    Completes (.dcPfCnt d) s (fun t => t = s.reply .unsupported) ∧ Completes (.dcHit d c false) s (fun t => t = s.reply .unsupported) ∧
    Completes (.fabPcnt p) s (fun t => t = s.reply .unsupported) ∧ Completes (.ceCnt d e) s (fun t => t = s.reply .unsupported)) ∧
  (∀ w (a v : DWord) os s, s.domainOn (agentDomain w) = false → Completes (.registerWrite w a v os) s (fun t => t = s)) ∧
  (∀ h (a v : DWord) os s, s.domainOn .cpu = true → s.regFind a.toNat = none → (∀ b < 8, (Map.get {} (s.hart h).wc b).valid = false) →
    Completes (.registerWrite (.core h) a v os) s (fun t => (t.hart h).cause = some 7 ∧ t.host.reply = .fault 7 ∧ t.pool = s.pool ∧
      t.dies = s.dies)) ∧
  (∀ (a v : DWord) os s d o, s.domainOn .lnt = true → s.regFind a.toNat = some (.dc d o) → o = 8 → (s.die d).dc.locked = true →
    Completes (.registerWrite .lantern a v os) s (fun t => (t.die d).dc = (s.die d).dc)) ∧
  (∀ (a v : DWord) os s d, s.domainOn .lnt = true → s.regFind a.toNat = some (.dc d 8) → d < 4 → (s.die d).dc.locked = false →
    Completes (.registerWrite .lantern a v os) s (fun t => (t.die d).dc.waymask = v ∧ t.host.reply = .done ∧ t.pool = s.pool)) ∧
  (∀ h (a v : DWord) os s c, s.domainOn .cpu = true → s.regFind a.toNat = some (.mc c 0x200) → Completes (.registerWrite (.core h) a v os) s (fun t =>
    (t.ctrl c).rakeEnable = v.getLsbD 8 ∧ (t.ctrl c).rakePeriod = (s.ctrl c).rakePeriod ∧
    (t.ctrl c).rakeNext.toNat = (if v.toNat % 256 = 0 ∨ 168 < v.toNat % 256 then 24 else v.toNat % 256))) ∧
  (∀ h (a v : DWord) os s k, s.domainOn .cpu = true → s.regFind a.toNat = some (.intSteer k) → Completes (.registerWrite (.core h) a v os) s (fun t =>
    Map.get 0 t.host.intSteer k = BitVec.ofNat 32 (v.toNat % 2 ^ 19) ∧ t.pool = s.pool ∧ t.dies = s.dies)) ∧
  (∀ h (a v : DWord) os s r, s.domainOn .cpu = true → s.regFind a.toNat = some r → r = .secState ∨ r = .pwrStatus ∨ r = .timeNow ∨ r = .fwStatus →
    Completes (.registerWrite (.core h) a v os) s (fun t => t = s.reply .done)) ∧
  (∀ h (v : DWord) os s, s.domainOn .cpu = true → Completes (.registerWrite (.csr h) 0x7C0 v os) s (fun t =>
    t.hart h = { s.hart h with kidEn := v.getLsbD 0, uinval := v.getLsbD 1 } ∧ t.pool = s.pool)) ∧
  (∀ (v : DWord) os s, s.domainOn .pe0 = true → Completes (.registerWrite .host 0x1008 v os) s (fun t =>
    t = { s with host := { s.host with regwin := BitVec.ofNat 32 (v.toNat % 256), reply := .done } })) ∧
  (∀ o n os s, s.domainOn .pe0 = true → s.regFind (0x0F0000000000 + s.host.regwin.toNat % 256 * 2 ^ 24 + o.toNat) = none →
    Completes (.registerViewAccess o (.read n) os) s (fun t => t.host.reply = .unsupported ∧ t.pool = s.pool ∧ t.dies = s.dies)) ∧
  ∀ o n os s, s.domainOn .pe0 = true → s.regFind (0x0F0000000000 + s.host.regwin.toNat % 256 * 2 ^ 24 + o.toNat) = some .timeNow →
    Completes (.registerViewAccess o (.read n) os) s (fun t => t = s.reply (.bytes ((leBytes 8 s.timeNs).take n)))
end

