-- ==== Sys2Proof/Laws/State.lean ====
section
/-! SUPPORT. Laws of the sparse maps and of the state's accessors: a read after a write, and the fields an update leaves alone. -/
namespace Sys2Proof

/-! ## Sparse maps -/

/-- A read of the key that was written by an insertion. -/
@[simp] theorem Map.get_ins_same {α : Type} (d : α) (m : Map α) (k : Nat) (v : α) : Map.get d (Map.ins m k v) k = v := by
  induction m with
  | nil => simp [Map.ins, Map.get]
  | cons e r ih => grind [Map.ins, Map.get]

/-- A read of another key after an insertion. -/
theorem Map.get_ins_ne {α : Type} (d : α) (m : Map α) (k j : Nat) (v : α) (h : j ≠ k) :
    Map.get d (Map.ins m k v) j = Map.get d m j := by
  induction m with
  | nil => grind [Map.ins, Map.get]
  | cons e r ih => grind [Map.ins, Map.get]

/-- A removed key reads as the default. -/
@[simp] theorem Map.get_del_same {α : Type} (d : α) (m : Map α) (k : Nat) : Map.get d (Map.del m k) k = d := by
  induction m with
  | nil => simp [Map.del, Map.get]
  | cons e r ih => grind [Map.del, Map.get]

/-- A read of another key after a removal. -/
theorem Map.get_del_ne {α : Type} (d : α) (m : Map α) (k j : Nat) (h : j ≠ k) : Map.get d (Map.del m k) j = Map.get d m j := by
  induction m with
  | nil => simp [Map.del, Map.get]
  | cons e r ih => grind [Map.del, Map.get]

/-- A read after a write: the value at its key, and the old one elsewhere. -/
theorem Map.get_put {α : Type} [DecidableEq α] (d : α) (m : Map α) (k j : Nat) (v : α) :
    Map.get d (Map.put d m k v) j = if j = k then v else Map.get d m j := by
  unfold Map.put
  by_cases h : j = k
  · subst h
    split <;> simp_all
  · split
    · simp [h, Map.get_del_ne]
    · simp [h, Map.get_ins_ne]

/-- A read of the written key. -/
@[simp] theorem Map.get_put_same {α : Type} [DecidableEq α] (d : α) (m : Map α) (k : Nat) (v : α) :
    Map.get d (Map.put d m k v) k = v := by simp [Map.get_put]

/-- A read of the empty map. -/
@[simp] theorem Map.get_nil {α : Type} (d : α) (k : Nat) : Map.get d ([] : Map α) k = d := rfl

/-! ## The canonical form -/

/-- The keys of an insertion: the new one and the old ones. -/
theorem Map.mem_ins {α : Type} (m : Map α) (k : Nat) (v : α) (e : Nat × α) (h : e ∈ Map.ins m k v) : e = (k, v) ∨ e ∈ m := by
  induction m with
  | nil => simp_all [Map.ins]
  | cons x r ih => grind [Map.ins]

/-- What a removal leaves was there. -/
theorem Map.mem_del {α : Type} (m : Map α) (k : Nat) (e : Nat × α) (h : e ∈ Map.del m k) : e ∈ m := by
  induction m with
  | nil => simp_all [Map.del]
  | cons x r ih => grind [Map.del]

/-- Sorted maps by their head: every later key is above it. -/
theorem Map.sorted_cons {α : Type} (x : Nat × α) (r : Map α) :
    Map.sorted (x :: r) = true ↔ (∀ e ∈ r, x.1 < e.1) ∧ Map.sorted r = true := by
  induction r generalizing x with
  | nil => simp [Map.sorted]
  | cons y r ih =>
    obtain ⟨j, w⟩ := x
    obtain ⟨k, v⟩ := y
    have h1 := ih (k, v)
    simp only [Map.sorted, Bool.and_eq_true, decide_eq_true_eq]
    rw [h1]
    constructor
    · rintro ⟨h2, h3, h4⟩
      exact ⟨fun e he => by rcases List.mem_cons.mp he with h5 | h5 <;> grind, h3, h4⟩
    · rintro ⟨h2, h3, h4⟩
      exact ⟨h2 (k, v) (by simp), h3, h4⟩

/-- An insertion keeps the order. -/
theorem Map.sorted_ins {α : Type} (m : Map α) (k : Nat) (v : α) (h : Map.sorted m = true) : Map.sorted (Map.ins m k v) = true := by
  induction m with
  | nil => simp [Map.ins, Map.sorted]
  | cons x r ih =>
    obtain ⟨j, w⟩ := x
    rw [Map.sorted_cons] at h
    unfold Map.ins
    split
    · rw [Map.sorted_cons, Map.sorted_cons]; grind
    · split
      · rw [Map.sorted_cons]; grind
      · rw [Map.sorted_cons]
        refine ⟨fun e he => ?_, ih h.2⟩
        rcases Map.mem_ins r k v e he with h1 | h1 <;> grind

/-- A removal keeps the order. -/
theorem Map.sorted_del {α : Type} (m : Map α) (k : Nat) (h : Map.sorted m = true) : Map.sorted (Map.del m k) = true := by
  induction m with
  | nil => simp [Map.del, Map.sorted]
  | cons x r ih =>
    obtain ⟨j, w⟩ := x
    rw [Map.sorted_cons] at h
    unfold Map.del
    split
    · exact ih h.2
    · rw [Map.sorted_cons]
      exact ⟨fun e he => h.1 e (Map.mem_del r k e he), ih h.2⟩

/-- A write keeps the canonical form: keys rising, no entry equal to the default. -/
theorem Map.wf_put {α : Type} [DecidableEq α] (d : α) (m : Map α) (k : Nat) (v : α) (h : Map.wf d m = true) :
    Map.wf d (Map.put d m k v) = true := by
  simp only [Map.wf, Bool.and_eq_true, List.all_eq_true, decide_eq_true_eq] at *
  unfold Map.put
  split
  · exact ⟨Map.sorted_del m k h.1, fun e he => h.2 e (Map.mem_del m k e he)⟩
  · refine ⟨Map.sorted_ins m k v h.1, fun e he => ?_⟩
    rcases Map.mem_ins m k v e he with h1 | h1 <;> grind

end Sys2Proof

namespace Sys2Proof.Machine

/-! ## Reads after updates of one unit -/

/-- A tile die after an update of one. -/
theorem State.die_modDie (s : State) (d e : Nat) (f : Die → Die) : (s.modDie d f).die e = if e = d then f (s.die d) else s.die e := by
  simp [State.modDie, State.die, Map.get_put]

/-- The updated tile die. -/
@[simp] theorem State.die_modDie_same (s : State) (d : Nat) (f : Die → Die) : (s.modDie d f).die d = f (s.die d) := by simp [State.die_modDie]

/-- A tile after an update of one. -/
theorem State.tile_modTile (s : State) (d t e u : Nat) (f : Tile → Tile) :
    (s.modTile d t f).tile e u = if 128 * e + u = 128 * d + t then f (s.tile d t) else s.tile e u := by
  simp [State.modTile, State.tile, Map.get_put]

/-- The updated tile. -/
@[simp] theorem State.tile_modTile_same (s : State) (d t : Nat) (f : Tile → Tile) : (s.modTile d t f).tile d t = f (s.tile d t) := by
  simp [State.tile_modTile]

/-- A controller after an update of one. -/
theorem State.ctrl_modCtrl (s : State) (c e : Nat) (f : MemCtrl → MemCtrl) :
    (s.modCtrl c f).ctrl e = if e = c then f (s.ctrl c) else s.ctrl e := by
  simp [State.modCtrl, State.ctrl, Map.get_put]

/-- The updated controller. -/
@[simp] theorem State.ctrl_modCtrl_same (s : State) (c : Nat) (f : MemCtrl → MemCtrl) : (s.modCtrl c f).ctrl c = f (s.ctrl c) := by
  simp [State.ctrl_modCtrl]

/-- A bundle end after an update of one. -/
theorem State.link_modLink (s : State) (e k : Nat) (f : LinkEnd_ → LinkEnd_) :
    (s.modLink e f).link k = if k = e then f (s.link e) else s.link k := by
  simp [State.modLink, State.link, Map.get_put]

/-- The updated bundle end. -/
@[simp] theorem State.link_modLink_same (s : State) (e : Nat) (f : LinkEnd_ → LinkEnd_) : (s.modLink e f).link e = f (s.link e) := by
  simp [State.link_modLink]

/-- A port after an update of one. -/
theorem State.port_modPort (s : State) (p k : Nat) (f : Port → Port) : (s.modPort p f).port k = if k = p then f (s.port p) else s.port k := by
  simp [State.modPort, State.port, Map.get_put]

/-- The updated port. -/
@[simp] theorem State.port_modPort_same (s : State) (p : Nat) (f : Port → Port) : (s.modPort p f).port p = f (s.port p) := by
  simp [State.port_modPort]

/-- A hart after an update of one. -/
theorem State.hart_modHart (s : State) (h k : Nat) (f : Hart → Hart) : (s.modHart h f).hart k = if k = h then f (s.hart h) else s.hart k := by
  simp [State.modHart, State.hart, Map.get_put]

/-- The updated hart. -/
@[simp] theorem State.hart_modHart_same (s : State) (h : Nat) (f : Hart → Hart) : (s.modHart h f).hart h = f (s.hart h) := by
  simp [State.hart_modHart]

/-- A mailbox after an update of one. -/
theorem State.box_modBox (s : State) (b k : Nat) (f : Mailbox → Mailbox) : (s.modBox b f).box k = if k = b then f (s.box b) else s.box k := by
  simp [State.modBox, State.box, Map.get_put]

/-- The updated mailbox. -/
@[simp] theorem State.box_modBox_same (s : State) (b : Nat) (f : Mailbox → Mailbox) : (s.modBox b f).box b = f (s.box b) := by
  simp [State.box_modBox]

/-- A die's power after an update of one. -/
theorem State.diePower_modDiePower (s : State) (d k : Nat) (f : DiePower → DiePower) :
    (s.modDiePower d f).diePower k = if k = d then f (s.diePower d) else s.diePower k := by
  simp [State.modDiePower, State.diePower, Map.get_put]

/-- The updated die's power. -/
@[simp] theorem State.diePower_modDiePower_same (s : State) (d : Nat) (f : DiePower → DiePower) :
    (s.modDiePower d f).diePower d = f (s.diePower d) := by
  simp [State.diePower_modDiePower]

/-- A key ID after an update of one. -/
theorem State.keySlot_modKey (s : State) (k j : Nat) (f : KeySlot → KeySlot) :
    (s.modKey k f).keySlot j = if j = k then f (s.keySlot k) else s.keySlot j := by
  simp [State.modKey, State.keySlot, Map.get_put]

/-- The updated key ID. -/
@[simp] theorem State.keySlot_modKey_same (s : State) (k : Nat) (f : KeySlot → KeySlot) : (s.modKey k f).keySlot k = f (s.keySlot k) := by
  simp [State.keySlot_modKey]

/-- A work queue after an update of one. -/
theorem State.wq_modWq (s : State) (d q e r : Nat) (f : Wq → Wq) :
    (s.modWq d q f).wq e r = if e = d ∧ r = q then f (s.wq d q) else s.wq e r := by
  by_cases h : e = d
  · subst h; by_cases g : r = q <;> simp [State.modWq, State.wq, Map.get_put, g]
  · simp [State.modWq, State.wq, State.die_modDie, h]

/-- The updated work queue. -/
@[simp] theorem State.wq_modWq_same (s : State) (d q : Nat) (f : Wq → Wq) : (s.modWq d q f).wq d q = f (s.wq d q) := by simp [State.wq_modWq]

/-- A collective engine after an update of one. -/
theorem State.ce_modCe (s : State) (d e k r : Nat) (f : Ce → Ce) :
    (s.modCe d e f).ce k r = if k = d ∧ r = e then f (s.ce d e) else s.ce k r := by
  by_cases h : k = d
  · subst h; by_cases g : r = e <;> simp [State.modCe, State.ce, Map.get_put, g]
  · simp [State.modCe, State.ce, State.die_modDie, h]

/-- The updated collective engine. -/
@[simp] theorem State.ce_modCe_same (s : State) (d e : Nat) (f : Ce → Ce) : (s.modCe d e f).ce d e = f (s.ce d e) := by simp [State.ce_modCe]

/-! ## Fields that an update leaves alone -/

@[simp] theorem State.modDie_lnVariant (s : State) (d : Nat) (f : Die → Die) : (s.modDie d f).lnVariant = s.lnVariant := rfl
@[simp] theorem State.modDie_timeNs (s : State) (d : Nat) (f : Die → Die) : (s.modDie d f).timeNs = s.timeNs := rfl
@[simp] theorem State.modDie_pool (s : State) (d : Nat) (f : Die → Die) : (s.modDie d f).pool = s.pool := rfl
@[simp] theorem State.modDie_tiles (s : State) (d : Nat) (f : Die → Die) : (s.modDie d f).tiles = s.tiles := rfl
@[simp] theorem State.modDie_links (s : State) (d : Nat) (f : Die → Die) : (s.modDie d f).links = s.links := rfl
@[simp] theorem State.modDie_ports (s : State) (d : Nat) (f : Die → Die) : (s.modDie d f).ports = s.ports := rfl
@[simp] theorem State.modDie_fabric (s : State) (d : Nat) (f : Die → Die) : (s.modDie d f).fabric = s.fabric := rfl
@[simp] theorem State.modDie_host (s : State) (d : Nat) (f : Die → Die) : (s.modDie d f).host = s.host := rfl
@[simp] theorem State.modDie_lantern (s : State) (d : Nat) (f : Die → Die) : (s.modDie d f).lantern = s.lantern := rfl
@[simp] theorem State.modDie_power (s : State) (d : Nat) (f : Die → Die) : (s.modDie d f).power = s.power := rfl
@[simp] theorem State.modDie_sec (s : State) (d : Nat) (f : Die → Die) : (s.modDie d f).sec = s.sec := rfl
@[simp] theorem State.modDie_svc (s : State) (d : Nat) (f : Die → Die) : (s.modDie d f).svc = s.svc := rfl
@[simp] theorem State.modDie_pins (s : State) (d : Nat) (f : Die → Die) : (s.modDie d f).pins = s.pins := rfl
@[simp] theorem State.modDie_access (s : State) (d : Nat) (f : Die → Die) : (s.modDie d f).access = s.access := rfl
@[simp] theorem State.modDie_freeCount (s : State) (d : Nat) (f : Die → Die) : (s.modDie d f).freeCount = s.freeCount := rfl
@[simp] theorem State.modDie_pending (s : State) (d : Nat) (f : Die → Die) : (s.modDie d f).pending = s.pending := rfl

@[simp] theorem State.modTile_lnVariant (s : State) (d t : Nat) (f : Tile → Tile) : (s.modTile d t f).lnVariant = s.lnVariant := rfl
@[simp] theorem State.modTile_timeNs (s : State) (d t : Nat) (f : Tile → Tile) : (s.modTile d t f).timeNs = s.timeNs := rfl
@[simp] theorem State.modTile_pool (s : State) (d t : Nat) (f : Tile → Tile) : (s.modTile d t f).pool = s.pool := rfl
@[simp] theorem State.modTile_dies (s : State) (d t : Nat) (f : Tile → Tile) : (s.modTile d t f).dies = s.dies := rfl
@[simp] theorem State.modTile_links (s : State) (d t : Nat) (f : Tile → Tile) : (s.modTile d t f).links = s.links := rfl
@[simp] theorem State.modTile_ports (s : State) (d t : Nat) (f : Tile → Tile) : (s.modTile d t f).ports = s.ports := rfl
@[simp] theorem State.modTile_fabric (s : State) (d t : Nat) (f : Tile → Tile) : (s.modTile d t f).fabric = s.fabric := rfl
@[simp] theorem State.modTile_host (s : State) (d t : Nat) (f : Tile → Tile) : (s.modTile d t f).host = s.host := rfl
@[simp] theorem State.modTile_lantern (s : State) (d t : Nat) (f : Tile → Tile) : (s.modTile d t f).lantern = s.lantern := rfl
@[simp] theorem State.modTile_power (s : State) (d t : Nat) (f : Tile → Tile) : (s.modTile d t f).power = s.power := rfl
@[simp] theorem State.modTile_sec (s : State) (d t : Nat) (f : Tile → Tile) : (s.modTile d t f).sec = s.sec := rfl
@[simp] theorem State.modTile_svc (s : State) (d t : Nat) (f : Tile → Tile) : (s.modTile d t f).svc = s.svc := rfl
@[simp] theorem State.modTile_pins (s : State) (d t : Nat) (f : Tile → Tile) : (s.modTile d t f).pins = s.pins := rfl
@[simp] theorem State.modTile_access (s : State) (d t : Nat) (f : Tile → Tile) : (s.modTile d t f).access = s.access := rfl
@[simp] theorem State.modTile_freeCount (s : State) (d t : Nat) (f : Tile → Tile) : (s.modTile d t f).freeCount = s.freeCount := rfl
@[simp] theorem State.modTile_pending (s : State) (d t : Nat) (f : Tile → Tile) : (s.modTile d t f).pending = s.pending := rfl

@[simp] theorem State.modCtrl_lnVariant (s : State) (c : Nat) (f : MemCtrl → MemCtrl) : (s.modCtrl c f).lnVariant = s.lnVariant := rfl
@[simp] theorem State.modCtrl_timeNs (s : State) (c : Nat) (f : MemCtrl → MemCtrl) : (s.modCtrl c f).timeNs = s.timeNs := rfl
@[simp] theorem State.modCtrl_dies (s : State) (c : Nat) (f : MemCtrl → MemCtrl) : (s.modCtrl c f).dies = s.dies := rfl
@[simp] theorem State.modCtrl_tiles (s : State) (c : Nat) (f : MemCtrl → MemCtrl) : (s.modCtrl c f).tiles = s.tiles := rfl
@[simp] theorem State.modCtrl_links (s : State) (c : Nat) (f : MemCtrl → MemCtrl) : (s.modCtrl c f).links = s.links := rfl
@[simp] theorem State.modCtrl_ports (s : State) (c : Nat) (f : MemCtrl → MemCtrl) : (s.modCtrl c f).ports = s.ports := rfl
@[simp] theorem State.modCtrl_fabric (s : State) (c : Nat) (f : MemCtrl → MemCtrl) : (s.modCtrl c f).fabric = s.fabric := rfl
@[simp] theorem State.modCtrl_host (s : State) (c : Nat) (f : MemCtrl → MemCtrl) : (s.modCtrl c f).host = s.host := rfl
@[simp] theorem State.modCtrl_lantern (s : State) (c : Nat) (f : MemCtrl → MemCtrl) : (s.modCtrl c f).lantern = s.lantern := rfl
@[simp] theorem State.modCtrl_power (s : State) (c : Nat) (f : MemCtrl → MemCtrl) : (s.modCtrl c f).power = s.power := rfl
@[simp] theorem State.modCtrl_sec (s : State) (c : Nat) (f : MemCtrl → MemCtrl) : (s.modCtrl c f).sec = s.sec := rfl
@[simp] theorem State.modCtrl_svc (s : State) (c : Nat) (f : MemCtrl → MemCtrl) : (s.modCtrl c f).svc = s.svc := rfl
@[simp] theorem State.modCtrl_pins (s : State) (c : Nat) (f : MemCtrl → MemCtrl) : (s.modCtrl c f).pins = s.pins := rfl
@[simp] theorem State.modCtrl_access (s : State) (c : Nat) (f : MemCtrl → MemCtrl) : (s.modCtrl c f).access = s.access := rfl
@[simp] theorem State.modCtrl_freeCount (s : State) (c : Nat) (f : MemCtrl → MemCtrl) : (s.modCtrl c f).freeCount = s.freeCount := rfl
@[simp] theorem State.modCtrl_pending (s : State) (c : Nat) (f : MemCtrl → MemCtrl) : (s.modCtrl c f).pending = s.pending := rfl

@[simp] theorem State.modLink_lnVariant (s : State) (e : Nat) (f : LinkEnd_ → LinkEnd_) : (s.modLink e f).lnVariant = s.lnVariant := rfl
@[simp] theorem State.modLink_timeNs (s : State) (e : Nat) (f : LinkEnd_ → LinkEnd_) : (s.modLink e f).timeNs = s.timeNs := rfl
@[simp] theorem State.modLink_pool (s : State) (e : Nat) (f : LinkEnd_ → LinkEnd_) : (s.modLink e f).pool = s.pool := rfl
@[simp] theorem State.modLink_dies (s : State) (e : Nat) (f : LinkEnd_ → LinkEnd_) : (s.modLink e f).dies = s.dies := rfl
@[simp] theorem State.modLink_tiles (s : State) (e : Nat) (f : LinkEnd_ → LinkEnd_) : (s.modLink e f).tiles = s.tiles := rfl
@[simp] theorem State.modLink_ports (s : State) (e : Nat) (f : LinkEnd_ → LinkEnd_) : (s.modLink e f).ports = s.ports := rfl
@[simp] theorem State.modLink_fabric (s : State) (e : Nat) (f : LinkEnd_ → LinkEnd_) : (s.modLink e f).fabric = s.fabric := rfl
@[simp] theorem State.modLink_host (s : State) (e : Nat) (f : LinkEnd_ → LinkEnd_) : (s.modLink e f).host = s.host := rfl
@[simp] theorem State.modLink_lantern (s : State) (e : Nat) (f : LinkEnd_ → LinkEnd_) : (s.modLink e f).lantern = s.lantern := rfl
@[simp] theorem State.modLink_power (s : State) (e : Nat) (f : LinkEnd_ → LinkEnd_) : (s.modLink e f).power = s.power := rfl
@[simp] theorem State.modLink_sec (s : State) (e : Nat) (f : LinkEnd_ → LinkEnd_) : (s.modLink e f).sec = s.sec := rfl
@[simp] theorem State.modLink_svc (s : State) (e : Nat) (f : LinkEnd_ → LinkEnd_) : (s.modLink e f).svc = s.svc := rfl
@[simp] theorem State.modLink_pins (s : State) (e : Nat) (f : LinkEnd_ → LinkEnd_) : (s.modLink e f).pins = s.pins := rfl
@[simp] theorem State.modLink_access (s : State) (e : Nat) (f : LinkEnd_ → LinkEnd_) : (s.modLink e f).access = s.access := rfl
@[simp] theorem State.modLink_freeCount (s : State) (e : Nat) (f : LinkEnd_ → LinkEnd_) : (s.modLink e f).freeCount = s.freeCount := rfl
@[simp] theorem State.modLink_pending (s : State) (e : Nat) (f : LinkEnd_ → LinkEnd_) : (s.modLink e f).pending = s.pending := rfl

@[simp] theorem State.modPort_lnVariant (s : State) (p : Nat) (f : Port → Port) : (s.modPort p f).lnVariant = s.lnVariant := rfl
@[simp] theorem State.modPort_timeNs (s : State) (p : Nat) (f : Port → Port) : (s.modPort p f).timeNs = s.timeNs := rfl
@[simp] theorem State.modPort_pool (s : State) (p : Nat) (f : Port → Port) : (s.modPort p f).pool = s.pool := rfl
@[simp] theorem State.modPort_dies (s : State) (p : Nat) (f : Port → Port) : (s.modPort p f).dies = s.dies := rfl
@[simp] theorem State.modPort_tiles (s : State) (p : Nat) (f : Port → Port) : (s.modPort p f).tiles = s.tiles := rfl
@[simp] theorem State.modPort_links (s : State) (p : Nat) (f : Port → Port) : (s.modPort p f).links = s.links := rfl
@[simp] theorem State.modPort_fabric (s : State) (p : Nat) (f : Port → Port) : (s.modPort p f).fabric = s.fabric := rfl
@[simp] theorem State.modPort_host (s : State) (p : Nat) (f : Port → Port) : (s.modPort p f).host = s.host := rfl
@[simp] theorem State.modPort_lantern (s : State) (p : Nat) (f : Port → Port) : (s.modPort p f).lantern = s.lantern := rfl
@[simp] theorem State.modPort_power (s : State) (p : Nat) (f : Port → Port) : (s.modPort p f).power = s.power := rfl
@[simp] theorem State.modPort_sec (s : State) (p : Nat) (f : Port → Port) : (s.modPort p f).sec = s.sec := rfl
@[simp] theorem State.modPort_svc (s : State) (p : Nat) (f : Port → Port) : (s.modPort p f).svc = s.svc := rfl
@[simp] theorem State.modPort_pins (s : State) (p : Nat) (f : Port → Port) : (s.modPort p f).pins = s.pins := rfl
@[simp] theorem State.modPort_access (s : State) (p : Nat) (f : Port → Port) : (s.modPort p f).access = s.access := rfl
@[simp] theorem State.modPort_freeCount (s : State) (p : Nat) (f : Port → Port) : (s.modPort p f).freeCount = s.freeCount := rfl
@[simp] theorem State.modPort_pending (s : State) (p : Nat) (f : Port → Port) : (s.modPort p f).pending = s.pending := rfl

@[simp] theorem State.modHart_lnVariant (s : State) (h : Nat) (f : Hart → Hart) : (s.modHart h f).lnVariant = s.lnVariant := rfl
@[simp] theorem State.modHart_timeNs (s : State) (h : Nat) (f : Hart → Hart) : (s.modHart h f).timeNs = s.timeNs := rfl
@[simp] theorem State.modHart_pool (s : State) (h : Nat) (f : Hart → Hart) : (s.modHart h f).pool = s.pool := rfl
@[simp] theorem State.modHart_dies (s : State) (h : Nat) (f : Hart → Hart) : (s.modHart h f).dies = s.dies := rfl
@[simp] theorem State.modHart_tiles (s : State) (h : Nat) (f : Hart → Hart) : (s.modHart h f).tiles = s.tiles := rfl
@[simp] theorem State.modHart_links (s : State) (h : Nat) (f : Hart → Hart) : (s.modHart h f).links = s.links := rfl
@[simp] theorem State.modHart_ports (s : State) (h : Nat) (f : Hart → Hart) : (s.modHart h f).ports = s.ports := rfl
@[simp] theorem State.modHart_fabric (s : State) (h : Nat) (f : Hart → Hart) : (s.modHart h f).fabric = s.fabric := rfl
@[simp] theorem State.modHart_lantern (s : State) (h : Nat) (f : Hart → Hart) : (s.modHart h f).lantern = s.lantern := rfl
@[simp] theorem State.modHart_power (s : State) (h : Nat) (f : Hart → Hart) : (s.modHart h f).power = s.power := rfl
@[simp] theorem State.modHart_sec (s : State) (h : Nat) (f : Hart → Hart) : (s.modHart h f).sec = s.sec := rfl
@[simp] theorem State.modHart_svc (s : State) (h : Nat) (f : Hart → Hart) : (s.modHart h f).svc = s.svc := rfl
@[simp] theorem State.modHart_pins (s : State) (h : Nat) (f : Hart → Hart) : (s.modHart h f).pins = s.pins := rfl
@[simp] theorem State.modHart_access (s : State) (h : Nat) (f : Hart → Hart) : (s.modHart h f).access = s.access := rfl
@[simp] theorem State.modHart_freeCount (s : State) (h : Nat) (f : Hart → Hart) : (s.modHart h f).freeCount = s.freeCount := rfl
@[simp] theorem State.modHart_pending (s : State) (h : Nat) (f : Hart → Hart) : (s.modHart h f).pending = s.pending := rfl

@[simp] theorem State.modBox_lnVariant (s : State) (b : Nat) (f : Mailbox → Mailbox) : (s.modBox b f).lnVariant = s.lnVariant := rfl
@[simp] theorem State.modBox_timeNs (s : State) (b : Nat) (f : Mailbox → Mailbox) : (s.modBox b f).timeNs = s.timeNs := rfl
@[simp] theorem State.modBox_pool (s : State) (b : Nat) (f : Mailbox → Mailbox) : (s.modBox b f).pool = s.pool := rfl
@[simp] theorem State.modBox_dies (s : State) (b : Nat) (f : Mailbox → Mailbox) : (s.modBox b f).dies = s.dies := rfl
@[simp] theorem State.modBox_tiles (s : State) (b : Nat) (f : Mailbox → Mailbox) : (s.modBox b f).tiles = s.tiles := rfl
@[simp] theorem State.modBox_links (s : State) (b : Nat) (f : Mailbox → Mailbox) : (s.modBox b f).links = s.links := rfl
@[simp] theorem State.modBox_ports (s : State) (b : Nat) (f : Mailbox → Mailbox) : (s.modBox b f).ports = s.ports := rfl
@[simp] theorem State.modBox_fabric (s : State) (b : Nat) (f : Mailbox → Mailbox) : (s.modBox b f).fabric = s.fabric := rfl
@[simp] theorem State.modBox_host (s : State) (b : Nat) (f : Mailbox → Mailbox) : (s.modBox b f).host = s.host := rfl
@[simp] theorem State.modBox_power (s : State) (b : Nat) (f : Mailbox → Mailbox) : (s.modBox b f).power = s.power := rfl
@[simp] theorem State.modBox_sec (s : State) (b : Nat) (f : Mailbox → Mailbox) : (s.modBox b f).sec = s.sec := rfl
@[simp] theorem State.modBox_svc (s : State) (b : Nat) (f : Mailbox → Mailbox) : (s.modBox b f).svc = s.svc := rfl
@[simp] theorem State.modBox_pins (s : State) (b : Nat) (f : Mailbox → Mailbox) : (s.modBox b f).pins = s.pins := rfl
@[simp] theorem State.modBox_access (s : State) (b : Nat) (f : Mailbox → Mailbox) : (s.modBox b f).access = s.access := rfl
@[simp] theorem State.modBox_freeCount (s : State) (b : Nat) (f : Mailbox → Mailbox) : (s.modBox b f).freeCount = s.freeCount := rfl
@[simp] theorem State.modBox_pending (s : State) (b : Nat) (f : Mailbox → Mailbox) : (s.modBox b f).pending = s.pending := rfl

@[simp] theorem State.modDiePower_lnVariant (s : State) (d : Nat) (f : DiePower → DiePower) : (s.modDiePower d f).lnVariant = s.lnVariant := rfl
@[simp] theorem State.modDiePower_timeNs (s : State) (d : Nat) (f : DiePower → DiePower) : (s.modDiePower d f).timeNs = s.timeNs := rfl
@[simp] theorem State.modDiePower_pool (s : State) (d : Nat) (f : DiePower → DiePower) : (s.modDiePower d f).pool = s.pool := rfl
@[simp] theorem State.modDiePower_dies (s : State) (d : Nat) (f : DiePower → DiePower) : (s.modDiePower d f).dies = s.dies := rfl
@[simp] theorem State.modDiePower_tiles (s : State) (d : Nat) (f : DiePower → DiePower) : (s.modDiePower d f).tiles = s.tiles := rfl
@[simp] theorem State.modDiePower_links (s : State) (d : Nat) (f : DiePower → DiePower) : (s.modDiePower d f).links = s.links := rfl
@[simp] theorem State.modDiePower_ports (s : State) (d : Nat) (f : DiePower → DiePower) : (s.modDiePower d f).ports = s.ports := rfl
@[simp] theorem State.modDiePower_fabric (s : State) (d : Nat) (f : DiePower → DiePower) : (s.modDiePower d f).fabric = s.fabric := rfl
@[simp] theorem State.modDiePower_host (s : State) (d : Nat) (f : DiePower → DiePower) : (s.modDiePower d f).host = s.host := rfl
@[simp] theorem State.modDiePower_lantern (s : State) (d : Nat) (f : DiePower → DiePower) : (s.modDiePower d f).lantern = s.lantern := rfl
@[simp] theorem State.modDiePower_sec (s : State) (d : Nat) (f : DiePower → DiePower) : (s.modDiePower d f).sec = s.sec := rfl
@[simp] theorem State.modDiePower_svc (s : State) (d : Nat) (f : DiePower → DiePower) : (s.modDiePower d f).svc = s.svc := rfl
@[simp] theorem State.modDiePower_pins (s : State) (d : Nat) (f : DiePower → DiePower) : (s.modDiePower d f).pins = s.pins := rfl
@[simp] theorem State.modDiePower_access (s : State) (d : Nat) (f : DiePower → DiePower) : (s.modDiePower d f).access = s.access := rfl
@[simp] theorem State.modDiePower_freeCount (s : State) (d : Nat) (f : DiePower → DiePower) : (s.modDiePower d f).freeCount = s.freeCount := rfl
@[simp] theorem State.modDiePower_pending (s : State) (d : Nat) (f : DiePower → DiePower) : (s.modDiePower d f).pending = s.pending := rfl

@[simp] theorem State.modKey_lnVariant (s : State) (k : Nat) (f : KeySlot → KeySlot) : (s.modKey k f).lnVariant = s.lnVariant := rfl
@[simp] theorem State.modKey_timeNs (s : State) (k : Nat) (f : KeySlot → KeySlot) : (s.modKey k f).timeNs = s.timeNs := rfl
@[simp] theorem State.modKey_pool (s : State) (k : Nat) (f : KeySlot → KeySlot) : (s.modKey k f).pool = s.pool := rfl
@[simp] theorem State.modKey_dies (s : State) (k : Nat) (f : KeySlot → KeySlot) : (s.modKey k f).dies = s.dies := rfl
@[simp] theorem State.modKey_tiles (s : State) (k : Nat) (f : KeySlot → KeySlot) : (s.modKey k f).tiles = s.tiles := rfl
@[simp] theorem State.modKey_links (s : State) (k : Nat) (f : KeySlot → KeySlot) : (s.modKey k f).links = s.links := rfl
@[simp] theorem State.modKey_ports (s : State) (k : Nat) (f : KeySlot → KeySlot) : (s.modKey k f).ports = s.ports := rfl
@[simp] theorem State.modKey_fabric (s : State) (k : Nat) (f : KeySlot → KeySlot) : (s.modKey k f).fabric = s.fabric := rfl
@[simp] theorem State.modKey_host (s : State) (k : Nat) (f : KeySlot → KeySlot) : (s.modKey k f).host = s.host := rfl
@[simp] theorem State.modKey_lantern (s : State) (k : Nat) (f : KeySlot → KeySlot) : (s.modKey k f).lantern = s.lantern := rfl
@[simp] theorem State.modKey_power (s : State) (k : Nat) (f : KeySlot → KeySlot) : (s.modKey k f).power = s.power := rfl
@[simp] theorem State.modKey_svc (s : State) (k : Nat) (f : KeySlot → KeySlot) : (s.modKey k f).svc = s.svc := rfl
@[simp] theorem State.modKey_pins (s : State) (k : Nat) (f : KeySlot → KeySlot) : (s.modKey k f).pins = s.pins := rfl
@[simp] theorem State.modKey_access (s : State) (k : Nat) (f : KeySlot → KeySlot) : (s.modKey k f).access = s.access := rfl
@[simp] theorem State.modKey_freeCount (s : State) (k : Nat) (f : KeySlot → KeySlot) : (s.modKey k f).freeCount = s.freeCount := rfl
@[simp] theorem State.modKey_pending (s : State) (k : Nat) (f : KeySlot → KeySlot) : (s.modKey k f).pending = s.pending := rfl

@[simp] theorem State.modWq_lnVariant (s : State) (d q : Nat) (f : Wq → Wq) : (s.modWq d q f).lnVariant = s.lnVariant := rfl
@[simp] theorem State.modWq_timeNs (s : State) (d q : Nat) (f : Wq → Wq) : (s.modWq d q f).timeNs = s.timeNs := rfl
@[simp] theorem State.modWq_pool (s : State) (d q : Nat) (f : Wq → Wq) : (s.modWq d q f).pool = s.pool := rfl
@[simp] theorem State.modWq_tiles (s : State) (d q : Nat) (f : Wq → Wq) : (s.modWq d q f).tiles = s.tiles := rfl
@[simp] theorem State.modWq_links (s : State) (d q : Nat) (f : Wq → Wq) : (s.modWq d q f).links = s.links := rfl
@[simp] theorem State.modWq_ports (s : State) (d q : Nat) (f : Wq → Wq) : (s.modWq d q f).ports = s.ports := rfl
@[simp] theorem State.modWq_fabric (s : State) (d q : Nat) (f : Wq → Wq) : (s.modWq d q f).fabric = s.fabric := rfl
@[simp] theorem State.modWq_host (s : State) (d q : Nat) (f : Wq → Wq) : (s.modWq d q f).host = s.host := rfl
@[simp] theorem State.modWq_lantern (s : State) (d q : Nat) (f : Wq → Wq) : (s.modWq d q f).lantern = s.lantern := rfl
@[simp] theorem State.modWq_power (s : State) (d q : Nat) (f : Wq → Wq) : (s.modWq d q f).power = s.power := rfl
@[simp] theorem State.modWq_sec (s : State) (d q : Nat) (f : Wq → Wq) : (s.modWq d q f).sec = s.sec := rfl
@[simp] theorem State.modWq_svc (s : State) (d q : Nat) (f : Wq → Wq) : (s.modWq d q f).svc = s.svc := rfl
@[simp] theorem State.modWq_pins (s : State) (d q : Nat) (f : Wq → Wq) : (s.modWq d q f).pins = s.pins := rfl
@[simp] theorem State.modWq_access (s : State) (d q : Nat) (f : Wq → Wq) : (s.modWq d q f).access = s.access := rfl
@[simp] theorem State.modWq_freeCount (s : State) (d q : Nat) (f : Wq → Wq) : (s.modWq d q f).freeCount = s.freeCount := rfl
@[simp] theorem State.modWq_pending (s : State) (d q : Nat) (f : Wq → Wq) : (s.modWq d q f).pending = s.pending := rfl

@[simp] theorem State.modCe_lnVariant (s : State) (d e : Nat) (f : Ce → Ce) : (s.modCe d e f).lnVariant = s.lnVariant := rfl
@[simp] theorem State.modCe_timeNs (s : State) (d e : Nat) (f : Ce → Ce) : (s.modCe d e f).timeNs = s.timeNs := rfl
@[simp] theorem State.modCe_pool (s : State) (d e : Nat) (f : Ce → Ce) : (s.modCe d e f).pool = s.pool := rfl
@[simp] theorem State.modCe_tiles (s : State) (d e : Nat) (f : Ce → Ce) : (s.modCe d e f).tiles = s.tiles := rfl
@[simp] theorem State.modCe_links (s : State) (d e : Nat) (f : Ce → Ce) : (s.modCe d e f).links = s.links := rfl
@[simp] theorem State.modCe_ports (s : State) (d e : Nat) (f : Ce → Ce) : (s.modCe d e f).ports = s.ports := rfl
@[simp] theorem State.modCe_fabric (s : State) (d e : Nat) (f : Ce → Ce) : (s.modCe d e f).fabric = s.fabric := rfl
@[simp] theorem State.modCe_host (s : State) (d e : Nat) (f : Ce → Ce) : (s.modCe d e f).host = s.host := rfl
@[simp] theorem State.modCe_lantern (s : State) (d e : Nat) (f : Ce → Ce) : (s.modCe d e f).lantern = s.lantern := rfl
@[simp] theorem State.modCe_power (s : State) (d e : Nat) (f : Ce → Ce) : (s.modCe d e f).power = s.power := rfl
@[simp] theorem State.modCe_sec (s : State) (d e : Nat) (f : Ce → Ce) : (s.modCe d e f).sec = s.sec := rfl
@[simp] theorem State.modCe_svc (s : State) (d e : Nat) (f : Ce → Ce) : (s.modCe d e f).svc = s.svc := rfl
@[simp] theorem State.modCe_pins (s : State) (d e : Nat) (f : Ce → Ce) : (s.modCe d e f).pins = s.pins := rfl
@[simp] theorem State.modCe_access (s : State) (d e : Nat) (f : Ce → Ce) : (s.modCe d e f).access = s.access := rfl
@[simp] theorem State.modCe_freeCount (s : State) (d e : Nat) (f : Ce → Ce) : (s.modCe d e f).freeCount = s.freeCount := rfl
@[simp] theorem State.modCe_pending (s : State) (d e : Nat) (f : Ce → Ce) : (s.modCe d e f).pending = s.pending := rfl

@[simp] theorem State.modJob_lnVariant (s : State) (f : Job → Job) : (s.modJob f).lnVariant = s.lnVariant := rfl
@[simp] theorem State.modJob_timeNs (s : State) (f : Job → Job) : (s.modJob f).timeNs = s.timeNs := rfl
@[simp] theorem State.modJob_pool (s : State) (f : Job → Job) : (s.modJob f).pool = s.pool := rfl
@[simp] theorem State.modJob_dies (s : State) (f : Job → Job) : (s.modJob f).dies = s.dies := rfl
@[simp] theorem State.modJob_tiles (s : State) (f : Job → Job) : (s.modJob f).tiles = s.tiles := rfl
@[simp] theorem State.modJob_links (s : State) (f : Job → Job) : (s.modJob f).links = s.links := rfl
@[simp] theorem State.modJob_ports (s : State) (f : Job → Job) : (s.modJob f).ports = s.ports := rfl
@[simp] theorem State.modJob_fabric (s : State) (f : Job → Job) : (s.modJob f).fabric = s.fabric := rfl
@[simp] theorem State.modJob_host (s : State) (f : Job → Job) : (s.modJob f).host = s.host := rfl
@[simp] theorem State.modJob_power (s : State) (f : Job → Job) : (s.modJob f).power = s.power := rfl
@[simp] theorem State.modJob_sec (s : State) (f : Job → Job) : (s.modJob f).sec = s.sec := rfl
@[simp] theorem State.modJob_svc (s : State) (f : Job → Job) : (s.modJob f).svc = s.svc := rfl
@[simp] theorem State.modJob_pins (s : State) (f : Job → Job) : (s.modJob f).pins = s.pins := rfl
@[simp] theorem State.modJob_access (s : State) (f : Job → Job) : (s.modJob f).access = s.access := rfl
@[simp] theorem State.modJob_freeCount (s : State) (f : Job → Job) : (s.modJob f).freeCount = s.freeCount := rfl
@[simp] theorem State.modJob_pending (s : State) (f : Job → Job) : (s.modJob f).pending = s.pending := rfl

@[simp] theorem State.reply_lnVariant (s : State) (r : Reply) : (s.reply r).lnVariant = s.lnVariant := rfl
@[simp] theorem State.reply_timeNs (s : State) (r : Reply) : (s.reply r).timeNs = s.timeNs := rfl
@[simp] theorem State.reply_pool (s : State) (r : Reply) : (s.reply r).pool = s.pool := rfl
@[simp] theorem State.reply_dies (s : State) (r : Reply) : (s.reply r).dies = s.dies := rfl
@[simp] theorem State.reply_tiles (s : State) (r : Reply) : (s.reply r).tiles = s.tiles := rfl
@[simp] theorem State.reply_links (s : State) (r : Reply) : (s.reply r).links = s.links := rfl
@[simp] theorem State.reply_ports (s : State) (r : Reply) : (s.reply r).ports = s.ports := rfl
@[simp] theorem State.reply_fabric (s : State) (r : Reply) : (s.reply r).fabric = s.fabric := rfl
@[simp] theorem State.reply_lantern (s : State) (r : Reply) : (s.reply r).lantern = s.lantern := rfl
@[simp] theorem State.reply_power (s : State) (r : Reply) : (s.reply r).power = s.power := rfl
@[simp] theorem State.reply_sec (s : State) (r : Reply) : (s.reply r).sec = s.sec := rfl
@[simp] theorem State.reply_svc (s : State) (r : Reply) : (s.reply r).svc = s.svc := rfl
@[simp] theorem State.reply_pins (s : State) (r : Reply) : (s.reply r).pins = s.pins := rfl
@[simp] theorem State.reply_access (s : State) (r : Reply) : (s.reply r).access = s.access := rfl
@[simp] theorem State.reply_freeCount (s : State) (r : Reply) : (s.reply r).freeCount = s.freeCount := rfl
@[simp] theorem State.reply_pending (s : State) (r : Reply) : (s.reply r).pending = s.pending := rfl

/-! ## Interrupts change the host die's part alone -/

/-- t is s but for the host die's part. -/
def HostOnly (s t : State) : Prop := t = { s with host := t.host }

theorem HostOnly.eq {s t : State} (h : HostOnly s t) : t = { s with host := t.host } := h

theorem HostOnly.refl (s : State) : HostOnly s s := rfl

theorem HostOnly.trans {s t u : State} (h : HostOnly s t) (k : HostOnly t u) : HostOnly s u := by
  unfold HostOnly at *; rw [k, h]

theorem State.imsicPend_host (s : State) (h i : Nat) : HostOnly s (s.imsicPend h i) := by
  unfold State.imsicPend; dsimp only; split <;> rfl

theorem State.imsicPendM_host (s : State) (h i : Nat) : HostOnly s (s.imsicPendM h i) := by
  unfold State.imsicPendM; dsimp only; split <;> rfl

theorem State.aplicMsi_host (s : State) (c : Bool) (n : Nat) : HostOnly s (s.aplicMsi c n) := by
  unfold State.aplicMsi; dsimp only
  repeat' split
  · rfl
  · exact s.imsicPend_host _ _
  · exact s.imsicPendM_host _ _

theorem State.aplicSend_host (s : State) (c : Bool) (n : Nat) : HostOnly s (s.aplicSend c n) := by
  unfold State.aplicSend; dsimp only; split
  · exact HostOnly.trans (t := s.modAplic c _) rfl (State.aplicMsi_host _ _ _)
  · rfl

theorem State.aplicPend_host (s : State) (c : Bool) (n : Nat) : HostOnly s (s.aplicPend c n) := by
  unfold State.aplicPend; split
  · rfl
  · exact HostOnly.trans (t := s.modAplic c _) rfl (State.aplicSend_host _ _ _)

theorem State.raiseWired_host (s : State) (n : Nat) : HostOnly s (s.raiseWired n) := by
  unfold State.raiseWired; dsimp only; split
  · exact HostOnly.trans (t := { s with host := { s.host with wired := s.host.wired ||| BitVec.ofNat 64 (2 ^ n) } }) rfl
      (State.aplicPend_host _ _ _)
  · rfl

@[simp] theorem State.raiseWired_lnVariant (s : State) (n : Nat) : (s.raiseWired n).lnVariant = s.lnVariant := by rw [(s.raiseWired_host n).eq]
@[simp] theorem State.raiseWired_timeNs (s : State) (n : Nat) : (s.raiseWired n).timeNs = s.timeNs := by rw [(s.raiseWired_host n).eq]
@[simp] theorem State.raiseWired_pool (s : State) (n : Nat) : (s.raiseWired n).pool = s.pool := by rw [(s.raiseWired_host n).eq]
@[simp] theorem State.raiseWired_dies (s : State) (n : Nat) : (s.raiseWired n).dies = s.dies := by rw [(s.raiseWired_host n).eq]
@[simp] theorem State.raiseWired_tiles (s : State) (n : Nat) : (s.raiseWired n).tiles = s.tiles := by rw [(s.raiseWired_host n).eq]
@[simp] theorem State.raiseWired_links (s : State) (n : Nat) : (s.raiseWired n).links = s.links := by rw [(s.raiseWired_host n).eq]
@[simp] theorem State.raiseWired_ports (s : State) (n : Nat) : (s.raiseWired n).ports = s.ports := by rw [(s.raiseWired_host n).eq]
@[simp] theorem State.raiseWired_fabric (s : State) (n : Nat) : (s.raiseWired n).fabric = s.fabric := by rw [(s.raiseWired_host n).eq]
@[simp] theorem State.raiseWired_lantern (s : State) (n : Nat) : (s.raiseWired n).lantern = s.lantern := by rw [(s.raiseWired_host n).eq]
@[simp] theorem State.raiseWired_power (s : State) (n : Nat) : (s.raiseWired n).power = s.power := by rw [(s.raiseWired_host n).eq]
@[simp] theorem State.raiseWired_sec (s : State) (n : Nat) : (s.raiseWired n).sec = s.sec := by rw [(s.raiseWired_host n).eq]
@[simp] theorem State.raiseWired_svc (s : State) (n : Nat) : (s.raiseWired n).svc = s.svc := by rw [(s.raiseWired_host n).eq]
@[simp] theorem State.raiseWired_pins (s : State) (n : Nat) : (s.raiseWired n).pins = s.pins := by rw [(s.raiseWired_host n).eq]
@[simp] theorem State.raiseWired_access (s : State) (n : Nat) : (s.raiseWired n).access = s.access := by rw [(s.raiseWired_host n).eq]
@[simp] theorem State.raiseWired_freeCount (s : State) (n : Nat) : (s.raiseWired n).freeCount = s.freeCount := by rw [(s.raiseWired_host n).eq]
@[simp] theorem State.raiseWired_pending (s : State) (n : Nat) : (s.raiseWired n).pending = s.pending := by rw [(s.raiseWired_host n).eq]

@[simp] theorem State.imsicPend_lnVariant (s : State) (h i : Nat) : (s.imsicPend h i).lnVariant = s.lnVariant := by rw [(s.imsicPend_host h i).eq]
@[simp] theorem State.imsicPend_timeNs (s : State) (h i : Nat) : (s.imsicPend h i).timeNs = s.timeNs := by rw [(s.imsicPend_host h i).eq]
@[simp] theorem State.imsicPend_pool (s : State) (h i : Nat) : (s.imsicPend h i).pool = s.pool := by rw [(s.imsicPend_host h i).eq]
@[simp] theorem State.imsicPend_dies (s : State) (h i : Nat) : (s.imsicPend h i).dies = s.dies := by rw [(s.imsicPend_host h i).eq]
@[simp] theorem State.imsicPend_tiles (s : State) (h i : Nat) : (s.imsicPend h i).tiles = s.tiles := by rw [(s.imsicPend_host h i).eq]
@[simp] theorem State.imsicPend_links (s : State) (h i : Nat) : (s.imsicPend h i).links = s.links := by rw [(s.imsicPend_host h i).eq]
@[simp] theorem State.imsicPend_ports (s : State) (h i : Nat) : (s.imsicPend h i).ports = s.ports := by rw [(s.imsicPend_host h i).eq]
@[simp] theorem State.imsicPend_fabric (s : State) (h i : Nat) : (s.imsicPend h i).fabric = s.fabric := by rw [(s.imsicPend_host h i).eq]
@[simp] theorem State.imsicPend_lantern (s : State) (h i : Nat) : (s.imsicPend h i).lantern = s.lantern := by rw [(s.imsicPend_host h i).eq]
@[simp] theorem State.imsicPend_power (s : State) (h i : Nat) : (s.imsicPend h i).power = s.power := by rw [(s.imsicPend_host h i).eq]
@[simp] theorem State.imsicPend_sec (s : State) (h i : Nat) : (s.imsicPend h i).sec = s.sec := by rw [(s.imsicPend_host h i).eq]
@[simp] theorem State.imsicPend_svc (s : State) (h i : Nat) : (s.imsicPend h i).svc = s.svc := by rw [(s.imsicPend_host h i).eq]
@[simp] theorem State.imsicPend_pins (s : State) (h i : Nat) : (s.imsicPend h i).pins = s.pins := by rw [(s.imsicPend_host h i).eq]
@[simp] theorem State.imsicPend_access (s : State) (h i : Nat) : (s.imsicPend h i).access = s.access := by rw [(s.imsicPend_host h i).eq]
@[simp] theorem State.imsicPend_freeCount (s : State) (h i : Nat) : (s.imsicPend h i).freeCount = s.freeCount := by rw [(s.imsicPend_host h i).eq]
@[simp] theorem State.imsicPend_pending (s : State) (h i : Nat) : (s.imsicPend h i).pending = s.pending := by rw [(s.imsicPend_host h i).eq]

end Sys2Proof.Machine
end

