-- ==== Sys2Proof/Laws/Ops.lean ====
section
/-! SUPPORT. What the shared operations of Machine/Ops.lean can do: each notifies and changes nothing else. -/
namespace Sys2Proof.Machine

/-- Nothing is a notification. -/
theorem Notified.refl (s : State) : Notified s s := ⟨_, _, _, _, _, _, _, _, _, _, rfl⟩

/-- Notifications one after another. -/
theorem Notified.trans {s t u : State} (h : Notified s t) (g : Notified t u) : Notified s u := by
  obtain ⟨_, _, _, _, _, _, _, _, _, _, rfl⟩ := h
  obtain ⟨_, _, _, _, _, _, _, _, _, _, rfl⟩ := g
  exact ⟨_, _, _, _, _, _, _, _, _, _, rfl⟩

/-- An identity pending in an interrupt file. -/
theorem State.imsicPend_notified (s : State) (h i : Nat) : Notified s (s.imsicPend h i) := by
  unfold State.imsicPend
  dsimp only
  split
  · exact .refl s
  · exact ⟨_, _, _, _, _, _, _, _, _, _, rfl⟩

/-- An M-level identity pending. -/
theorem State.imsicPendM_notified (s : State) (h i : Nat) : Notified s (s.imsicPendM h i) := by
  unfold State.imsicPendM
  dsimp only
  split
  · exact .refl s
  · exact ⟨_, _, _, _, _, _, _, _, _, _, rfl⟩

/-- An MSI of the APLIC. -/
theorem State.aplicMsi_notified (s : State) (c : Bool) (n : Nat) : Notified s (s.aplicMsi c n) := by
  unfold State.aplicMsi
  dsimp only
  repeat' split
  · exact .refl s
  · exact s.imsicPend_notified _ _
  · exact s.imsicPendM_notified _ _

/-- A change of one domain of the APLIC. -/
theorem State.modAplic_notified (s : State) (c : Bool) (f : Aplic → Aplic) : Notified s (s.modAplic c f) := by
  cases c <;> exact ⟨_, _, _, _, _, _, _, _, _, _, rfl⟩

/-- A source of the APLIC sent. -/
theorem State.aplicSend_notified (s : State) (c : Bool) (n : Nat) : Notified s (s.aplicSend c n) := by
  unfold State.aplicSend
  dsimp only
  split
  · exact (s.modAplic_notified _ _).trans (State.aplicMsi_notified _ _ _)
  · exact .refl s

/-- A source of the APLIC pending. -/
theorem State.aplicPend_notified (s : State) (c : Bool) (n : Nat) : Notified s (s.aplicPend c n) := by
  unfold State.aplicPend
  split
  · exact .refl s
  · exact (s.modAplic_notified _ _).trans (State.aplicSend_notified _ _ _)

/-- A wired source. -/
theorem State.raiseWired_notified (s : State) (n : Nat) : Notified s (s.raiseWired n) := by
  have h : Notified s { s with host := { s.host with wired := s.host.wired ||| BitVec.ofNat 64 (2 ^ n) } } :=
    ⟨_, _, _, _, _, _, _, _, _, _, rfl⟩
  unfold State.raiseWired
  dsimp only
  split
  · exact h.trans (State.aplicPend_notified _ _ _)
  · exact h

/-- A change of a mailbox. -/
theorem State.modBox_notified (s : State) (b : Nat) (f : Mailbox → Mailbox) : Notified s (s.modBox b f) := ⟨_, _, _, _, _, _, _, _, _, _, rfl⟩

/-- A log entry. -/
theorem State.logAdd_notified (s : State) (l : Nat) (e x : List Byte) : Notified s (s.logAdd l e x) := ⟨_, _, _, _, _, _, _, _, _, _, rfl⟩

/-- A note in a log. -/
theorem State.logNote_notified (s : State) (l : Nat) (e : List Byte) : Notified s (s.logNote l e) := ⟨_, _, _, _, _, _, _, _, _, _, rfl⟩

/-- A PE0 vector. -/
theorem State.sendMsix_notified (s : State) (v : Nat) : Notified s (s.sendMsix v) := by
  unfold State.sendMsix
  dsimp only
  split
  · split
    · exact ⟨_, _, _, _, _, _, _, _, _, _, rfl⟩
    · split
      · exact .refl s
      · exact s.imsicPend_notified _ _
  · split
    · exact .refl s
    · split <;> exact ⟨_, _, _, _, _, _, _, _, _, _, rfl⟩

/-- A record for a register mailbox. -/
theorem State.ringAppend_notified (s : State) (b code : Nat) (r : Nat → List Byte) : Notified s (s.ringAppend b code r) := by
  unfold State.ringAppend
  dsimp only
  split
  · exact .refl s
  · split
    · exact s.modBox_notified _ _
    · split
      · exact (s.modBox_notified _ _).trans (State.raiseWired_notified _ _)
      · split
        · exact (s.modBox_notified _ _).trans (State.sendMsix_notified _ _)
        · exact s.modBox_notified _ _

/-- An event. -/
theorem State.event_notified (s : State) (code src : Nat) (args : List Byte) : Notified s (s.event code src args) := by
  unfold State.event
  extract_lets sev rec_ v s1 s2 s3 s4 msg
  have h1 : Notified s s1 := ⟨_, _, _, _, _, _, _, _, _, _, rfl⟩
  have h2 : Notified s1 s2 := by
    simp only [s2]
    split
    · exact State.logAdd_notified _ _ _ _
    · exact .refl _
  have h3 : Notified s2 s3 := by
    simp only [s3]
    split
    · exact .refl _
    · exact State.ringAppend_notified _ _ _ _
  exact (((h1.trans h2).trans h3).trans (State.ringAppend_notified _ _ _ _)).trans (State.modBox_notified _ _ _)

/-- An event of a tile die. -/
theorem State.dieEvent_notified (s : State) (d unit code : Nat) (args : List Byte) : Notified s (s.dieEvent d unit code args) :=
  (s.event_notified _ _ _).trans (State.raiseWired_notified _ _)

/-- An event of the HD. -/
theorem State.hdEvent_notified (s : State) (code : Nat) (args : List Byte) : Notified s (s.hdEvent code args) := s.event_notified _ _ _

/-- An entry of the access log. -/
theorem State.logAccess_notified (s : State) (kind addr agent : Nat) : Notified s (s.logAccess kind addr agent) := by
  unfold State.logAccess
  dsimp only
  split
  · exact .trans ⟨_, _, _, _, _, _, _, _, _, _, rfl⟩ (State.logNote_notified _ _ _)
  · exact ⟨_, _, _, _, _, _, _, _, _, _, rfl⟩

/-- A lost store. -/
theorem State.storeLost_notified (s : State) (addr agent : Nat) : Notified s (s.storeLost addr agent) :=
  (s.logAccess_notified _ _ _).trans (State.hdEvent_notified _ _ _)

/-- Continuation entries. -/
theorem State.logLines_notified (n : Nat) (s : State) (l : List Nat) : Notified s (State.logLines n s l) := by
  induction n generalizing s l with
  | zero => exact .refl s
  | succ n ih =>
    unfold State.logLines
    split
    · exact .refl s
    · exact (s.logAdd_notified _ _ _).trans (ih _ _)

/-- A reset-log entry. -/
theorem State.logReset_notified (s : State) (cause : Nat) (l : List Nat) : Notified s (s.logReset cause l) :=
  (s.logAdd_notified _ _ _).trans (State.logLines_notified _ _ _)

/-- A response's notification. -/
theorem State.rspNotify_notified (s : State) (b : Nat) : Notified s (s.rspNotify b) := by
  unfold State.rspNotify
  dsimp only
  split
  · exact s.raiseWired_notified _
  · split
    · exact s.sendMsix_notified _
    · exact .refl s

/-- A response placed in its path. -/
theorem State.post_notified (s : State) (x : Response) (h : Bool) : Notified s (s.post x h) := by
  unfold State.post
  dsimp only
  repeat' split
  · exact s.modBox_notified _ _
  · exact s.modBox_notified _ _
  · exact s.modBox_notified _ _
  · exact s.modBox_notified _ _
  · exact (s.modBox_notified _ _).trans (State.rspNotify_notified _ _)

/-- A response. -/
theorem State.respond_notified (s : State) (cmd : Nat) (r : Request) (status : Nat) (p : List Byte) : Notified s (s.respond cmd r status p) := by
  unfold State.respond
  split
  · exact s.post_notified _ _
  · exact .refl s

end Sys2Proof.Machine
end

