-- ==== Sys2Proof/Laws/Kept.lean ====
section
/-! SUPPORT. What every operation keeps: the fuses (R405, Table 17-6), the queue of commands and the canonical form of memory. -/
namespace Sys2Proof.Machine

/-- What a change of state keeps: the fuses, the queue, and memory's canonical form if it held. -/
structure Kept (s t : State) : Prop where
  variant : t.lnVariant = s.lnVariant
  svn : s.svc.minSvn ≤ t.svc.minSvn
  blank : t.sec.lifecycle = 0 → s.sec.lifecycle = 0
  retired : s.sec.lifecycle = 3 → t.sec.lifecycle = 3
  queue : t.pending = s.pending
  mem : Memory.wf s.pool.cells = true → Memory.wf t.pool.cells = true

/-- No change. -/
theorem Kept.refl (s : State) : Kept s s := ⟨rfl, Nat.le_refl _, id, id, rfl, id⟩

/-- One change after another. -/
theorem Kept.trans {s t u : State} (h : Kept s t) (g : Kept t u) : Kept s u :=
  ⟨g.variant.trans h.variant, Nat.le_trans h.svn g.svn, fun x => h.blank (g.blank x), fun x => g.retired (h.retired x),
    g.queue.trans h.queue, fun x => g.mem (h.mem x)⟩

/-- A change of other fields. -/
theorem Kept.of {s t u : State} (h1 : u.lnVariant = t.lnVariant) (h2 : u.svc.minSvn = t.svc.minSvn)
    (h3 : u.sec.lifecycle = t.sec.lifecycle) (h4 : u.pending = t.pending) (h5 : u.pool.cells = t.pool.cells) (h : Kept s t) : Kept s u :=
  h.trans ⟨h1, Nat.le_of_eq h2.symm, fun x => h3 ▸ x, fun x => h3.trans x, h4, fun x => h5 ▸ x⟩

/-- Notifications. -/
theorem Notified.kept {s t : State} (h : Notified s t) : Kept s t := by
  obtain ⟨_, _, _, _, _, _, _, _, _, _, rfl⟩ := h
  exact ⟨rfl, Nat.le_refl _, id, id, rfl, id⟩

/-- A choice between states. -/
theorem Kept.ifs {s : State} {c : Prop} [Decidable c] {a b : State} (h : c → Kept s a) (g : ¬c → Kept s b) : Kept s (if c then a else b) := by
  split
  · exact h ‹_›
  · exact g ‹_›

/-- A choice between states with its reason. -/
theorem Kept.difs {s : State} {c : Prop} [Decidable c] {a : c → State} {b : ¬c → State} (h : ∀ x, Kept s (a x))
    (g : ∀ x, Kept s (b x)) : Kept s (if x : c then a x else b x) := by
  split
  · exact h ‹_›
  · exact g ‹_›

/-- A fold over states. -/
theorem Kept.folds {α : Type} {s : State} {f : State → α → State} {i : State} (l : List α)
    (h : ∀ t x, Kept s t → Kept s (f t x)) (g : Kept s i) : Kept s (l.foldl f i) := by
  induction l generalizing i with
  | nil => exact g
  | cons x l ih => exact ih (h _ _ g)

/-- A choice. -/
theorem Kept.ite {β : Type} (p : β → State) {s : State} {c : Prop} [Decidable c] {a b : β} (h : c → Kept s (p a)) (g : ¬c → Kept s (p b)) :
    Kept s (p (if c then a else b)) := by
  split
  · exact h ‹_›
  · exact g ‹_›

/-- A choice with its reason. -/
theorem Kept.dite {β : Type} (p : β → State) {s : State} {c : Prop} [Decidable c] {a : c → β} {b : ¬c → β} (h : ∀ x, Kept s (p (a x)))
    (g : ∀ x, Kept s (p (b x))) : Kept s (p (if x : c then a x else b x)) := by
  split
  · exact h ‹_›
  · exact g ‹_›

/-- A fold whose steps keep. -/
theorem Kept.foldl {α β : Type} (p : β → State) {s : State} {f : β → α → β} {i : β} (l : List α)
    (h : ∀ t x, Kept s (p t) → Kept s (p (f t x))) (g : Kept s (p i)) : Kept s (p (l.foldl f i)) := by
  induction l generalizing i with
  | nil => exact g
  | cons x l ih => exact ih (h _ _ g)

/-- The state of a GXE result, or the one before a fault. -/
def resOr (s : State) (r : GxeRes) : State := match r with | .ok t => t | .error _ => s

/-- The state of an outcome, or the one before a stop. -/
def outOr (s : State) (o : Out) : State := match o with | .next t => t | _ => s

/-- A GXE result that is a state. -/
theorem Kept.okk {s t : State} (h : Kept s t) : Kept s (resOr s (.ok t)) := h

/-- An outcome that is a state. -/
theorem Kept.next {s t : State} (h : Kept s t) : Kept s (outOr s (.next t)) := h

/-- A GXE result from a later state. -/
theorem Kept.res {s u : State} {r : GxeRes} (h : Kept s u) (g : Kept u (resOr u r)) : Kept s (resOr s r) := by
  cases r with
  | ok t => exact h.trans g
  | error _ => exact .refl s

/-- An outcome from a later state. -/
theorem Kept.out {s u : State} {o : Out} (h : Kept s u) (g : Kept u (outOr u o)) : Kept s (outOr s o) := by
  cases o with
  | next t => exact h.trans g
  | fault _ => exact .refl s
  | refused _ => exact .refl s

end Sys2Proof.Machine
end

