-- ==== Sys2Proof/Laws/KeptOps.lean ====
section
/-! SUPPORT. What each operation of the machine keeps, one lemma per operation, in the order of the files under Machine/. -/
namespace Sys2Proof.Machine

/-! ## Ops -/

/-- What State.modDie keeps. -/
theorem State.modDie_kept : ∀ s v1 v2, Kept s (State.modDie s v1 v2) := by
  intro s v1 v2
  unfold State.modDie
  have h0 := Kept.refl s
  exact Kept.of (t := s) rfl rfl rfl rfl rfl h0

/-- What State.modTile keeps. -/
theorem State.modTile_kept : ∀ s v1 v2 v3, Kept s (State.modTile s v1 v2 v3) := by
  intro s v1 v2 v3
  unfold State.modTile
  have h1 := Kept.refl s
  exact Kept.of (t := s) rfl rfl rfl rfl rfl h1

/-- What State.modCtrl keeps. -/
theorem State.modCtrl_kept : ∀ s v1 v2, Kept s (State.modCtrl s v1 v2) := by
  intro s v1 v2
  unfold State.modCtrl
  have h2 := Kept.refl s
  exact Kept.of (t := s) rfl rfl rfl rfl rfl h2

/-- What State.modLink keeps. -/
theorem State.modLink_kept : ∀ s v1 v2, Kept s (State.modLink s v1 v2) := by
  intro s v1 v2
  unfold State.modLink
  have h3 := Kept.refl s
  exact Kept.of (t := s) rfl rfl rfl rfl rfl h3

/-- What State.modPort keeps. -/
theorem State.modPort_kept : ∀ s v1 v2, Kept s (State.modPort s v1 v2) := by
  intro s v1 v2
  unfold State.modPort
  have h4 := Kept.refl s
  exact Kept.of (t := s) rfl rfl rfl rfl rfl h4

/-- What State.modHart keeps. -/
theorem State.modHart_kept : ∀ s v1 v2, Kept s (State.modHart s v1 v2) := by
  intro s v1 v2
  unfold State.modHart
  have h5 := Kept.refl s
  exact Kept.of (t := s) rfl rfl rfl rfl rfl h5

/-- What State.modBox keeps. -/
theorem State.modBox_kept : ∀ s v1 v2, Kept s (State.modBox s v1 v2) := by
  intro s v1 v2
  unfold State.modBox
  have h6 := Kept.refl s
  exact Kept.of (t := s) rfl rfl rfl rfl rfl h6

/-- What State.modDiePower keeps. -/
theorem State.modDiePower_kept : ∀ s v1 v2, Kept s (State.modDiePower s v1 v2) := by
  intro s v1 v2
  unfold State.modDiePower
  have h7 := Kept.refl s
  exact Kept.of (t := s) rfl rfl rfl rfl rfl h7

/-- What State.modKey keeps. -/
theorem State.modKey_kept : ∀ s v1 v2, Kept s (State.modKey s v1 v2) := by
  intro s v1 v2
  unfold State.modKey
  have h8 := Kept.refl s
  exact Kept.of (t := s) rfl rfl rfl rfl rfl h8

/-- What State.modWq keeps. -/
theorem State.modWq_kept : ∀ s v1 v2 v3, Kept s (State.modWq s v1 v2 v3) := by
  intro s v1 v2 v3
  unfold State.modWq
  have h1 := Kept.refl s
  refine Kept.trans ?_ (State.modDie_kept ..)
  exact h1

/-- What State.modCe keeps. -/
theorem State.modCe_kept : ∀ s v1 v2 v3, Kept s (State.modCe s v1 v2 v3) := by
  intro s v1 v2 v3
  unfold State.modCe
  have h1 := Kept.refl s
  refine Kept.trans ?_ (State.modDie_kept ..)
  exact h1

/-- What State.reply keeps. -/
theorem State.reply_kept : ∀ s v1, Kept s (State.reply s v1) := by
  intro s v1
  unfold State.reply
  have h11 := Kept.refl s
  exact Kept.of (t := s) rfl rfl rfl rfl rfl h11

/-- What State.modJob keeps. -/
theorem State.modJob_kept : ∀ s v1, Kept s (State.modJob s v1) := by
  intro s v1
  unfold State.modJob
  have h12 := Kept.refl s
  exact Kept.of (t := s) rfl rfl rfl rfl rfl h12

/-- What State.free keeps. -/
theorem State.free_kept : ∀ s v1, Kept s ((State.free s v1).2) := by
  intro s v1
  unfold State.free
  have h13 := Kept.refl s
  try dsimp -zeta only
  exact Kept.of (t := s) rfl rfl rfl rfl rfl h13

/-- What State.imsicPend keeps. -/
theorem State.imsicPend_kept : ∀ s v1 v2, Kept s (State.imsicPend s v1 v2) := by
  intro s v1 v2
  unfold State.imsicPend
  have h1 := Kept.refl s
  extract_lets +onlyGivenNames -underBinder -merge x1
  try clear_value x1
  refine Kept.ifs (fun _ => ?_) (fun _ => ?_)
  · exact h1
  · exact Kept.of (t := s) rfl rfl rfl rfl rfl h1

/-- What State.imsicPendM keeps. -/
theorem State.imsicPendM_kept : ∀ s v1 v2, Kept s (State.imsicPendM s v1 v2) := by
  intro s v1 v2
  unfold State.imsicPendM
  have h1 := Kept.refl s
  extract_lets +onlyGivenNames -underBinder -merge x1
  try clear_value x1
  refine Kept.ifs (fun _ => ?_) (fun _ => ?_)
  · exact h1
  · exact Kept.of (t := s) rfl rfl rfl rfl rfl h1

/-- What State.modAplic keeps. -/
theorem State.modAplic_kept : ∀ s v1 v2, Kept s (State.modAplic s v1 v2) := by
  intro s v1 v2
  unfold State.modAplic
  have h18 := Kept.refl s
  exact Kept.of (t := s) rfl rfl rfl rfl rfl h18

/-- What State.aplicMsi keeps. -/
theorem State.aplicMsi_kept : ∀ s v1 v2, Kept s (State.aplicMsi s v1 v2) := by
  intro s v1 v2
  unfold State.aplicMsi
  have h1 := Kept.refl s
  extract_lets +onlyGivenNames -underBinder -merge x1
  try clear_value x1
  extract_lets +onlyGivenNames -underBinder -merge x2
  try clear_value x2
  refine Kept.ifs (fun _ => ?_) (fun _ => ?_)
  · exact h1
  · refine Kept.ifs (fun _ => ?_) (fun _ => ?_)
    · refine Kept.trans ?_ (State.imsicPend_kept ..)
      exact h1
    · refine Kept.trans ?_ (State.imsicPendM_kept ..)
      exact h1

/-- What State.aplicSend keeps. -/
theorem State.aplicSend_kept : ∀ s v1 v2, Kept s (State.aplicSend s v1 v2) := by
  intro s v1 v2
  unfold State.aplicSend
  have h1 := Kept.refl s
  extract_lets +onlyGivenNames -underBinder -merge x1
  try clear_value x1
  refine Kept.ifs (fun _ => ?_) (fun _ => ?_)
  · refine Kept.trans ?_ (State.aplicMsi_kept ..)
    refine Kept.trans ?_ (State.modAplic_kept ..)
    exact h1
  · exact h1

/-- What State.aplicPend keeps. -/
theorem State.aplicPend_kept : ∀ s v1 v2, Kept s (State.aplicPend s v1 v2) := by
  intro s v1 v2
  unfold State.aplicPend
  have h1 := Kept.refl s
  refine Kept.ifs (fun _ => ?_) (fun _ => ?_)
  · exact h1
  · refine Kept.trans ?_ (State.aplicSend_kept ..)
    refine Kept.trans ?_ (State.modAplic_kept ..)
    exact h1

/-- What State.raiseWired keeps. -/
theorem State.raiseWired_kept : ∀ s v1, Kept s (State.raiseWired s v1) := fun s v1 => (State.raiseWired_notified s v1).kept

/-- What State.sendMsix keeps. -/
theorem State.sendMsix_kept : ∀ s v1, Kept s (State.sendMsix s v1) := by
  intro s v1
  unfold State.sendMsix
  have h1 := Kept.refl s
  extract_lets +onlyGivenNames -underBinder -merge x1
  try clear_value x1
  refine Kept.ifs (fun _ => ?_) (fun _ => ?_)
  · refine Kept.ifs (fun _ => ?_) (fun _ => ?_)
    · exact Kept.of (t := s) rfl rfl rfl rfl rfl h1
    · refine Kept.ifs (fun _ => ?_) (fun _ => ?_)
      · exact h1
      · refine Kept.trans ?_ (State.imsicPend_kept ..)
        exact h1
  · refine Kept.ifs (fun _ => ?_) (fun _ => ?_)
    · exact h1
    · refine Kept.ifs (fun _ => ?_) (fun _ => ?_)
      · exact Kept.of (t := s) rfl rfl rfl rfl rfl h1
      · exact Kept.of (t := s) rfl rfl rfl rfl rfl h1

/-- What State.logAdd keeps. -/
theorem State.logAdd_kept : ∀ s v1 v2 v3, Kept s (State.logAdd s v1 v2 v3) := by
  intro s v1 v2 v3
  unfold State.logAdd
  have h27 := Kept.refl s
  exact Kept.of (t := s) rfl rfl rfl rfl rfl h27

/-- What State.logNote keeps. -/
theorem State.logNote_kept : ∀ s v1 v2, Kept s (State.logNote s v1 v2) := by
  intro s v1 v2
  unfold State.logNote
  have h1 := Kept.refl s
  refine Kept.trans ?_ (State.logAdd_kept ..)
  exact h1

/-- What State.logLines keeps. -/
theorem State.logLines_kept : ∀ v1 s v2, Kept s (State.logLines v1 s v2) := fun _ _ _ => (State.logLines_notified _ _ _).kept

/-- What State.logReset keeps. -/
theorem State.logReset_kept : ∀ s v1 v2, Kept s (State.logReset s v1 v2) := by
  intro s v1 v2
  unfold State.logReset
  have h1 := Kept.refl s
  extract_lets +onlyGivenNames -underBinder -merge x1
  have h2 : Kept s x1 := by
    dsimp -zeta only [x1]
    refine Kept.trans ?_ (State.logAdd_kept ..)
    exact h1
  try clear_value x1
  refine Kept.trans ?_ (State.logLines_kept ..)
  exact h2

/-- What State.ringAppend keeps. -/
theorem State.ringAppend_kept : ∀ s v1 v2 v3, Kept s (State.ringAppend s v1 v2 v3) := by
  intro s v1 v2 v3
  unfold State.ringAppend
  have h1 := Kept.refl s
  extract_lets +onlyGivenNames -underBinder -merge x1
  try clear_value x1
  refine Kept.ifs (fun _ => ?_) (fun _ => ?_)
  · exact h1
  · refine Kept.ifs (fun _ => ?_) (fun _ => ?_)
    · refine Kept.trans ?_ (State.modBox_kept ..)
      exact h1
    · extract_lets +onlyGivenNames -underBinder -merge x2
      have h2 : Kept s x2 := by
        dsimp -zeta only [x2]
        refine Kept.trans ?_ (State.modBox_kept ..)
        exact h1
      try clear_value x2
      refine Kept.ifs (fun _ => ?_) (fun _ => ?_)
      · refine Kept.trans ?_ (State.raiseWired_kept ..)
        exact h2
      · refine Kept.ifs (fun _ => ?_) (fun _ => ?_)
        · refine Kept.trans ?_ (State.sendMsix_kept ..)
          exact h2
        · exact h2

/-- What State.event keeps. -/
theorem State.event_kept : ∀ s v1 v2 v3, Kept s (State.event s v1 v2 v3) := fun _ _ _ _ => (State.event_notified _ _ _ _).kept

/-- What State.dieEvent keeps. -/
theorem State.dieEvent_kept : ∀ s v1 v2 v3 v4, Kept s (State.dieEvent s v1 v2 v3 v4) := by
  intro s v1 v2 v3 v4
  unfold State.dieEvent
  have h1 := Kept.refl s
  refine Kept.trans ?_ (State.raiseWired_kept ..)
  refine Kept.trans ?_ (State.event_kept ..)
  exact h1

/-- What State.hdEvent keeps. -/
theorem State.hdEvent_kept : ∀ s v1 v2, Kept s (State.hdEvent s v1 v2) := by
  intro s v1 v2
  unfold State.hdEvent
  have h1 := Kept.refl s
  refine Kept.trans ?_ (State.event_kept ..)
  exact h1

/-- What State.logAccess keeps. -/
theorem State.logAccess_kept : ∀ s v1 v2 v3 v4, Kept s (State.logAccess s v1 v2 v3 v4) := by
  intro s v1 v2 v3 v4
  unfold State.logAccess
  have h1 := Kept.refl s
  extract_lets +onlyGivenNames -underBinder -merge x1
  have h2 : Kept s x1 := by
    dsimp -zeta only [x1]
    exact Kept.of (t := s) rfl rfl rfl rfl rfl h1
  try clear_value x1
  refine Kept.ifs (fun _ => ?_) (fun _ => ?_)
  · refine Kept.trans ?_ (State.logNote_kept ..)
    exact h2
  · exact h2

/-- What State.storeLost keeps. -/
theorem State.storeLost_kept : ∀ s v1 v2 v3, Kept s (State.storeLost s v1 v2 v3) := by
  intro s v1 v2 v3
  unfold State.storeLost
  have h1 := Kept.refl s
  refine Kept.trans ?_ (State.hdEvent_kept ..)
  refine Kept.trans ?_ (State.logAccess_kept ..)
  exact h1

/-- What State.storePend keeps. -/
theorem State.storePend_kept : ∀ s v1 v2, Kept s (State.storePend s v1 v2) := by
  intro s v1 v2
  unfold State.storePend
  have h1 := Kept.refl s
  extract_lets +onlyGivenNames -underBinder -merge x1
  try clear_value x1
  split
  · refine Kept.trans ?_ (State.modHart_kept ..)
    exact h1
  · refine Kept.trans ?_ (State.modTile_kept ..)
    exact h1
  · exact h1

/-- What State.rspNotify keeps. -/
theorem State.rspNotify_kept : ∀ s v1, Kept s (State.rspNotify s v1) := by
  intro s v1
  unfold State.rspNotify
  have h1 := Kept.refl s
  extract_lets +onlyGivenNames -underBinder -merge x1
  try clear_value x1
  refine Kept.ifs (fun _ => ?_) (fun _ => ?_)
  · refine Kept.trans ?_ (State.raiseWired_kept ..)
    exact h1
  · refine Kept.ifs (fun _ => ?_) (fun _ => ?_)
    · refine Kept.trans ?_ (State.sendMsix_kept ..)
      exact h1
    · exact h1

/-- What State.i3cDeliver keeps. -/
theorem State.i3cDeliver_kept : ∀ s, Kept s (State.i3cDeliver s) := by
  intro s
  unfold State.i3cDeliver
  have h1 := Kept.refl s
  split
  · exact h1
  · refine Kept.ifs (fun _ => ?_) (fun _ => ?_)
    · exact h1
    · refine Kept.trans ?_ (State.modBox_kept ..)
      exact h1

/-- What State.post keeps. -/
theorem State.post_kept : ∀ s v1 v2, Kept s (State.post s v1 v2) := by
  intro s v1 v2
  unfold State.post
  have h1 := Kept.refl s
  extract_lets +onlyGivenNames -underBinder -merge x1
  try clear_value x1
  refine Kept.ifs (fun _ => ?_) (fun _ => ?_)
  · refine Kept.trans ?_ (State.modBox_kept ..)
    exact h1
  · refine Kept.ifs (fun _ => ?_) (fun _ => ?_)
    · refine Kept.trans ?_ (State.modBox_kept ..)
      exact h1
    · refine Kept.ifs (fun _ => ?_) (fun _ => ?_)
      · refine Kept.trans ?_ (State.modBox_kept ..)
        exact h1
      · refine Kept.trans ?_ (State.rspNotify_kept ..)
        refine Kept.trans ?_ (State.modBox_kept ..)
        exact h1

/-- What State.respond keeps. -/
theorem State.respond_kept : ∀ s v1 v2 v3 v4, Kept s (State.respond s v1 v2 v3 v4) := by
  intro s v1 v2 v3 v4
  unfold State.respond
  have h1 := Kept.refl s
  refine Kept.ifs (fun _ => ?_) (fun _ => ?_)
  · refine Kept.trans ?_ (State.post_kept ..)
    exact h1
  · exact h1

/-! ## Wake -/

/-- What State.brakeEvent keeps. -/
theorem State.brakeEvent_kept : ∀ s v1 v2, Kept s (State.brakeEvent s v1 v2) := by
  intro s v1 v2
  unfold State.brakeEvent
  have h1 := Kept.refl s
  refine Kept.trans ?_ (State.raiseWired_kept ..)
  refine Kept.trans ?_ (State.hdEvent_kept ..)
  exact h1

/-- What State.brakeOn keeps. -/
theorem State.brakeOn_kept : ∀ s v1, Kept s (State.brakeOn s v1) := by
  intro s v1
  unfold State.brakeOn
  have h1 := Kept.refl s
  refine Kept.trans ?_ (State.brakeEvent_kept ..)
  exact Kept.of (t := s) rfl rfl rfl rfl rfl h1

/-- What State.tilesEnter keeps. -/
theorem State.tilesEnter_kept : ∀ s v1, Kept s (State.tilesEnter s v1) := by
  intro s v1
  unfold State.tilesEnter
  have h58 := Kept.refl s
  exact Kept.of (t := s) rfl rfl rfl rfl rfl h58

/-- What State.selfRefresh keeps. -/
theorem State.selfRefresh_kept : ∀ s v1, Kept s (State.selfRefresh s v1) := by
  intro s v1
  unfold State.selfRefresh
  have h1 := Kept.refl s
  refine Kept.folds _ (fun t1 x1 h2 => ?_) ?_
  · try dsimp -zeta only
    refine Kept.trans ?_ (State.modCtrl_kept ..)
    exact h2
  · try dsimp -zeta only
    exact h1

/-- What State.wake keeps. -/
theorem State.wake_kept : ∀ s, Kept s (State.wake s) := by
  intro s
  unfold State.wake
  have h1 := Kept.refl s
  refine Kept.ifs (fun _ => ?_) (fun _ => ?_)
  · exact h1
  · extract_lets +onlyGivenNames -underBinder -merge x1 x2
    have h2 : Kept s x2 := by
      dsimp -zeta only [x2]
      refine Kept.trans ?_ (State.selfRefresh_kept ..)
      refine Kept.trans ?_ (State.tilesEnter_kept ..)
      exact Kept.of (t := s) rfl rfl rfl rfl rfl h1
    try clear_value x1 x2
    refine Kept.ifs (fun _ => ?_) (fun _ => ?_)
    · refine Kept.trans ?_ (State.brakeOn_kept ..)
      exact Kept.of (t := x2) rfl rfl rfl rfl rfl h2
    · exact h2

/-! ## Mem -/

/-- What State.rawWrite keeps. -/
theorem State.putCells_wf (m : Map Byte) (a : Nat) (l : List Byte) (h : Memory.wf m = true) : Memory.wf (putCells m a l) = true := by
  induction l generalizing m a with
  | nil => exact h
  | cons b r ih => exact ih _ _ (Map.wf_put 0 m a b h)

/-- What State.rawWrite keeps. -/
theorem State.rawWrite_kept : ∀ s v1 v2 v3 v4, Kept s (State.rawWrite s v1 v2 v3 v4) := by
  intro s c k line data
  unfold State.rawWrite
  extract_lets +onlyGivenNames u
  have h : Kept s u := State.modCtrl_kept ..
  exact h.trans ⟨rfl, Nat.le_refl _, id, id, rfl, fun h => State.putCells_wf _ _ _ h⟩

/-- What State.dcPut keeps. -/
theorem State.dcPut_kept : ∀ s v1 v2 v3, Kept s (State.dcPut s v1 v2 v3) := by
  intro s v1 v2 v3
  unfold State.dcPut
  have h1 := Kept.refl s
  refine Kept.trans ?_ (State.modDie_kept ..)
  exact h1

/-- What State.setSide keeps. -/
theorem State.setSide_kept : ∀ s v1 v2 v3, Kept s (State.setSide s v1 v2 v3) := by
  intro s v1 v2 v3
  unfold State.setSide
  have h1 := Kept.refl s
  refine Kept.trans ?_ (State.modDie_kept ..)
  exact h1

/-- What State.dropSide keeps. -/
theorem State.dropSide_kept : ∀ s v1 v2, Kept s (State.dropSide s v1 v2) := by
  intro s v1 v2
  unfold State.dropSide
  have h1 := Kept.refl s
  refine Kept.trans ?_ (State.setSide_kept ..)
  exact h1

/-- What State.tear keeps. -/
theorem State.tear_kept : ∀ s v1, Kept s (State.tear s v1) := by
  intro s v1
  unfold State.tear
  have h1 := Kept.refl s
  extract_lets +onlyGivenNames -underBinder -merge x1
  try clear_value x1
  exact Kept.of (t := s) rfl rfl rfl rfl rfl h1

/-- What State.discard keeps. -/
theorem State.discard_kept : ∀ s v1 v2 v3, Kept s (State.discard s v1 v2 v3) := by
  intro s v1 v2 v3
  unfold State.discard
  have h1 := Kept.refl s
  refine Kept.trans ?_ (State.tear_kept ..)
  refine Kept.trans ?_ (State.storeLost_kept ..)
  exact h1

/-- What State.dcWriteBack keeps. -/
theorem State.dcWriteBack_kept : ∀ s v1 v2, Kept s (State.dcWriteBack s v1 v2) := by
  intro s v1 v2
  unfold State.dcWriteBack
  have h1 := Kept.refl s
  refine Kept.ifs (fun _ => ?_) (fun _ => ?_)
  · exact h1
  · refine Kept.ifs (fun _ => ?_) (fun _ => ?_)
    · refine Kept.trans ?_ (State.discard_kept ..)
      exact h1
    · refine Kept.trans ?_ (State.rawWrite_kept ..)
      refine Kept.trans ?_ (State.dropSide_kept ..)
      exact h1

/-- What State.dcEvict keeps. -/
theorem State.dcEvict_kept : ∀ s v1 v2, Kept s (State.dcEvict s v1 v2) := by
  intro s v1 v2
  unfold State.dcEvict
  have h1 := Kept.refl s
  extract_lets +onlyGivenNames -underBinder -merge x1
  try clear_value x1
  refine Kept.ifs (fun _ => ?_) (fun _ => ?_)
  · refine Kept.trans ?_ (State.dcPut_kept ..)
    refine Kept.trans ?_ (State.dcWriteBack_kept ..)
    exact h1
  · exact h1

/-- What State.dcFill keeps. -/
theorem State.dcFill_kept : ∀ s v1 v2 v3 v4 v5 v6 v7, Kept s (State.dcFill s v1 v2 v3 v4 v5 v6 v7) := by
  intro s v1 v2 v3 v4 v5 v6 v7
  unfold State.dcFill
  have h1 := Kept.refl s
  extract_lets +onlyGivenNames -underBinder -merge x1
  try clear_value x1
  extract_lets +onlyGivenNames -underBinder -merge x2
  try clear_value x2
  extract_lets +onlyGivenNames -underBinder -merge x3
  try clear_value x3
  split
  · refine Kept.trans ?_ (State.dcPut_kept ..)
    exact h1
  · split
    · extract_lets +onlyGivenNames -underBinder -merge x4
      have h2 : Kept s x4 := by
        dsimp -zeta only [x4]
        refine Kept.folds _ (fun t1 x5 h3 => ?_) ?_
        · try dsimp -zeta only
          refine Kept.trans ?_ (State.dcPut_kept ..)
          exact h3
        · try dsimp -zeta only
          exact h1
      try clear_value x4
      refine Kept.trans ?_ (State.dcPut_kept ..)
      refine Kept.trans ?_ (State.dcEvict_kept ..)
      exact h2

/-- What State.dcCount keeps. -/
theorem State.dcCount_kept : ∀ s v1 v2 v3, Kept s (State.dcCount s v1 v2 v3) := by
  intro s v1 v2 v3
  unfold State.dcCount
  have h1 := Kept.refl s
  extract_lets +onlyGivenNames -underBinder -merge x1
  try clear_value x1
  refine Kept.trans ?_ (State.modDie_kept ..)
  exact h1

/-- What State.dcRekey keeps. -/
theorem State.dcRekey_kept : ∀ s v1 v2 v3, Kept s (State.dcRekey s v1 v2 v3) := by
  intro s v1 v2 v3
  unfold State.dcRekey
  have h1 := Kept.refl s
  split
  · refine Kept.ifs (fun _ => ?_) (fun _ => ?_)
    · exact h1
    · refine Kept.trans ?_ (State.dcEvict_kept ..)
      exact h1
  · exact h1

/-- What State.homeRead keeps. -/
theorem State.homeRead_kept : ∀ s v1 v2 v3, Kept s ((State.homeRead s v1 v2 v3).2) := by
  intro s v1 v2 v3
  unfold State.homeRead
  have h1 := Kept.refl s
  refine Kept.ite Prod.snd (fun _ => ?_) (fun _ => ?_)
  · refine Kept.ite Prod.snd (fun _ => ?_) (fun _ => ?_)
    · try dsimp -zeta only
      exact h1
    · try dsimp -zeta only
      exact h1
  · extract_lets +onlyGivenNames -underBinder -merge x1
    try clear_value x1
    extract_lets +onlyGivenNames -underBinder -merge x2
    try clear_value x2
    extract_lets +onlyGivenNames -underBinder -merge x3
    have h2 : Kept s x3 := by
      dsimp -zeta only [x3]
      refine Kept.trans ?_ (State.dcRekey_kept ..)
      exact h1
    try clear_value x3
    split
    · extract_lets +onlyGivenNames -underBinder -merge x4
      try clear_value x4
      extract_lets +onlyGivenNames -underBinder -merge x5
      try clear_value x5
      extract_lets +onlyGivenNames -underBinder -merge x6
      have h3 : Kept s x6 := by
        dsimp -zeta only [x6]
        refine Kept.trans ?_ (State.dcCount_kept ..)
        exact h2
      try clear_value x6
      try dsimp -zeta only
      refine Kept.ifs (fun _ => ?_) (fun _ => ?_)
      · exact h3
      · refine Kept.trans ?_ (State.dcPut_kept ..)
        exact h3
    · extract_lets +onlyGivenNames -underBinder -merge x7
      have h4 : Kept s x7 := by
        dsimp -zeta only [x7]
        refine Kept.trans ?_ (State.dcCount_kept ..)
        exact h2
      try clear_value x7
      extract_lets +onlyGivenNames -underBinder -merge x8
      try clear_value x8
      refine Kept.ite Prod.snd (fun _ => ?_) (fun _ => ?_)
      · try dsimp -zeta only
        exact h4
      · split
        · extract_lets +onlyGivenNames -underBinder -merge x9
          have h5 : Kept s x9 := by
            dsimp -zeta only [x9]
            refine Kept.trans ?_ (State.dropSide_kept ..)
            exact h4
          try clear_value x9
          extract_lets +onlyGivenNames -underBinder -merge x10
          have h6 : Kept s x10 := by
            dsimp -zeta only [x10]
            refine Kept.trans ?_ (State.modDie_kept ..)
            exact h5
          try clear_value x10
          try dsimp -zeta only
          refine Kept.ifs (fun _ => ?_) (fun _ => ?_)
          · exact h6
          · refine Kept.trans ?_ (State.dcFill_kept ..)
            exact h6
        · extract_lets +onlyGivenNames -underBinder -merge x11
          try clear_value x11
          refine Kept.ite Prod.snd (fun _ => ?_) (fun _ => ?_)
          · try dsimp -zeta only
            exact h4
          · try dsimp -zeta only
            refine Kept.trans ?_ (State.dcFill_kept ..)
            exact h4

/-- What State.homeWrite keeps. -/
theorem State.homeWrite_kept : ∀ s v1 v2 v3 v4 v5, Kept s ((State.homeWrite s v1 v2 v3 v4 v5).2) := by
  intro s v1 v2 v3 v4 v5
  unfold State.homeWrite
  have h1 := Kept.refl s
  extract_lets +onlyGivenNames -underBinder -merge x1
  try clear_value x1
  refine Kept.ite Prod.snd (fun _ => ?_) (fun _ => ?_)
  · refine Kept.ite Prod.snd (fun _ => ?_) (fun _ => ?_)
    · try dsimp -zeta only
      exact h1
    · try dsimp -zeta only
      refine Kept.trans ?_ (State.rawWrite_kept ..)
      exact h1
  · extract_lets +onlyGivenNames -underBinder -merge x2
    try clear_value x2
    extract_lets +onlyGivenNames -underBinder -merge x3
    try clear_value x3
    extract_lets +onlyGivenNames -underBinder -merge x4
    have h2 : Kept s x4 := by
      dsimp -zeta only [x4]
      refine Kept.trans ?_ (State.dcRekey_kept ..)
      exact h1
    try clear_value x4
    split
    · extract_lets +onlyGivenNames -underBinder -merge x5
      try clear_value x5
      extract_lets +onlyGivenNames -underBinder -merge x6
      try clear_value x6
      extract_lets +onlyGivenNames -underBinder -merge x7
      have h3 : Kept s x7 := by
        dsimp -zeta only [x7]
        refine Kept.trans ?_ (State.dropSide_kept ..)
        refine Kept.trans ?_ (State.dcCount_kept ..)
        exact h2
      try clear_value x7
      try dsimp -zeta only
      refine Kept.trans ?_ (State.dcPut_kept ..)
      exact h3
    · refine Kept.ite Prod.snd (fun _ => ?_) (fun _ => ?_)
      · try dsimp -zeta only
        exact h2
      · refine Kept.ite Prod.snd (fun _ => ?_) (fun _ => ?_)
        · try dsimp -zeta only
          refine Kept.trans ?_ (State.rawWrite_kept ..)
          refine Kept.trans ?_ (State.dropSide_kept ..)
          exact h2
        · extract_lets +onlyGivenNames -underBinder -merge x8
          have h4 : Kept s x8 := by
            dsimp -zeta only [x8]
            refine Kept.trans ?_ (State.dcCount_kept ..)
            exact h2
          try clear_value x8
          extract_lets +onlyGivenNames -underBinder -merge x9
          try clear_value x9
          extract_lets +onlyGivenNames -underBinder -merge x10
          try clear_value x10
          extract_lets +onlyGivenNames -underBinder -merge x11
          try clear_value x11
          extract_lets +onlyGivenNames -underBinder -merge x12
          have h5 : Kept s x12 := by
            dsimp -zeta only [x12]
            refine Kept.trans ?_ (State.dropSide_kept ..)
            exact h4
          try clear_value x12
          extract_lets +onlyGivenNames -underBinder -merge x13
          try clear_value x13
          refine Kept.ite Prod.snd (fun _ => ?_) (fun _ => ?_)
          · try dsimp -zeta only
            refine Kept.trans ?_ (State.rawWrite_kept ..)
            exact h5
          · try dsimp -zeta only
            refine Kept.trans ?_ (State.dcFill_kept ..)
            exact h5

/-- What State.putAgent keeps. -/
theorem State.putAgent_kept : ∀ s v1 v2 v3, Kept s (State.putAgent s v1 v2 v3) := by
  intro s v1 v2 v3
  unfold State.putAgent
  have h135 := Kept.refl s
  exact Kept.of (t := s) rfl rfl rfl rfl rfl h135

/-- What State.putHome keeps. -/
theorem State.putHome_kept : ∀ s v1 v2, Kept s (State.putHome s v1 v2) := by
  intro s v1 v2
  unfold State.putHome
  have h136 := Kept.refl s
  exact Kept.of (t := s) rfl rfl rfl rfl rfl h136

/-- What State.breakReservations keeps. -/
theorem State.breakReservations_kept : ∀ s v1, Kept s (State.breakReservations s v1) := by
  intro s v1
  unfold State.breakReservations
  have h137 := Kept.refl s
  exact Kept.of (t := s) rfl rfl rfl rfl rfl h137

/-! ## Bundles -/

/-- What State.linkPump keeps. -/
theorem State.linkPump_kept : ∀ s v1, Kept s (State.linkPump s v1) := by
  intro s v1
  unfold State.linkPump
  have h1 := Kept.refl s
  refine Kept.trans ?_ (State.modLink_kept ..)
  exact h1

/-- What State.linkSend keeps. -/
theorem State.linkSend_kept : ∀ s v1 v2 v3, Kept s (State.linkSend s v1 v2 v3) := by
  intro s v1 v2 v3
  unfold State.linkSend
  have h1 := Kept.refl s
  split
  · extract_lets +onlyGivenNames -underBinder -merge x1
    try clear_value x1
    refine Kept.trans ?_ (State.linkPump_kept ..)
    refine Kept.trans ?_ (State.modLink_kept ..)
    exact h1
  · exact h1

/-! ## Home -/

/-- What State.coh keeps. -/
theorem State.coh_kept : ∀ s v1 v2, Kept s (State.coh s v1 v2) := by
  intro s v1 v2
  unfold State.coh
  have h1 := Kept.refl s
  extract_lets +onlyGivenNames -underBinder -merge x1
  try clear_value x1
  extract_lets +onlyGivenNames -underBinder -merge x2 x3
  have h2 : Kept s x3 := by
    dsimp -zeta only [x3]
    exact Kept.of (t := s) rfl rfl rfl rfl rfl h1
  try clear_value x2 x3
  refine Kept.ifs (fun _ => ?_) (fun _ => ?_)
  · exact h2
  · refine Kept.trans ?_ (State.linkSend_kept ..)
    exact h2

/-- What State.cohHome keeps. -/
theorem State.cohHome_kept : ∀ s v1, Kept s (State.cohHome s v1) := by
  intro s v1
  unfold State.cohHome
  have h1 := Kept.refl s
  refine Kept.trans ?_ (State.coh_kept ..)
  exact h1

/-- What State.takeMsg keeps. -/
theorem State.takeMsg_kept : ∀ s f m u, State.takeMsg s f = some (m, u) → Kept s u := by
  intro s f m u h
  unfold State.takeMsg at h
  split at h
  · cases h
    exact Kept.of (t := s) rfl rfl rfl rfl rfl (.refl s)
  · cases h

/-- What State.homeValue keeps. -/
theorem State.homeValue_kept : ∀ s v1 v2 v3 v4, Kept s ((State.homeValue s v1 v2 v3 v4).2) := by
  intro s v1 v2 v3 v4
  unfold State.homeValue
  have h1 := Kept.refl s
  split
  · try dsimp -zeta only
    refine Kept.trans ?_ (State.homeWrite_kept ..)
    exact h1
  · refine Kept.trans ?_ (State.homeRead_kept ..)
    exact h1

/-- What State.homePut keeps. -/
theorem State.homePut_kept : ∀ s v1 v2 v3 v4 v5, Kept s (State.homePut s v1 v2 v3 v4 v5) := by
  intro s v1 v2 v3 v4 v5
  unfold State.homePut
  have h1 := Kept.refl s
  split
  · rename_i a1 q1
    have h2 : Kept s a1 := by
      have e := congrArg Prod.snd q1
      dsimp only at e
      rw [← e]
      refine Kept.trans ?_ (State.homeWrite_kept ..)
      exact h1
    refine Kept.trans ?_ (State.breakReservations_kept ..)
    exact h2
  · rename_i a2 q2
    have h3 : Kept s a2 := by
      have e := congrArg Prod.snd q2
      dsimp only at e
      rw [← e]
      refine Kept.trans ?_ (State.homeWrite_kept ..)
      exact h1
    refine Kept.trans ?_ (State.discard_kept ..)
    exact h3

/-- What State.homeStore keeps. -/
theorem State.homeStore_kept : ∀ s v1 v2 v3 v4 v5, Kept s (State.homeStore s v1 v2 v3 v4 v5) := by
  intro s v1 v2 v3 v4 v5
  unfold State.homeStore
  have h1 := Kept.refl s
  split
  · rename_i a1 q1
    have h2 : Kept s a1 := by
      have e := congrArg Prod.snd q1
      dsimp only at e
      rw [← e]
      refine Kept.trans ?_ (State.homeWrite_kept ..)
      exact h1
    refine Kept.trans ?_ (State.breakReservations_kept ..)
    exact h2
  · rename_i a2 q2
    have h3 : Kept s a2 := by
      have e := congrArg Prod.snd q2
      dsimp only at e
      rw [← e]
      refine Kept.trans ?_ (State.homeWrite_kept ..)
      exact h1
    refine Kept.trans ?_ (State.storePend_kept ..)
    refine Kept.trans ?_ (State.discard_kept ..)
    exact h3

/-- What State.placeWrite keeps. -/
theorem State.placeWrite_kept : ∀ s v1 v2 v3 v4, Kept s (State.placeWrite s v1 v2 v3 v4) := by
  intro s v1 v2 v3 v4
  unfold State.placeWrite
  have h1 := Kept.refl s
  split
  · refine Kept.trans ?_ (State.homeStore_kept ..)
    exact h1
  · split
    · refine Kept.trans ?_ (State.homeStore_kept ..)
      exact h1
    · refine Kept.trans ?_ (State.homeStore_kept ..)
      exact h1
  · split
    · split
      · refine Kept.trans ?_ (State.cohHome_kept ..)
        refine Kept.trans ?_ (State.homeStore_kept ..)
        exact h1
    · refine Kept.trans ?_ (State.cohHome_kept ..)
      exact h1
  · exact h1

/-- What State.homeEnd keeps. -/
theorem State.homeEnd_kept : ∀ s v1 v2 v3 v4, Kept s (State.homeEnd s v1 v2 v3 v4) := by
  intro s v1 v2 v3 v4
  unfold State.homeEnd
  have h1 := Kept.refl s
  extract_lets +onlyGivenNames -underBinder -merge x1
  try clear_value x1
  extract_lets +onlyGivenNames -underBinder -merge x2
  try clear_value x2
  split
  · refine Kept.ifs (fun _ => ?_) (fun _ => ?_)
    · extract_lets +onlyGivenNames -underBinder -merge x3
      try clear_value x3
      refine Kept.ifs (fun _ => ?_) (fun _ => ?_)
      · refine Kept.trans ?_ (State.putHome_kept ..)
        exact h1
      · refine Kept.trans ?_ (State.putHome_kept ..)
        exact h1
    · split
      · rename_i a1 q1
        have h2 : Kept s a1 := by
          have e := congrArg Prod.snd q1
          dsimp only at e
          rw [← e]
          refine Kept.trans ?_ (State.homeValue_kept ..)
          exact h1
        refine Kept.trans ?_ (State.cohHome_kept ..)
        refine Kept.trans ?_ (State.putHome_kept ..)
        exact h2
      · rename_i a2 a3 q2
        have h3 : Kept s a3 := by
          have e := congrArg Prod.snd q2
          dsimp only at e
          rw [← e]
          refine Kept.trans ?_ (State.homeValue_kept ..)
          exact h1
        refine Kept.ifs (fun _ => ?_) (fun _ => ?_)
        · refine Kept.trans ?_ (State.cohHome_kept ..)
          refine Kept.trans ?_ (State.putHome_kept ..)
          exact h3
        · refine Kept.trans ?_ (State.cohHome_kept ..)
          refine Kept.trans ?_ (State.putHome_kept ..)
          exact h3
  · refine Kept.ifs (fun _ => ?_) (fun _ => ?_)
    · refine Kept.trans ?_ (State.putHome_kept ..)
      exact h1
    · split
      · rename_i a4 q3
        have h4 : Kept s a4 := by
          have e := congrArg Prod.snd q3
          dsimp only at e
          rw [← e]
          refine Kept.trans ?_ (State.homeValue_kept ..)
          exact h1
        refine Kept.trans ?_ (State.cohHome_kept ..)
        refine Kept.trans ?_ (State.putHome_kept ..)
        exact h4
      · rename_i a5 a6 q4
        have h5 : Kept s a6 := by
          have e := congrArg Prod.snd q4
          dsimp only at e
          rw [← e]
          refine Kept.trans ?_ (State.homeValue_kept ..)
          exact h1
        refine Kept.trans ?_ (State.cohHome_kept ..)
        refine Kept.trans ?_ (State.putHome_kept ..)
        exact h5
  · extract_lets +onlyGivenNames -underBinder -merge x4
    have h6 : Kept s x4 := by
      dsimp -zeta only [x4]
      split
      · refine Kept.trans ?_ (State.homeWrite_kept ..)
        exact h1
      · exact h1
    try clear_value x4
    refine Kept.trans ?_ (State.cohHome_kept ..)
    refine Kept.trans ?_ (State.putHome_kept ..)
    exact h6
  · refine Kept.ifs (fun _ => ?_) (fun _ => ?_)
    · refine Kept.trans ?_ (State.putHome_kept ..)
      exact h1
    · split
      · rename_i a7 q5
        have h7 : Kept s a7 := by
          have e := congrArg Prod.snd q5
          dsimp only at e
          rw [← e]
          refine Kept.trans ?_ (State.homeValue_kept ..)
          exact h1
        refine Kept.trans ?_ (State.cohHome_kept ..)
        refine Kept.trans ?_ (State.putHome_kept ..)
        exact h7
      · rename_i a8 a9 q6
        have h8 : Kept s a9 := by
          have e := congrArg Prod.snd q6
          dsimp only at e
          rw [← e]
          refine Kept.trans ?_ (State.homeValue_kept ..)
          exact h1
        refine Kept.trans ?_ (State.cohHome_kept ..)
        refine Kept.trans ?_ (State.putHome_kept ..)
        exact h8
  · extract_lets +onlyGivenNames -underBinder -merge x5
    have h9 : Kept s x5 := by
      dsimp -zeta only [x5]
      split
      · refine Kept.trans ?_ (State.homePut_kept ..)
        exact h1
      · exact h1
    try clear_value x5
    refine Kept.trans ?_ (State.putHome_kept ..)
    exact h9
  · extract_lets +onlyGivenNames -underBinder -merge x6
    have h10 : Kept s x6 := by
      dsimp -zeta only [x6]
      refine Kept.ifs (fun _ => ?_) (fun _ => ?_)
      · exact h1
      · refine Kept.trans ?_ (State.placeWrite_kept ..)
        exact h1
    try clear_value x6
    refine Kept.trans ?_ (State.cohHome_kept ..)
    refine Kept.trans ?_ (State.putHome_kept ..)
    exact h10

/-- What State.homeStart keeps. -/
theorem State.homeStart_kept : ∀ s v1 v2 v3, Kept s (State.homeStart s v1 v2 v3) := by
  intro s v1 v2 v3
  unfold State.homeStart
  have h1 := Kept.refl s
  extract_lets +onlyGivenNames -underBinder -merge x1
  try clear_value x1
  extract_lets +onlyGivenNames -underBinder -merge x2
  try clear_value x2
  extract_lets +onlyGivenNames -underBinder -merge x3
  try clear_value x3
  extract_lets +onlyGivenNames -underBinder -merge x4
  try clear_value x4
  extract_lets +onlyGivenNames -underBinder -merge x5
  try clear_value x5
  extract_lets +onlyGivenNames -underBinder -merge x6
  try clear_value x6
  extract_lets +onlyGivenNames -underBinder -merge x7
  have h2 : Kept s x7 := by
    dsimp -zeta only [x7]
    refine Kept.folds _ (fun t1 x8 h3 => ?_) ?_
    · try dsimp -zeta only
      refine Kept.trans ?_ (State.cohHome_kept ..)
      exact h3
    · try dsimp -zeta only
      exact h1
  try clear_value x7
  refine Kept.ifs (fun _ => ?_) (fun _ => ?_)
  · refine Kept.trans ?_ (State.putHome_kept ..)
    refine Kept.trans ?_ (State.placeWrite_kept ..)
    exact h2
  · refine Kept.trans ?_ (State.putHome_kept ..)
    exact h2

/-- What State.dirEvict keeps. -/
theorem State.dirEvict_kept : ∀ s v1, Kept s (State.dirEvict s v1) := by
  intro s v1
  unfold State.dirEvict
  have h1 := Kept.refl s
  extract_lets +onlyGivenNames -underBinder -merge x1
  try clear_value x1
  extract_lets +onlyGivenNames -underBinder -merge x2
  try clear_value x2
  refine Kept.ifs (fun _ => ?_) (fun _ => ?_)
  · exact h1
  · split
    · rename_i a1 a2 q1
      have h2 : Kept s a2 := by
        have e := congrArg Prod.snd q1
        dsimp only at e
        rw [← e]
        refine Kept.trans ?_ (State.free_kept ..)
        exact h1
      split
      · split
        · refine Kept.trans ?_ (State.homeStart_kept ..)
          exact h2
        · exact h2
      · exact h2

/-- What State.homeRun keeps. -/
theorem State.homeRun_kept : ∀ line n s, Kept s (State.homeRun line n s) := by
  intro line n
  induction n with
  | zero => intro s; exact .refl s
  | succ n ih =>
    intro s
    unfold State.homeRun
    split
    · exact .refl s
    · extract_lets h
      split
      · exact Kept.ifs (fun _ => .refl s) (fun _ => (State.homeEnd_kept ..).trans (ih _))
      · split
        · exact .refl s
        · exact Kept.ifs (fun _ => State.dirEvict_kept ..) (fun _ => ((State.putHome_kept ..).trans (State.homeStart_kept ..)).trans (ih _))

/-- What State.homeSet keeps. -/
theorem State.homeSet_kept : ∀ s v1, Kept s (State.homeSet s v1) := by
  intro s v1
  unfold State.homeSet
  have h1 := Kept.refl s
  extract_lets +onlyGivenNames -underBinder -merge x1
  have h2 : Kept s x1 := by
    dsimp -zeta only [x1]
    refine Kept.trans ?_ (State.homeRun_kept ..)
    exact h1
  try clear_value x1
  refine Kept.folds _ (fun t1 x2 h3 => ?_) ?_
  · try dsimp -zeta only
    refine Kept.trans ?_ (State.homeRun_kept ..)
    exact h3
  · try dsimp -zeta only
    exact h2

/-- What State.homeEnqueue keeps. -/
theorem State.homeEnqueue_kept : ∀ s v1 v2, Kept s (State.homeEnqueue s v1 v2) := by
  intro s v1 v2
  unfold State.homeEnqueue
  have h1 := Kept.refl s
  extract_lets +onlyGivenNames -underBinder -merge x1
  try clear_value x1
  refine Kept.trans ?_ (State.homeSet_kept ..)
  refine Kept.trans ?_ (State.putHome_kept ..)
  exact h1

/-- What State.letIn keeps. -/
theorem State.letIn_kept : ∀ n s, Kept s (State.letIn n s) := by
  intro n
  induction n with
  | zero => intro s; exact .refl s
  | succ n ih =>
    intro s
    unfold State.letIn
    split
    · exact .refl s
    · refine Kept.trans (Kept.trans ?_ (State.homeEnqueue_kept ..)) (ih _)
      exact Kept.of (t := s) rfl rfl rfl rfl rfl (.refl s)

/-- What State.homeGo keeps. -/
theorem State.homeGo_kept : ∀ s v1, Kept s (State.homeGo s v1) := by
  intro s v1
  unfold State.homeGo
  have h1 := Kept.refl s
  extract_lets +onlyGivenNames -underBinder -merge x1
  have h2 : Kept s x1 := by
    dsimp -zeta only [x1]
    refine Kept.trans ?_ (State.homeSet_kept ..)
    exact h1
  try clear_value x1
  refine Kept.trans ?_ (State.letIn_kept ..)
  exact h2

/-- What State.homeArrive keeps. -/
theorem State.homeArrive_kept : ∀ s v1 v2, Kept s (State.homeArrive s v1 v2) := by
  intro s v1 v2
  unfold State.homeArrive
  have h1 := Kept.refl s
  refine Kept.ifs (fun _ => ?_) (fun _ => ?_)
  · exact Kept.of (t := s) rfl rfl rfl rfl rfl h1
  · refine Kept.trans ?_ (State.homeEnqueue_kept ..)
    exact h1

/-- What State.lineLost keeps. -/
theorem State.lineLost_kept : ∀ s v1 v2, Kept s (State.lineLost s v1 v2) := by
  intro s v1 v2
  unfold State.lineLost
  have h1 := Kept.refl s
  extract_lets +onlyGivenNames -underBinder -merge x1
  have h2 : Kept s x1 := by
    dsimp -zeta only [x1]
    refine Kept.trans ?_ (State.putAgent_kept ..)
    exact h1
  try clear_value x1
  refine Kept.folds _ (fun t1 x2 h3 => ?_) ?_
  · try dsimp -zeta only
    extract_lets +onlyGivenNames -underBinder -merge x3
    try clear_value x3
    refine Kept.ifs (fun _ => ?_) (fun _ => ?_)
    · refine Kept.trans ?_ (State.modHart_kept ..)
      exact h3
    · exact h3
  · try dsimp -zeta only
    exact h2

/-- What State.snoopAnswer keeps. -/
theorem State.snoopAnswer_kept : ∀ s v1 v2 v3 v4, Kept s (State.snoopAnswer s v1 v2 v3 v4) := by
  intro s v1 v2 v3 v4
  unfold State.snoopAnswer
  have h1 := Kept.refl s
  extract_lets +onlyGivenNames -underBinder -merge x1
  try clear_value x1
  extract_lets +onlyGivenNames -underBinder -merge x2
  split
  · refine Kept.trans ?_ (State.coh_kept ..)
    exact h1
  · refine Kept.trans ?_ (State.coh_kept ..)
    exact h1
  · refine Kept.trans ?_ (State.coh_kept ..)
    refine Kept.trans ?_ (State.lineLost_kept ..)
    exact h1
  · refine Kept.trans ?_ (State.coh_kept ..)
    refine Kept.trans ?_ (State.lineLost_kept ..)
    exact h1
  · dsimp -zeta only [x2]
    split
    · refine Kept.trans ?_ (State.coh_kept ..)
      refine Kept.trans ?_ (State.coh_kept ..)
      refine Kept.trans ?_ (State.lineLost_kept ..)
      exact h1
    · refine Kept.trans ?_ (State.coh_kept ..)
      refine Kept.trans ?_ (State.lineLost_kept ..)
      exact h1
  · dsimp -zeta only [x2]
    split
    · refine Kept.trans ?_ (State.coh_kept ..)
      refine Kept.trans ?_ (State.coh_kept ..)
      refine Kept.trans ?_ (State.putAgent_kept ..)
      exact h1
    · refine Kept.trans ?_ (State.coh_kept ..)
      refine Kept.trans ?_ (State.putAgent_kept ..)
      exact h1
  · dsimp -zeta only [x2]
    split
    · refine Kept.trans ?_ (State.coh_kept ..)
      refine Kept.trans ?_ (State.coh_kept ..)
      exact h1
    · refine Kept.trans ?_ (State.coh_kept ..)
      exact h1
  · dsimp -zeta only [x2]
    split
    · refine Kept.trans ?_ (State.coh_kept ..)
      refine Kept.trans ?_ (State.coh_kept ..)
      refine Kept.trans ?_ (State.putAgent_kept ..)
      exact h1
    · refine Kept.trans ?_ (State.coh_kept ..)
      refine Kept.trans ?_ (State.putAgent_kept ..)
      exact h1
  · dsimp -zeta only [x2]
    split
    · refine Kept.trans ?_ (State.coh_kept ..)
      refine Kept.trans ?_ (State.coh_kept ..)
      exact h1
    · refine Kept.trans ?_ (State.coh_kept ..)
      exact h1
  · dsimp -zeta only [x2]
    split
    · refine Kept.trans ?_ (State.coh_kept ..)
      refine Kept.trans ?_ (State.coh_kept ..)
      exact h1
    · refine Kept.trans ?_ (State.coh_kept ..)
      exact h1

/-- What State.snoopArrives keeps. -/
theorem State.snoopArrives_kept : ∀ s a line k, Kept s (State.snoopArrives s a line k) := by
  intro s a line k
  unfold State.snoopArrives
  refine Kept.ifs (fun _ => .refl s) (fun _ => ?_)
  split
  · rename_i u q
    have h := State.takeMsg_kept _ _ _ _ q
    exact Kept.ifs (fun _ => h.trans (State.putAgent_kept ..)) (fun _ => h.trans (State.snoopAnswer_kept ..))
  · exact .refl s

/-- What State.holdEnds keeps. -/
theorem State.holdEnds_kept : ∀ s v1 v2, Kept s (State.holdEnds s v1 v2) := by
  intro s v1 v2
  unfold State.holdEnds
  have h1 := Kept.refl s
  extract_lets +onlyGivenNames -underBinder -merge x1
  try clear_value x1
  refine Kept.folds _ (fun t1 x2 h2 => ?_) ?_
  · try dsimp -zeta only
    refine Kept.trans ?_ (State.snoopAnswer_kept ..)
    exact h2
  · try dsimp -zeta only
    refine Kept.trans ?_ (State.putAgent_kept ..)
    exact h1

/-- What State.takeMiss keeps. -/
theorem State.takeMiss_kept : ∀ s v1 v2, Kept s ((State.takeMiss s v1 v2).2) := by
  intro s v1 v2
  unfold State.takeMiss
  have h293 := Kept.refl s
  split
  · try dsimp -zeta only
    exact Kept.of (t := s) rfl rfl rfl rfl rfl h293
  · try dsimp -zeta only
    exact h293

/-- What State.corePerform keeps. -/
theorem State.corePerform_kept : ∀ s v1 v2 v3, Kept s (State.corePerform s v1 v2 v3) := by
  intro s v1 v2 v3
  unfold State.corePerform
  have h1 := Kept.refl s
  extract_lets +onlyGivenNames -underBinder -merge x1
  try clear_value x1
  extract_lets +onlyGivenNames -underBinder -merge x2
  try clear_value x2
  extract_lets +onlyGivenNames -underBinder -merge x3
  split
  · refine Kept.trans ?_ (State.modHart_kept ..)
    exact h1
  · refine Kept.trans ?_ (State.modHart_kept ..)
    refine Kept.ifs (fun _ => ?_) (fun _ => ?_)
    · dsimp -zeta only [x3]
      refine Kept.trans ?_ (State.breakReservations_kept ..)
      refine Kept.ifs (fun _ => ?_) (fun _ => ?_)
      · refine Kept.trans ?_ (State.putAgent_kept ..)
        exact h1
      · exact h1
    · exact h1
  · dsimp -zeta only [x3]
    refine Kept.trans ?_ (State.breakReservations_kept ..)
    refine Kept.ifs (fun _ => ?_) (fun _ => ?_)
    · refine Kept.trans ?_ (State.putAgent_kept ..)
      exact h1
    · exact h1
  · dsimp -zeta only [x3]
    refine Kept.trans ?_ (State.breakReservations_kept ..)
    refine Kept.ifs (fun _ => ?_) (fun _ => ?_)
    · refine Kept.trans ?_ (State.putAgent_kept ..)
      exact h1
    · exact h1
  · exact h1

/-- What State.dataArrives keeps. -/
theorem State.dataArrives_kept : ∀ s v1 v2, Kept s (State.dataArrives s v1 v2) := by
  intro s v1 v2
  unfold State.dataArrives
  have h1 := Kept.refl s
  split
  · rename_i a1 a2 a3 a4 a5 a6 q1
    have h2 : Kept s a6 := State.takeMsg_kept _ _ _ _ q1
    extract_lets +onlyGivenNames -underBinder -merge x1
    have h3 : Kept s x1 := by
      dsimp -zeta only [x1]
      refine Kept.trans ?_ (State.putAgent_kept ..)
      exact h2
    try clear_value x1
    split
    · rename_i a7 a8 q2
      have h4 : Kept s a8 := by
        have e := congrArg Prod.snd q2
        dsimp only at e
        rw [← e]
        refine Kept.trans ?_ (State.takeMiss_kept ..)
        exact h3
      refine Kept.trans ?_ (State.corePerform_kept ..)
      refine Kept.trans ?_ (State.reply_kept ..)
      exact h4
    · rename_i a9 q3
      have h5 : Kept s a9 := by
        have e := congrArg Prod.snd q3
        dsimp only at e
        rw [← e]
        refine Kept.trans ?_ (State.takeMiss_kept ..)
        exact h3
      exact h5
  · exact h1

/-- What State.compArrives keeps. -/
theorem State.compArrives_kept : ∀ s v1 v2, Kept s (State.compArrives s v1 v2) := by
  intro s v1 v2
  unfold State.compArrives
  have h1 := Kept.refl s
  split
  · rename_i a1 a2 q1
    have h2 : Kept s a2 := State.takeMsg_kept _ _ _ _ q1
    extract_lets +onlyGivenNames -underBinder -merge x1
    try clear_value x1
    extract_lets +onlyGivenNames -underBinder -merge x2
    have h3 : Kept s x2 := by
      dsimp -zeta only [x2]
      refine Kept.ifs (fun _ => ?_) (fun _ => ?_)
      · exact h2
      · refine Kept.trans ?_ (State.putAgent_kept ..)
        exact h2
    try clear_value x2
    split
    · rename_i a3 a4 q2
      have h4 : Kept s a4 := by
        have e := congrArg Prod.snd q2
        dsimp only at e
        rw [← e]
        refine Kept.trans ?_ (State.takeMiss_kept ..)
        exact h3
      refine Kept.trans ?_ (State.corePerform_kept ..)
      refine Kept.trans ?_ (State.reply_kept ..)
      exact h4
    · rename_i a5 q3
      have h5 : Kept s a5 := by
        have e := congrArg Prod.snd q3
        dsimp only at e
        rw [← e]
        refine Kept.trans ?_ (State.takeMiss_kept ..)
        exact h3
      exact h5
  · exact h1

/-- What State.evict keeps. -/
theorem State.evict_kept : ∀ s v1 v2 v3, Kept s (State.evict s v1 v2 v3) := by
  intro s v1 v2 v3
  unfold State.evict
  have h1 := Kept.refl s
  extract_lets +onlyGivenNames -underBinder -merge x1
  try clear_value x1
  extract_lets +onlyGivenNames -underBinder -merge x2
  have h2 : Kept s x2 := by
    dsimp -zeta only [x2]
    refine Kept.trans ?_ (State.coh_kept ..)
    refine Kept.trans ?_ (State.putAgent_kept ..)
    exact h1
  try clear_value x2
  refine Kept.folds _ (fun t1 x3 h3 => ?_) ?_
  · try dsimp -zeta only
    refine Kept.trans ?_ (State.snoopAnswer_kept ..)
    exact h3
  · try dsimp -zeta only
    exact h2

/-- What State.homeProceed keeps. -/
theorem State.homeProceed_kept : ∀ s v1, Kept s (State.homeProceed s v1) := by
  intro s v1
  unfold State.homeProceed
  have h1 := Kept.refl s
  split
  · exact h1
  · extract_lets +onlyGivenNames -underBinder -merge x1
    try clear_value x1
    split
    · extract_lets +onlyGivenNames -underBinder -merge x2
      try clear_value x2
      refine Kept.ifs (fun _ => ?_) (fun _ => ?_)
      · refine Kept.trans ?_ (State.homeGo_kept ..)
        refine Kept.trans ?_ (State.putHome_kept ..)
        refine Kept.trans ?_ (State.placeWrite_kept ..)
        exact h1
      · refine Kept.trans ?_ (State.homeGo_kept ..)
        exact h1
    · refine Kept.trans ?_ (State.homeGo_kept ..)
      exact h1

/-- What State.ackArrives keeps. -/
theorem State.ackArrives_kept : ∀ s v1 v2, Kept s (State.ackArrives s v1 v2) := by
  intro s v1 v2
  unfold State.ackArrives
  have h1 := Kept.refl s
  split
  · rename_i a1 a2 a3 a4 a5 q1
    have h2 : Kept s a5 := State.takeMsg_kept _ _ _ _ q1
    extract_lets +onlyGivenNames -underBinder -merge x1
    try clear_value x1
    refine Kept.ifs (fun _ => ?_) (fun _ => ?_)
    · exact h2
    · extract_lets +onlyGivenNames -underBinder -merge x2
      try clear_value x2
      extract_lets +onlyGivenNames -underBinder -merge x3
      try clear_value x3
      refine Kept.trans ?_ (State.homeProceed_kept ..)
      refine Kept.trans ?_ (State.putHome_kept ..)
      exact h2
  · exact h1

/-- What State.ackDArrives keeps. -/
theorem State.ackDArrives_kept : ∀ s v1 v2, Kept s (State.ackDArrives s v1 v2) := by
  intro s v1 v2
  unfold State.ackDArrives
  have h1 := Kept.refl s
  split
  · rename_i a1 a2 a3 a4 q1
    have h2 : Kept s a4 := State.takeMsg_kept _ _ _ _ q1
    extract_lets +onlyGivenNames -underBinder -merge x1
    try clear_value x1
    refine Kept.ifs (fun _ => ?_) (fun _ => ?_)
    · exact h2
    · refine Kept.trans ?_ (State.homeProceed_kept ..)
      refine Kept.trans ?_ (State.putHome_kept ..)
      exact h2
  · exact h1

/-- What State.consumeWb keeps. -/
theorem State.consumeWb_kept : ∀ s v1 v2 v3, Kept s (State.consumeWb s v1 v2 v3) := by
  intro s v1 v2 v3
  unfold State.consumeWb
  have h1 := Kept.refl s
  extract_lets +onlyGivenNames -underBinder -merge x1
  try clear_value x1
  extract_lets +onlyGivenNames -underBinder -merge x2
  try clear_value x2
  extract_lets +onlyGivenNames -underBinder -merge x3 x4
  try clear_value x3 x4
  refine Kept.trans ?_ (State.homeProceed_kept ..)
  refine Kept.trans ?_ (State.cohHome_kept ..)
  refine Kept.trans ?_ (State.putHome_kept ..)
  exact h1

/-- What State.ndwbArrives keeps. -/
theorem State.ndwbArrives_kept : ∀ s v1 v2, Kept s (State.ndwbArrives s v1 v2) := by
  intro s v1 v2
  unfold State.ndwbArrives
  have h1 := Kept.refl s
  split
  · rename_i a1 a2 q1
    have h2 : Kept s a2 := State.takeMsg_kept _ _ _ _ q1
    extract_lets +onlyGivenNames -underBinder -merge x1
    try clear_value x1
    refine Kept.ifs (fun _ => ?_) (fun _ => ?_)
    · exact h2
    · split
      · refine Kept.ifs (fun _ => ?_) (fun _ => ?_)
        · refine Kept.trans ?_ (State.consumeWb_kept ..)
          exact h2
        · refine Kept.trans ?_ (State.putHome_kept ..)
          exact h2
      · refine Kept.ifs (fun _ => ?_) (fun _ => ?_)
        · refine Kept.trans ?_ (State.putHome_kept ..)
          exact h2
        · refine Kept.trans ?_ (State.homeProceed_kept ..)
          refine Kept.trans ?_ (State.putHome_kept ..)
          exact h2
  · exact h1

/-- What State.wbArrives keeps. -/
theorem State.wbArrives_kept : ∀ s v1 v2, Kept s (State.wbArrives s v1 v2) := by
  intro s v1 v2
  unfold State.wbArrives
  have h1 := Kept.refl s
  split
  · rename_i a1 a2 a3 a4 a5 q1
    have h2 : Kept s a5 := State.takeMsg_kept _ _ _ _ q1
    split
    · exact h2
    · extract_lets +onlyGivenNames -underBinder -merge x1
      try clear_value x1
      refine Kept.ifs (fun _ => ?_) (fun _ => ?_)
      · refine Kept.ifs (fun _ => ?_) (fun _ => ?_)
        · refine Kept.trans ?_ (State.consumeWb_kept ..)
          exact h2
        · refine Kept.trans ?_ (State.putHome_kept ..)
          exact h2
      · extract_lets +onlyGivenNames -underBinder -merge x2
        have h3 : Kept s x2 := by
          dsimp -zeta only [x2]
          refine Kept.trans ?_ (State.putHome_kept ..)
          exact h2
        try clear_value x2
        refine Kept.trans ?_ (State.homeGo_kept ..)
        refine Kept.trans ?_ (State.cohHome_kept ..)
        refine Kept.trans ?_ (State.homePut_kept ..)
        exact h3
  · exact h1

/-- What State.wbAnswered keeps. -/
theorem State.wbAnswered_kept : ∀ s v1 v2 v3, Kept s (State.wbAnswered s v1 v2 v3) := by
  intro s v1 v2 v3
  unfold State.wbAnswered
  have h1 := Kept.refl s
  extract_lets +onlyGivenNames -underBinder -merge x1
  try clear_value x1
  split
  · rename_i a1 a2 q1
    have h2 : Kept s a2 := State.takeMsg_kept _ _ _ _ q1
    refine Kept.ifs (fun _ => ?_) (fun _ => ?_)
    · refine Kept.trans ?_ (State.putAgent_kept ..)
      exact h2
    · exact h2
  · exact h1

/-- What State.arrive keeps. -/
theorem State.arrive_kept : ∀ s v1, Kept s (State.arrive s v1) := by
  intro s v1
  unfold State.arrive
  have h1 := Kept.refl s
  split
  · refine Kept.trans ?_ (State.dataArrives_kept ..)
    exact h1
  · refine Kept.trans ?_ (State.compArrives_kept ..)
    exact h1
  · refine Kept.trans ?_ (State.snoopArrives_kept ..)
    exact h1
  · refine Kept.trans ?_ (State.ackArrives_kept ..)
    exact h1
  · refine Kept.trans ?_ (State.ackDArrives_kept ..)
    exact h1
  · refine Kept.trans ?_ (State.ndwbArrives_kept ..)
    exact h1
  · refine Kept.trans ?_ (State.wbArrives_kept ..)
    exact h1
  · refine Kept.trans ?_ (State.wbAnswered_kept ..)
    exact h1
  · refine Kept.trans ?_ (State.wbAnswered_kept ..)
    exact h1
  · exact h1

/-- What State.settleGo keeps. -/
theorem State.settleGo_kept : ∀ p n s, Kept s (State.settleGo p n s) := by
  intro p n
  induction n with
  | zero => intro s; exact .refl s
  | succ n ih =>
    intro s
    unfold State.settleGo
    split
    · exact (State.arrive_kept ..).trans (ih _)
    · split
      · exact (State.arrive_kept ..).trans (ih _)
      · split
        · exact (State.holdEnds_kept ..).trans (ih _)
        · exact .refl s

/-- What State.settle keeps. -/
theorem State.settle_kept : ∀ s v1, Kept s (State.settle s v1) := by
  intro s v1
  unfold State.settle
  have h1 := Kept.refl s
  refine Kept.trans ?_ (State.reply_kept ..)
  refine Kept.trans ?_ (State.settleGo_kept ..)
  exact h1

/-- What State.settleLine keeps. -/
theorem State.settleLine_kept : ∀ s v1, Kept s (State.settleLine s v1) := by
  intro s v1
  unfold State.settleLine
  have h1 := Kept.refl s
  extract_lets +onlyGivenNames -underBinder -merge x1
  try clear_value x1
  refine Kept.trans ?_ (State.settle_kept ..)
  exact h1

/-- What State.settleAll keeps. -/
theorem State.settleAll_kept : ∀ s, Kept s (State.settleAll s) := by
  intro s
  unfold State.settleAll
  have h1 := Kept.refl s
  refine Kept.trans ?_ (State.settle_kept ..)
  exact h1

/-- What State.dropCopies keeps. -/
theorem State.dropCopies_kept : ∀ s v1, Kept s (State.dropCopies s v1) := by
  intro s v1
  unfold State.dropCopies
  have h1 := Kept.refl s
  extract_lets +onlyGivenNames -underBinder -merge x1
  have h2 : Kept s x1 := by
    dsimp -zeta only [x1]
    refine Kept.folds _ (fun t1 x2 h3 => ?_) ?_
    · try dsimp -zeta only
      refine Kept.trans ?_ (State.lineLost_kept ..)
      exact h3
    · try dsimp -zeta only
      exact h1
  try clear_value x1
  extract_lets +onlyGivenNames -underBinder -merge x3
  try clear_value x3
  refine Kept.trans ?_ (State.putHome_kept ..)
  exact h2

/-- What State.rekeyCopies keeps. -/
theorem State.rekeyCopies_kept : ∀ s v1 v2 v3, Kept s (State.rekeyCopies s v1 v2 v3) := by
  intro s v1 v2 v3
  unfold State.rekeyCopies
  have h1 := Kept.refl s
  refine Kept.ifs (fun _ => ?_) (fun _ => ?_)
  · exact h1
  · extract_lets +onlyGivenNames -underBinder -merge x1
    have h2 : Kept s x1 := by
      dsimp -zeta only [x1]
      split
      · extract_lets +onlyGivenNames -underBinder -merge x2
        try clear_value x2
        refine Kept.trans ?_ (State.homeWrite_kept ..)
        exact h1
      · exact h1
    try clear_value x1
    refine Kept.trans ?_ (State.dropCopies_kept ..)
    exact h2

/-- What State.coherentRead keeps. -/
theorem State.coherentRead_kept : ∀ s v1 v2 v3, Kept s ((State.coherentRead s v1 v2 v3).2) := by
  intro s v1 v2 v3
  unfold State.coherentRead
  have h1 := Kept.refl s
  refine Kept.ite Prod.snd (fun _ => ?_) (fun _ => ?_)
  · refine Kept.trans ?_ (State.homeRead_kept ..)
    exact h1
  · extract_lets +onlyGivenNames -underBinder -merge x1
    have h2 : Kept s x1 := by
      dsimp -zeta only [x1]
      refine Kept.trans ?_ (State.rekeyCopies_kept ..)
      refine Kept.trans ?_ (State.settleLine_kept ..)
      exact h1
    try clear_value x1
    split
    · try dsimp -zeta only
      exact h2
    · refine Kept.trans ?_ (State.homeRead_kept ..)
      exact h2

/-- What State.coherentWrite keeps. -/
theorem State.coherentWrite_kept : ∀ s v1 v2 v3 v4 v5, Kept s ((State.coherentWrite s v1 v2 v3 v4 v5).2) := by
  intro s v1 v2 v3 v4 v5
  unfold State.coherentWrite
  have h1 := Kept.refl s
  extract_lets +onlyGivenNames -underBinder -merge x1
  have h2 : Kept s x1 := by
    dsimp -zeta only [x1]
    refine Kept.trans ?_ (State.rekeyCopies_kept ..)
    refine Kept.trans ?_ (State.settleLine_kept ..)
    exact h1
  try clear_value x1
  split
  · extract_lets +onlyGivenNames -underBinder -merge x2
    try clear_value x2
    extract_lets +onlyGivenNames -underBinder -merge x3
    have h3 : Kept s x3 := by
      dsimp -zeta only [x3]
      refine Kept.trans ?_ (State.breakReservations_kept ..)
      refine Kept.trans ?_ (State.dropCopies_kept ..)
      exact h2
    try clear_value x3
    refine Kept.trans ?_ (State.homeWrite_kept ..)
    exact h3
  · refine Kept.trans ?_ (State.homeWrite_kept ..)
    refine Kept.trans ?_ (State.breakReservations_kept ..)
    refine Kept.trans ?_ (State.dropCopies_kept ..)
    exact h2

/-- What State.restoreTs keeps. -/
theorem State.restoreTs_kept : ∀ s v1 v2, Kept s (State.restoreTs s v1 v2) := by
  intro s v1 v2
  unfold State.restoreTs
  have h1 := Kept.refl s
  refine Kept.ifs (fun _ => ?_) (fun _ => ?_)
  · refine Kept.trans ?_ (State.modTile_kept ..)
    exact h1
  · exact h1

/-- What State.readSpan keeps. -/
theorem State.readSpan_kept : ∀ s v1 v2 v3, Kept s ((State.readSpan s v1 v2 v3).2) := by
  intro s v1 v2 v3
  unfold State.readSpan
  have h1 := Kept.refl s
  refine Kept.ite Prod.snd (fun _ => ?_) (fun _ => ?_)
  · try dsimp -zeta only
    refine Kept.trans ?_ (State.logAccess_kept ..)
    exact h1
  · split
    · split
      · rename_i a1 a2 q1
        have h2 : Kept s a2 := by
          have e := congrArg Prod.snd q1
          dsimp only at e
          rw [← e]
          refine Kept.trans ?_ (State.coherentRead_kept ..)
          exact h1
        try dsimp -zeta only
        exact h2
      · rename_i a3 q2
        have h3 : Kept s a3 := by
          have e := congrArg Prod.snd q2
          dsimp only at e
          rw [← e]
          refine Kept.trans ?_ (State.coherentRead_kept ..)
          exact h1
        try dsimp -zeta only
        refine Kept.trans ?_ (State.logAccess_kept ..)
        exact h3
    · extract_lets +onlyGivenNames -underBinder -merge x1
      have h4 : Kept s x1 := by
        dsimp -zeta only [x1]
        refine Kept.trans ?_ (State.restoreTs_kept ..)
        exact h1
      try clear_value x1
      refine Kept.ite Prod.snd (fun _ => ?_) (fun _ => ?_)
      · try dsimp -zeta only
        refine Kept.trans ?_ (State.logAccess_kept ..)
        exact h4
      · try dsimp -zeta only
        exact h4
    · try dsimp -zeta only
      refine Kept.trans ?_ (State.logAccess_kept ..)
      exact h1

/-- What State.writeSpan keeps. -/
theorem State.writeSpan_kept : ∀ s v1 v2 v3, Kept s ((State.writeSpan s v1 v2 v3).2) := by
  intro s v1 v2 v3
  unfold State.writeSpan
  have h1 := Kept.refl s
  refine Kept.ite Prod.snd (fun _ => ?_) (fun _ => ?_)
  · try dsimp -zeta only
    refine Kept.trans ?_ (State.logAccess_kept ..)
    exact h1
  · split
    · extract_lets +onlyGivenNames -underBinder -merge x1
      try clear_value x1
      extract_lets +onlyGivenNames -underBinder -merge x2
      try clear_value x2
      split
      · rename_i a1 q1
        have h2 : Kept s a1 := by
          have e := congrArg Prod.snd q1
          dsimp only at e
          rw [← e]
          refine Kept.trans ?_ (State.coherentWrite_kept ..)
          exact h1
        try dsimp -zeta only
        exact h2
      · rename_i a2 q2
        have h3 : Kept s a2 := by
          have e := congrArg Prod.snd q2
          dsimp only at e
          rw [← e]
          refine Kept.trans ?_ (State.coherentWrite_kept ..)
          exact h1
        try dsimp -zeta only
        refine Kept.trans ?_ (State.storePend_kept ..)
        refine Kept.trans ?_ (State.discard_kept ..)
        exact h3
    · extract_lets +onlyGivenNames -underBinder -merge x3
      have h4 : Kept s x3 := by
        dsimp -zeta only [x3]
        refine Kept.trans ?_ (State.restoreTs_kept ..)
        exact h1
      try clear_value x3
      try dsimp -zeta only
      refine Kept.trans ?_ (State.modTile_kept ..)
      refine Kept.trans ?_ (State.breakReservations_kept ..)
      exact h4
    · try dsimp -zeta only
      refine Kept.trans ?_ (State.logAccess_kept ..)
      exact h1

/-- What State.readGo keeps. -/
theorem State.readGo_kept : ∀ acc f s a n l, Kept s (State.readGo acc f s a n l).2 := by
  intro acc f
  induction f with
  | zero => intro s _ _ _; exact .refl s
  | succ f ih =>
    intro s a n l
    unfold State.readGo
    refine Kept.ite Prod.snd (fun _ => .refl s) (fun _ => ?_)
    extract_lets k
    have h := State.readSpan_kept s acc a k
    split
    · rename_i x u q
      rw [q] at h
      exact h.trans (ih _ _ _ _)
    · rename_i e u q
      rw [q] at h
      exact h

/-- What State.readMem keeps. -/
theorem State.readMem_kept : ∀ s v1 v2 v3, Kept s ((State.readMem s v1 v2 v3).2) := by
  intro s v1 v2 v3
  unfold State.readMem
  have h1 := Kept.refl s
  refine Kept.trans ?_ (State.readGo_kept ..)
  exact h1

/-- What State.writeGo keeps. -/
theorem State.writeGo_kept : ∀ acc f s a l, Kept s (State.writeGo acc f s a l).2 := by
  intro acc f
  induction f with
  | zero => intro s _ _; exact .refl s
  | succ f ih =>
    intro s a l
    unfold State.writeGo
    refine Kept.ite Prod.snd (fun _ => .refl s) (fun _ => ?_)
    extract_lets k
    have h := State.writeSpan_kept s acc a (l.take k)
    split
    · rename_i u q
      rw [q] at h
      exact h.trans (ih _ _ _)
    · rename_i e u _ q
      rw [q] at h
      exact h

/-- What State.writeMem keeps. -/
theorem State.writeMem_kept : ∀ s v1 v2 v3, Kept s ((State.writeMem s v1 v2 v3).2) := by
  intro s v1 v2 v3
  unfold State.writeMem
  have h1 := Kept.refl s
  refine Kept.trans ?_ (State.writeGo_kept ..)
  exact h1

/-- What State.release keeps. -/
theorem State.release_kept : ∀ s, Kept s (State.release s) := by
  intro s
  unfold State.release
  have h1 := Kept.refl s
  extract_lets +onlyGivenNames -underBinder -merge x1
  have h2 : Kept s x1 := by
    dsimp -zeta only [x1]
    refine Kept.trans ?_ (State.settleAll_kept ..)
    exact h1
  try clear_value x1
  exact Kept.of (t := x1) rfl rfl rfl rfl rfl h2

/-! ## Net -/

/-- What State.enqueue keeps. -/
theorem State.enqueue_kept : ∀ s v1 v2, Kept s (State.enqueue s v1 v2) := by
  intro s v1 v2
  unfold State.enqueue
  have h1 := Kept.refl s
  refine Kept.trans ?_ (State.modPort_kept ..)
  exact h1

/-- What State.send keeps. -/
theorem State.send_kept : ∀ s v1 v2, Kept s ((State.send s v1 v2).2) := by
  intro s v1 v2
  unfold State.send
  have h1 := Kept.refl s
  split
  · try dsimp -zeta only
    refine Kept.trans ?_ (State.enqueue_kept ..)
    exact h1
  · try dsimp -zeta only
    exact h1

/-- What State.tick keeps. -/
theorem State.tick_kept : ∀ s, Kept s (State.tick s) := by
  intro s
  unfold State.tick
  have h1 := Kept.refl s
  extract_lets +onlyGivenNames -underBinder -merge x1
  have h2 : Kept s x1 := by
    dsimp -zeta only [x1]
    refine Kept.folds _ (fun t1 x2 h3 => ?_) ?_
    · try dsimp -zeta only
      refine Kept.ifs (fun _ => ?_) (fun _ => ?_)
      · refine Kept.trans ?_ (State.modPort_kept ..)
        exact h3
      · exact h3
    · try dsimp -zeta only
      exact h1
  try clear_value x1
  extract_lets +onlyGivenNames -underBinder -merge x3
  have h4 : Kept s x3 := by
    dsimp -zeta only [x3]
    refine Kept.trans ?_ (State.i3cDeliver_kept ..)
    exact h2
  try clear_value x3
  exact Kept.of (t := x3) rfl rfl rfl rfl rfl h4

/-- What State.sendAll keeps. -/
theorem State.sendAll_kept : ∀ s v1 v2, Kept s (State.sendAll s v1 v2) := by
  intro s v1 v2
  unfold State.sendAll
  have h1 := Kept.refl s
  refine Kept.folds _ (fun t1 x1 h2 => ?_) ?_
  · try dsimp -zeta only
    refine Kept.trans ?_ (State.send_kept ..)
    exact h2
  · try dsimp -zeta only
    exact h1

/-! ## Job -/

/-- What State.slipCause keeps. -/
theorem State.slipCause_kept : ∀ s v1 v2 v3, Kept s (State.slipCause s v1 v2 v3) := by
  intro s v1 v2 v3
  unfold State.slipCause
  have h1 := Kept.refl s
  split
  · exact h1
  · extract_lets +onlyGivenNames -underBinder -merge x1
    try clear_value x1
    extract_lets +onlyGivenNames -underBinder -merge x2
    try clear_value x2
    extract_lets +onlyGivenNames -underBinder -merge x3
    have h2 : Kept s x3 := by
      dsimp -zeta only [x3]
      refine Kept.trans ?_ (State.modJob_kept ..)
      exact h1
    try clear_value x3
    refine Kept.ifs (fun _ => ?_) (fun _ => ?_)
    · refine Kept.trans ?_ (State.dieEvent_kept ..)
      exact h2
    · exact h2

/-- What State.slipEvent keeps. -/
theorem State.slipEvent_kept : ∀ s v1 v2, Kept s (State.slipEvent s v1 v2) := by
  intro s v1 v2
  unfold State.slipEvent
  have h1 := Kept.refl s
  refine Kept.trans ?_ (State.slipCause_kept ..)
  exact h1

/-- What State.recordSlip keeps. -/
theorem State.recordSlip_kept : ∀ s v1, Kept s (State.recordSlip s v1) := by
  intro s v1
  unfold State.recordSlip
  have h1 := Kept.refl s
  extract_lets +onlyGivenNames -underBinder -merge x1
  try clear_value x1
  extract_lets +onlyGivenNames -underBinder -merge x2
  have h2 : Kept s x2 := by
    dsimp -zeta only [x2]
    refine Kept.trans ?_ (State.modDie_kept ..)
    exact h1
  try clear_value x2
  refine Kept.trans ?_ (State.modJob_kept ..)
  exact h2

/-- What State.noteClock keeps. -/
theorem State.noteClock_kept : ∀ s v1, Kept s (State.noteClock s v1) := by
  intro s v1
  unfold State.noteClock
  have h1 := Kept.refl s
  refine Kept.ifs (fun _ => ?_) (fun _ => ?_)
  · refine Kept.trans ?_ (State.modDie_kept ..)
    exact h1
  · exact h1

/-- What State.noteClocks keeps. -/
theorem State.noteClocks_kept : ∀ s, Kept s (State.noteClocks s) := by
  intro s
  unfold State.noteClocks
  have h1 := Kept.refl s
  refine Kept.folds _ (fun t1 x1 h2 => ?_) ?_
  · try dsimp -zeta only
    refine Kept.trans ?_ (State.noteClock_kept ..)
    exact h2
  · try dsimp -zeta only
    exact h1

/-- What State.clockSlip keeps. -/
theorem State.clockSlip_kept : ∀ s v1, Kept s (State.clockSlip s v1) := by
  intro s v1
  unfold State.clockSlip
  have h1 := Kept.refl s
  extract_lets +onlyGivenNames -underBinder -merge x1
  have h2 : Kept s x1 := by
    dsimp -zeta only [x1]
    refine Kept.trans ?_ (State.noteClock_kept ..)
    exact h1
  try clear_value x1
  extract_lets +onlyGivenNames -underBinder -merge x2
  try clear_value x2
  refine Kept.ifs (fun _ => ?_) (fun _ => ?_)
  · exact h2
  · refine Kept.ifs (fun _ => ?_) (fun _ => ?_)
    · extract_lets +onlyGivenNames -underBinder -merge x3
      try clear_value x3
      extract_lets +onlyGivenNames -underBinder -merge x4
      have h3 : Kept s x4 := by
        dsimp -zeta only [x4]
        split
        · refine Kept.folds _ (fun t1 x5 h4 => ?_) ?_
          · try dsimp -zeta only
            refine Kept.trans ?_ (State.slipCause_kept ..)
            exact h4
          · try dsimp -zeta only
            refine Kept.trans ?_ (State.slipCause_kept ..)
            exact h2
        · refine Kept.folds _ (fun t2 x6 h5 => ?_) ?_
          · try dsimp -zeta only
            refine Kept.trans ?_ (State.slipCause_kept ..)
            exact h5
          · try dsimp -zeta only
            exact h2
      try clear_value x4
      refine Kept.trans ?_ (State.recordSlip_kept ..)
      refine Kept.trans ?_ (State.modDie_kept ..)
      exact h3
    · refine Kept.trans ?_ (State.noteClock_kept ..)
      refine Kept.trans ?_ (State.modDie_kept ..)
      exact h2

/-- What State.stretchDie keeps. -/
theorem State.stretchDie_kept : ∀ s v1 v2, Kept s (State.stretchDie s v1 v2) := by
  intro s v1 v2
  unfold State.stretchDie
  have h1 := Kept.refl s
  refine Kept.ifs (fun _ => ?_) (fun _ => ?_)
  · exact h1
  · refine Kept.trans ?_ (State.slipEvent_kept ..)
    refine Kept.trans ?_ (State.modDie_kept ..)
    exact h1

/-- What State.resumeDie keeps. -/
theorem State.resumeDie_kept : ∀ s v1, Kept s (State.resumeDie s v1) := by
  intro s v1
  unfold State.resumeDie
  have h1 := Kept.refl s
  refine Kept.trans ?_ (State.modDie_kept ..)
  refine Kept.trans ?_ (State.recordSlip_kept ..)
  exact h1

/-- What State.jobFlags keeps. -/
theorem State.jobFlags_kept : ∀ s v1, Kept s (State.jobFlags s v1) := by
  intro s v1
  unfold State.jobFlags
  have h1 := Kept.refl s
  refine Kept.trans ?_ (State.modJob_kept ..)
  exact h1

/-- What State.setSem keeps. -/
theorem State.setSem_kept : ∀ s v1 v2 v3, Kept s (State.setSem s v1 v2 v3) := by
  intro s v1 v2 v3
  unfold State.setSem
  have h1 := Kept.refl s
  refine Kept.trans ?_ (State.modDie_kept ..)
  exact h1

/-- What State.semUpdate keeps. -/
theorem State.semUpdate_kept : ∀ s v1 v2 v3 v4, Kept s (State.semUpdate s v1 v2 v3 v4) := by
  intro s v1 v2 v3 v4
  unfold State.semUpdate
  have h1 := Kept.refl s
  refine Kept.trans ?_ (State.release_kept ..)
  refine Kept.trans ?_ (State.setSem_kept ..)
  exact h1

/-- What State.doneSem keeps. -/
theorem State.doneSem_kept : ∀ s v1 v2, Kept s (State.doneSem s v1 v2) := by
  intro s v1 v2
  unfold State.doneSem
  have h1 := Kept.refl s
  refine Kept.ifs (fun _ => ?_) (fun _ => ?_)
  · exact h1
  · refine Kept.trans ?_ (State.semUpdate_kept ..)
    exact h1

/-- What State.wqRecord keeps. -/
theorem State.wqRecord_kept : ∀ s v1 v2 v3 v4 v5, Kept s (State.wqRecord s v1 v2 v3 v4 v5) := by
  intro s v1 v2 v3 v4 v5
  unfold State.wqRecord
  have h1 := Kept.refl s
  extract_lets +onlyGivenNames -underBinder -merge x1
  try clear_value x1
  extract_lets +onlyGivenNames -underBinder -merge x2
  have h2 : Kept s x2 := by
    dsimp -zeta only [x2]
    refine Kept.ifs (fun _ => ?_) (fun _ => ?_)
    · refine Kept.trans ?_ (State.release_kept ..)
      refine Kept.trans ?_ (State.writeMem_kept ..)
      exact h1
    · exact h1
  try clear_value x2
  refine Kept.ifs (fun _ => ?_) (fun _ => ?_)
  · refine Kept.trans ?_ (State.sendMsix_kept ..)
    exact h2
  · exact h2

/-- What State.wqStop keeps. -/
theorem State.wqStop_kept : ∀ s v1 v2 v3 v4, Kept s (State.wqStop s v1 v2 v3 v4) := by
  intro s v1 v2 v3 v4
  unfold State.wqStop
  have h1 := Kept.refl s
  refine Kept.trans ?_ (State.dieEvent_kept ..)
  refine Kept.trans ?_ (State.modWq_kept ..)
  exact h1

/-- What State.mapWork keeps. -/
theorem State.mapWork_kept : ∀ s v1 v2, Kept s (State.mapWork s v1 v2) := by
  intro s v1 v2
  unfold State.mapWork
  have h569 := Kept.refl s
  exact Kept.of (t := s) rfl rfl rfl rfl rfl h569

/-- What State.jobEvent keeps. -/
theorem State.jobEvent_kept : ∀ s, Kept s (State.jobEvent s) := by
  intro s
  unfold State.jobEvent
  have h1 := Kept.refl s
  split
  · refine Kept.trans ?_ (State.hdEvent_kept ..)
    exact h1
  · exact h1

/-- What State.jobEnds keeps. -/
theorem State.jobEnds_kept : ∀ s v1 v2, Kept s (State.jobEnds s v1 v2) := by
  intro s v1 v2
  unfold State.jobEnds
  have h1 := Kept.refl s
  extract_lets +onlyGivenNames -underBinder -merge x1
  try clear_value x1
  extract_lets +onlyGivenNames -underBinder -merge x2
  have h2 : Kept s x2 := by
    dsimp -zeta only [x2]
    refine Kept.trans ?_ (State.modJob_kept ..)
    exact h1
  try clear_value x2
  refine Kept.ifs (fun _ => ?_) (fun _ => ?_)
  · exact h2
  · refine Kept.trans ?_ (State.jobEvent_kept ..)
    exact h2

/-- What State.closeSlip keeps. -/
theorem State.closeSlip_kept : ∀ s, Kept s (State.closeSlip s) := by
  intro s
  unfold State.closeSlip
  have h1 := Kept.refl s
  refine Kept.folds _ (fun t1 x1 h2 => ?_) ?_
  · try dsimp -zeta only
    extract_lets +onlyGivenNames -underBinder -merge x2
    have h3 : Kept s x2 := by
      dsimp -zeta only [x2]
      refine Kept.ifs (fun _ => ?_) (fun _ => ?_)
      · refine Kept.trans ?_ (State.clockSlip_kept ..)
        exact h2
      · exact h2
    try clear_value x2
    refine Kept.ifs (fun _ => ?_) (fun _ => ?_)
    · refine Kept.trans ?_ (State.recordSlip_kept ..)
      exact h3
    · exact h3
  · try dsimp -zeta only
    exact h1

/-- What State.jobStop keeps. -/
theorem State.jobStop_kept : ∀ s v1, Kept s (State.jobStop s v1) := by
  intro s v1
  unfold State.jobStop
  have h1 := Kept.refl s
  extract_lets +onlyGivenNames -underBinder -merge x1
  have h2 : Kept s x1 := by
    dsimp -zeta only [x1]
    refine Kept.trans ?_ (State.closeSlip_kept ..)
    exact h1
  try clear_value x1
  extract_lets +onlyGivenNames -underBinder -merge x2
  try clear_value x2
  extract_lets +onlyGivenNames -underBinder -merge x3
  have h3 : Kept s x3 := by
    dsimp -zeta only [x3]
    refine Kept.folds _ (fun t1 x4 h4 => ?_) ?_
    · try dsimp -zeta only
      refine Kept.trans ?_ (State.send_kept ..)
      exact h4
    · try dsimp -zeta only
      exact h2
  try clear_value x3
  refine Kept.trans ?_ (State.jobEnds_kept ..)
  refine Kept.trans ?_ (State.mapWork_kept ..)
  exact h3

/-- What State.stopCheck keeps. -/
theorem State.stopCheck_kept : ∀ s, Kept s (State.stopCheck s) := by
  intro s
  unfold State.stopCheck
  have h1 := Kept.refl s
  refine Kept.ifs (fun _ => ?_) (fun _ => ?_)
  · refine Kept.trans ?_ (State.jobStop_kept ..)
    exact h1
  · exact h1

/-- What State.jobFail keeps. -/
theorem State.jobFail_kept : ∀ s v1 v2 v3, Kept s (State.jobFail s v1 v2 v3) := by
  intro s v1 v2 v3
  unfold State.jobFail
  have h1 := Kept.refl s
  split
  · refine Kept.ifs (fun _ => ?_) (fun _ => ?_)
    · refine Kept.trans ?_ (State.stopCheck_kept ..)
      refine Kept.trans ?_ (State.modJob_kept ..)
      exact h1
    · exact h1
  · exact h1

/-- What State.jobCheck keeps. -/
theorem State.jobCheck_kept : ∀ s, Kept s (State.jobCheck s) := by
  intro s
  unfold State.jobCheck
  have h1 := Kept.refl s
  refine Kept.ifs (fun _ => ?_) (fun _ => ?_)
  · extract_lets +onlyGivenNames -underBinder -merge x1
    have h2 : Kept s x1 := by
      dsimp -zeta only [x1]
      refine Kept.trans ?_ (State.closeSlip_kept ..)
      exact h1
    try clear_value x1
    extract_lets +onlyGivenNames -underBinder -merge x2
    have h3 : Kept s x2 := by
      dsimp -zeta only [x2]
      refine Kept.trans ?_ (State.mapWork_kept ..)
      exact h2
    try clear_value x2
    refine Kept.trans ?_ (State.jobEvent_kept ..)
    refine Kept.trans ?_ (State.modJob_kept ..)
    exact h3
  · exact h1

/-- What State.retire keeps. -/
theorem State.retire_kept : ∀ s v1 v2, Kept s (State.retire s v1 v2) := by
  intro s v1 v2
  unfold State.retire
  have h1 := Kept.refl s
  refine Kept.trans ?_ (State.modDie_kept ..)
  exact h1

/-- What State.signal keeps. -/
theorem State.signal_kept : ∀ s v1 v2 v3, Kept s (State.signal s v1 v2 v3) := by
  intro s v1 v2 v3
  unfold State.signal
  have h1 := Kept.refl s
  extract_lets +onlyGivenNames -underBinder -merge x1
  try clear_value x1
  extract_lets +onlyGivenNames -underBinder -merge x2
  try clear_value x2
  extract_lets +onlyGivenNames -underBinder -merge x3
  try clear_value x3
  split
  · refine Kept.trans ?_ (State.semUpdate_kept ..)
    exact h1
  · refine Kept.trans ?_ (State.semUpdate_kept ..)
    exact h1
  · extract_lets +onlyGivenNames -underBinder -merge x4
    try clear_value x4
    extract_lets +onlyGivenNames -underBinder -merge x5
    have h2 : Kept s x5 := by
      dsimp -zeta only [x5]
      refine Kept.trans ?_ (State.modDie_kept ..)
      exact h1
    try clear_value x5
    refine Kept.trans ?_ (State.send_kept ..)
    exact h2

/-- What State.fenceRun keeps. -/
theorem State.fenceRun_kept : ∀ d n src s, Kept s (State.fenceRun d n src s) := by
  intro d n
  induction n with
  | zero => intro src s; exact .refl s
  | succ n ih =>
    intro src s
    unfold State.fenceRun
    extract_lets +onlyGivenNames u ready v
    have hv : Kept s v := (State.modDie_kept ..).trans (State.modDie_kept ..)
    clear_value ready v
    refine Kept.folds _ (fun t f h => ?_) hv
    extract_lets +onlyGivenNames x
    have hx : Kept s x := h.trans (State.signal_kept ..)
    clear_value x
    refine Kept.ifs (fun _ => hx) (fun _ => ?_)
    extract_lets +onlyGivenNames y z
    have hy : Kept s y := hx.trans (State.doneSem_kept ..)
    clear_value y
    have hz : Kept s z := by
      dsimp -zeta only [z]
      split
      · exact hy.trans (State.wqRecord_kept ..)
      · exact hy
    exact hz.trans (ih _ _)

/-- What State.fenceCheck keeps. -/
theorem State.fenceCheck_kept : ∀ s v1 v2, Kept s (State.fenceCheck s v1 v2) := by
  intro s v1 v2
  unfold State.fenceCheck
  have h1 := Kept.refl s
  refine Kept.trans ?_ (State.fenceRun_kept ..)
  exact h1

/-- What State.finish keeps. -/
theorem State.finish_kept : ∀ s v1 v2 v3 v4, Kept s (State.finish s v1 v2 v3 v4) := by
  intro s v1 v2 v3 v4
  unfold State.finish
  have h1 := Kept.refl s
  extract_lets +onlyGivenNames -underBinder -merge x1
  have h2 : Kept s x1 := by
    dsimp -zeta only [x1]
    refine Kept.trans ?_ (State.retire_kept ..)
    exact h1
  try clear_value x1
  split
  · refine Kept.ifs (fun _ => ?_) (fun _ => ?_)
    · refine Kept.trans ?_ (State.jobCheck_kept ..)
      refine Kept.trans ?_ (State.fenceCheck_kept ..)
      refine Kept.trans ?_ (State.release_kept ..)
      refine Kept.trans ?_ (State.doneSem_kept ..)
      exact h2
    · refine Kept.trans ?_ (State.jobFail_kept ..)
      exact h2
  · extract_lets +onlyGivenNames -underBinder -merge x2
    have h3 : Kept s x2 := by
      dsimp -zeta only [x2]
      refine Kept.ifs (fun _ => ?_) (fun _ => ?_)
      · refine Kept.trans ?_ (State.release_kept ..)
        refine Kept.trans ?_ (State.doneSem_kept ..)
        exact h2
      · exact h2
    try clear_value x2
    extract_lets +onlyGivenNames -underBinder -merge x3
    have h4 : Kept s x3 := by
      dsimp -zeta only [x3]
      refine Kept.trans ?_ (State.wqRecord_kept ..)
      exact h3
    try clear_value x3
    extract_lets +onlyGivenNames -underBinder -merge x4
    have h5 : Kept s x4 := by
      dsimp -zeta only [x4]
      refine Kept.ifs (fun _ => ?_) (fun _ => ?_)
      · exact h4
      · refine Kept.trans ?_ (State.wqStop_kept ..)
        exact h4
    try clear_value x4
    refine Kept.trans ?_ (State.fenceCheck_kept ..)
    exact h5

/-! ## Kernel -/

/-- What State.groupFault keeps. -/
theorem State.groupFault_kept : ∀ s v1 v2 v3 v4 v5, Kept s (State.groupFault s v1 v2 v3 v4 v5) := by
  intro s v1 v2 v3 v4 v5
  unfold State.groupFault
  have h1 := Kept.refl s
  extract_lets +onlyGivenNames -underBinder -merge x1
  have h2 : Kept s x1 := by
    dsimp -zeta only [x1]
    refine Kept.trans ?_ (State.modTile_kept ..)
    exact h1
  try clear_value x1
  refine Kept.trans ?_ (State.dieEvent_kept ..)
  exact h2

/-- What State.modFlight keeps. -/
theorem State.modFlight_kept : ∀ s v1 v2 v3, Kept s (State.modFlight s v1 v2 v3) := by
  intro s v1 v2 v3
  unfold State.modFlight
  have h1 := Kept.refl s
  refine Kept.trans ?_ (State.modDie_kept ..)
  exact h1

/-- What State.flightStatus keeps. -/
theorem State.flightStatus_kept : ∀ s v1 v2 v3, Kept s (State.flightStatus s v1 v2 v3) := by
  intro s v1 v2 v3
  unfold State.flightStatus
  have h1 := Kept.refl s
  refine Kept.trans ?_ (State.modFlight_kept ..)
  exact h1

/-- What State.descFlags keeps. -/
theorem State.descFlags_kept : ∀ s v1 v2, Kept s (State.descFlags s v1 v2) := by
  intro s v1 v2
  unfold State.descFlags
  have h1 := Kept.refl s
  refine Kept.ifs (fun _ => ?_) (fun _ => ?_)
  · refine Kept.trans ?_ (State.jobFlags_kept ..)
    exact h1
  · exact h1

/-! ## Effects -/

/-- What readRowsGo keeps. -/
theorem readRowsGo_kept : ∀ acc x rep step mxStep l s, Kept s (readRowsGo acc x rep step mxStep l s).2 := by
  intro acc x rep step mxStep l
  induction l with
  | nil => intro s; exact .refl s
  | cons r rs ih =>
    intro s
    unfold readRowsGo
    have h := State.readMem_kept s acc (physOf (x.rowAddr rep step r)) x.rowBytes
    split
    · rename_i e u q
      rw [q] at h
      exact h
    · rename_i b u q
      rw [q] at h
      have g : Kept s (if x.fmt.isMx then u.readMem acc (physOf (x.scaleAddr rep mxStep r)) (x.dim 0 / 32) else (.ok [], u)).2 :=
        Kept.ite Prod.snd (fun _ => h.trans (State.readMem_kept _ _ _ _)) (fun _ => h)
      split
      · rename_i e w q2
        rw [q2] at g
        exact g
      · rename_i m w q2
        rw [q2] at g
        have i := ih w
        split
        · rename_i k z q3
          rw [q3] at i
          exact g.trans i
        · rename_i e z q3
          rw [q3] at i
          exact g.trans i

/-- What State.readRows keeps. -/
theorem State.readRows_kept : ∀ s v1 v2 v3 v4 v5 v6 v7, Kept s ((State.readRows s v1 v2 v3 v4 v5 v6 v7).2) := by
  intro s v1 v2 v3 v4 v5 v6 v7
  unfold State.readRows
  have h1 := Kept.refl s
  split
  · refine Kept.trans ?_ (readRowsGo_kept ..)
    exact h1
  · refine Kept.ite Prod.snd (fun _ => ?_) (fun _ => ?_)
    · try dsimp -zeta only
      exact h1
    · try dsimp -zeta only
      exact h1
  · refine Kept.ite Prod.snd (fun _ => ?_) (fun _ => ?_)
    · try dsimp -zeta only
      exact h1
    · try dsimp -zeta only
      exact h1

/-- What writePieces keeps. -/
theorem writePieces_kept : ∀ acc l s, Kept s (writePieces acc l s).2 := by
  intro acc l
  induction l with
  | nil => intro s; exact .refl s
  | cons x r ih =>
    intro s
    obtain ⟨a, l⟩ := x
    unfold writePieces
    have h := State.writeMem_kept s acc a l
    split
    · rename_i u q
      rw [q] at h
      exact h.trans (ih _)
    · rename_i e u q
      rw [q] at h
      exact h

/-- What State.writeRows keeps. -/
theorem State.writeRows_kept : ∀ s v1 v2 v3 v4 v5 v6 v7 v8, Kept s ((State.writeRows s v1 v2 v3 v4 v5 v6 v7 v8).2) := by
  intro s v1 v2 v3 v4 v5 v6 v7 v8
  unfold State.writeRows
  have h1 := Kept.refl s
  extract_lets +onlyGivenNames -underBinder -merge x1
  try clear_value x1
  extract_lets +onlyGivenNames -underBinder -merge x2
  try clear_value x2
  split
  · refine Kept.trans ?_ (writePieces_kept ..)
    exact h1
  · try dsimp -zeta only
    refine Kept.trans ?_ (State.modTile_kept ..)
    exact h1
  · try dsimp -zeta only
    refine Kept.trans ?_ (State.modTile_kept ..)
    exact h1

/-- What State.scratchPlates keeps. -/
theorem State.scratchPlates_kept : ∀ s v1 v2 v3, Kept s (State.scratchPlates s v1 v2 v3) := by
  intro s v1 v2 v3
  unfold State.scratchPlates
  have h1 := Kept.refl s
  refine Kept.folds _ (fun t1 x1 h2 => ?_) ?_
  · try dsimp -zeta only
    extract_lets +onlyGivenNames -underBinder -merge x2
    have h3 : Kept s x2 := by
      dsimp -zeta only [x2]
      refine Kept.trans ?_ (State.modTile_kept ..)
      exact h2
    try clear_value x2
    exact Kept.of (t := x2) rfl rfl rfl rfl rfl h3
  · try dsimp -zeta only
    exact h1

/-- What State.vloopTile keeps. -/
theorem State.vloopTile_kept : ∀ s v1 v2 v3, Kept s ((State.vloopTile s v1 v2 v3).2) := by
  intro s v1 v2 v3
  unfold State.vloopTile
  have h1 := Kept.refl s
  split
  · extract_lets +onlyGivenNames -underBinder -merge x1
    try clear_value x1
    refine Kept.ite Prod.snd (fun _ => ?_) (fun _ => ?_)
    · try dsimp -zeta only
      exact h1
    · split
      · extract_lets +onlyGivenNames -underBinder -merge x2
        have h2 : Kept s x2 := by
          dsimp -zeta only [x2]
          refine Kept.trans ?_ (State.modTile_kept ..)
          exact h1
        try clear_value x2
        try dsimp -zeta only
        refine Kept.trans ?_ (State.scratchPlates_kept ..)
        refine Kept.trans ?_ (State.descFlags_kept ..)
        exact h2
  · try dsimp -zeta only
    exact h1

/-- What sendReads keeps. -/
theorem sendReads_kept : ∀ d t src node key l off s, Kept s (sendReads d t src node key l off s).2 := by
  intro d t src node key l
  induction l with
  | nil => intro off s; exact .refl s
  | cons x r ih =>
    intro off s
    obtain ⟨a, n⟩ := x
    unfold sendReads
    extract_lets +onlyGivenNames tag
    split
    rename_i ok u q
    have h : Kept s u := by
      have e := congrArg Prod.snd q
      dsimp only at e
      rw [← e]
      exact State.send_kept ..
    extract_lets v
    have g : Kept s v := h.trans (State.modDie_kept ..)
    exact Kept.ite Prod.snd (fun _ => g.trans (ih _ _)) (fun _ => g)

/-- What sendWrites keeps. -/
theorem sendWrites_kept : ∀ d t src node key l s, Kept s (sendWrites d t src node key l s).2 := by
  intro d t src node key l
  induction l with
  | nil => intro s; exact .refl s
  | cons x r ih =>
    intro s
    obtain ⟨a, n⟩ := x
    unfold sendWrites
    extract_lets +onlyGivenNames tag
    split
    rename_i ok u q
    have h : Kept s u := by
      have e := congrArg Prod.snd q
      dsimp only at e
      rw [← e]
      exact State.send_kept ..
    extract_lets v
    have g : Kept s v := h.trans (State.modDie_kept ..)
    exact Kept.ite Prod.snd (fun _ => g.trans (ih _)) (fun _ => g)

/-- What gatherLines keeps. -/
theorem gatherLines_kept : ∀ acc l s, Kept s (gatherLines acc l s).2 := by
  intro acc l
  induction l with
  | nil => intro s; exact .refl s
  | cons x r ih =>
    intro s
    cases x with
    | none => exact .refl s
    | some a =>
      unfold gatherLines
      have h := State.readMem_kept s acc a 128
      split
      · rename_i e u q
        rw [q] at h
        exact h
      · rename_i b u q
        rw [q] at h
        have i := ih u
        split
        · rename_i k z q3
          rw [q3] at i
          exact h.trans i
        · rename_i e z q3
          rw [q3] at i
          exact h.trans i

/-- What readScales keeps. -/
theorem readScales_kept : ∀ acc x rep step l s, Kept s (readScales acc x rep step l s).2 := by
  intro acc x rep step l
  induction l with
  | nil => intro s; exact .refl s
  | cons r rs ih =>
    intro s
    unfold readScales
    have h := State.readMem_kept s acc (physOf (x.scaleAddr rep step r)) (x.dim 0 / 32)
    split
    · rename_i e u q
      rw [q] at h
      exact h
    · rename_i b u q
      rw [q] at h
      have i := ih u
      split
      · rename_i k z q3
        rw [q3] at i
        exact h.trans i
      · rename_i e z q3
        rw [q3] at i
        exact h.trans i

/-- What State.moveSource keeps. -/
theorem State.moveSource_kept : ∀ s v1 v2 v3 v4 v5 v6, Kept s ((State.moveSource s v1 v2 v3 v4 v5 v6).2) := by
  intro s v1 v2 v3 v4 v5 v6
  unfold State.moveSource
  have h1 := Kept.refl s
  extract_lets +onlyGivenNames -underBinder -merge x1
  try clear_value x1
  extract_lets +onlyGivenNames -underBinder -merge x2
  try clear_value x2
  extract_lets +onlyGivenNames -underBinder -merge x3
  try clear_value x3
  refine Kept.ite Prod.snd (fun _ => ?_) (fun _ => ?_)
  · refine Kept.ite Prod.snd (fun _ => ?_) (fun _ => ?_)
    · try dsimp -zeta only
      exact h1
    · split
      · rename_i a1 a2 q1
        have h2 : Kept s a2 := by
          have e := congrArg Prod.snd q1
          dsimp only at e
          rw [← e]
          refine Kept.trans ?_ (gatherLines_kept ..)
          exact h1
        try dsimp -zeta only
        exact h2
      · rename_i a3 a4 q2
        have h3 : Kept s a4 := by
          have e := congrArg Prod.snd q2
          dsimp only at e
          rw [← e]
          refine Kept.trans ?_ (gatherLines_kept ..)
          exact h1
        split
        · rename_i a5 a6 q3
          have h4 : Kept s a6 := by
            have e := congrArg Prod.snd q3
            dsimp only at e
            rw [← e]
            refine Kept.ite Prod.snd (fun _ => ?_) (fun _ => ?_)
            · refine Kept.trans ?_ (readScales_kept ..)
              exact h3
            · try dsimp -zeta only
              exact h3
          try dsimp -zeta only
          exact h4
        · rename_i a7 a8 q4
          have h5 : Kept s a8 := by
            have e := congrArg Prod.snd q4
            dsimp only at e
            rw [← e]
            refine Kept.ite Prod.snd (fun _ => ?_) (fun _ => ?_)
            · refine Kept.trans ?_ (readScales_kept ..)
              exact h3
            · try dsimp -zeta only
              exact h3
          try dsimp -zeta only
          exact h5
  · refine Kept.trans ?_ (State.readRows_kept ..)
    exact h1

/-- What State.moveStore keeps. -/
theorem State.moveStore_kept : ∀ s v1 v2 v3 v4 v5 v6 v7 v8, Kept s ((State.moveStore s v1 v2 v3 v4 v5 v6 v7 v8).2) := by
  intro s v1 v2 v3 v4 v5 v6 v7 v8
  unfold State.moveStore
  have h1 := Kept.refl s
  extract_lets +onlyGivenNames -underBinder -merge x1
  try clear_value x1
  split
  · extract_lets +onlyGivenNames -underBinder -merge x2
    have h2 : Kept s x2 := by
      dsimp -zeta only [x2]
      exact Kept.of (t := s) rfl rfl rfl rfl rfl h1
    try clear_value x2
    extract_lets +onlyGivenNames -underBinder -merge x3
    have h3 : Kept s x3 := by
      dsimp -zeta only [x3]
      refine Kept.trans ?_ (State.descFlags_kept ..)
      exact h2
    try clear_value x3
    extract_lets +onlyGivenNames -underBinder -merge x4
    try clear_value x4
    extract_lets +onlyGivenNames -underBinder -merge x5
    try clear_value x5
    refine Kept.ite Prod.snd (fun _ => ?_) (fun _ => ?_)
    · extract_lets +onlyGivenNames -underBinder -merge x6
      try clear_value x6
      extract_lets +onlyGivenNames -underBinder -merge x7
      have h4 : Kept s x7 := by
        dsimp -zeta only [x7]
        exact Kept.of (t := x3) rfl rfl rfl rfl rfl h3
      try clear_value x7
      extract_lets +onlyGivenNames -underBinder -merge x8
      try clear_value x8
      extract_lets +onlyGivenNames -underBinder -merge x9
      try clear_value x9
      try dsimp -zeta only
      refine Kept.trans ?_ (State.modTile_kept ..)
      exact h4
    · refine Kept.ite Prod.snd (fun _ => ?_) (fun _ => ?_)
      · extract_lets +onlyGivenNames -underBinder -merge x10
        try clear_value x10
        split
        · rename_i a1 a2 q1
          have h5 : Kept s a2 := by
            have e := congrArg Prod.snd q1
            dsimp only at e
            rw [← e]
            refine Kept.trans ?_ (sendWrites_kept ..)
            exact h3
          try dsimp -zeta only
          exact h5
      · refine Kept.trans ?_ (State.writeRows_kept ..)
        exact h3

/-- What State.moveTile keeps. -/
theorem State.moveTile_kept : ∀ s v1 v2 v3 v4, Kept s ((State.moveTile s v1 v2 v3 v4).2) := by
  intro s v1 v2 v3 v4
  unfold State.moveTile
  have h1 := Kept.refl s
  extract_lets +onlyGivenNames -underBinder -merge x1
  try clear_value x1
  split
  · refine Kept.ite Prod.snd (fun _ => ?_) (fun _ => ?_)
    · refine Kept.ite Prod.snd (fun _ => ?_) (fun _ => ?_)
      · try dsimp -zeta only
        exact h1
      · split
        · split
          · rename_i a1 a2 q1
            have h2 : Kept s a2 := by
              have e := congrArg Prod.snd q1
              dsimp only at e
              rw [← e]
              refine Kept.trans ?_ (sendReads_kept ..)
              exact h1
            try dsimp -zeta only
            exact h2
        · try dsimp -zeta only
          exact h1
    · split
      · rename_i a3 a4 q2
        have h3 : Kept s a4 := by
          have e := congrArg Prod.snd q2
          dsimp only at e
          rw [← e]
          refine Kept.trans ?_ (State.moveSource_kept ..)
          exact h1
        try dsimp -zeta only
        exact h3
      · rename_i a5 a6 q3
        have h4 : Kept s a6 := by
          have e := congrArg Prod.snd q3
          dsimp only at e
          rw [← e]
          refine Kept.trans ?_ (State.moveSource_kept ..)
          exact h1
        refine Kept.trans ?_ (State.moveStore_kept ..)
        exact h4
  · try dsimp -zeta only
    exact h1

/-- What State.moveFinish keeps. -/
theorem State.moveFinish_kept : ∀ s v1 v2 v3 v4, Kept s ((State.moveFinish s v1 v2 v3 v4).2) := by
  intro s v1 v2 v3 v4
  unfold State.moveFinish
  have h1 := Kept.refl s
  split
  · refine Kept.trans ?_ (State.moveStore_kept ..)
    exact h1
  · try dsimp -zeta only
    exact h1

/-- What onTiles keeps. -/
theorem onTiles_kept (f : State → Nat → Nat × State) (hf : ∀ s t, Kept s (f s t).2) : ∀ l s, Kept s (onTiles f l s).2 := by
  intro l
  induction l with
  | nil => intro s; exact .refl s
  | cons t r ih =>
    intro s
    unfold onTiles
    have h := hf s t
    split
    · rename_i u q
      rw [q] at h
      exact h.trans (ih _)
    · rename_i e u _ q
      rw [q] at h
      exact h

/-- What State.applyEffect keeps. -/
theorem State.applyEffect_kept : ∀ s v1 v2, Kept s (State.applyEffect s v1 v2) := by
  intro s v1 v2
  unfold State.applyEffect
  have h1 := Kept.refl s
  extract_lets +onlyGivenNames -underBinder -merge x1
  try clear_value x1
  split
  · rename_i a1 a2 q1
    have h2 : Kept s a2 := by
      have e := congrArg Prod.snd q1
      dsimp only at e
      rw [← e]
      refine Kept.ite Prod.snd (fun _ => ?_) (fun _ => ?_)
      · refine Kept.trans ?_ (onTiles_kept _ (?_) _ _)
        · exact h1
        · intro t1 y1
          try dsimp -zeta only
          have h3 := Kept.refl t1
          refine Kept.trans ?_ (State.vloopTile_kept ..)
          exact h3
      · refine Kept.trans ?_ (onTiles_kept _ (?_) _ _)
        · exact h1
        · intro t2 y2
          try dsimp -zeta only
          have h4 := Kept.refl t2
          refine Kept.trans ?_ (State.moveTile_kept ..)
          exact h4
    extract_lets +onlyGivenNames -underBinder -merge x2
    try clear_value x2
    refine Kept.trans ?_ (State.flightStatus_kept ..)
    refine Kept.trans ?_ (State.modFlight_kept ..)
    exact h2

/-- What State.readCeil keeps. -/
theorem State.readCeil_kept : ∀ s v1 v2 v3 v4 v5 v6, Kept s ((State.readCeil s v1 v2 v3 v4 v5 v6).2) := by
  intro s v1 v2 v3 v4 v5 v6
  unfold State.readCeil
  have h1 := Kept.refl s
  extract_lets +onlyGivenNames -underBinder -merge x1
  try clear_value x1
  extract_lets +onlyGivenNames -underBinder -merge x2
  try clear_value x2
  refine Kept.ite Prod.snd (fun _ => ?_) (fun _ => ?_)
  · refine Kept.ite Prod.snd (fun _ => ?_) (fun _ => ?_)
    · try dsimp -zeta only
      exact h1
    · try dsimp -zeta only
      exact h1
  · split
    · rename_i a1 a2 q1
      have h2 : Kept s a2 := by
        have e := congrArg Prod.snd q1
        dsimp only at e
        rw [← e]
        refine Kept.trans ?_ (State.readMem_kept ..)
        exact h1
      try dsimp -zeta only
      exact h2
    · rename_i a3 a4 q2
      have h3 : Kept s a4 := by
        have e := congrArg Prod.snd q2
        dsimp only at e
        rw [← e]
        refine Kept.trans ?_ (State.readMem_kept ..)
        exact h1
      try dsimp -zeta only
      exact h3

/-- What State.blockStart keeps. -/
theorem State.blockStart_kept : ∀ s v1 v2 v3 v4 v5, Kept s ((State.blockStart s v1 v2 v3 v4 v5).2) := by
  intro s v1 v2 v3 v4 v5
  unfold State.blockStart
  have h1 := Kept.refl s
  extract_lets +onlyGivenNames -underBinder -merge x1
  try clear_value x1
  extract_lets +onlyGivenNames -underBinder -merge x2
  try clear_value x2
  extract_lets +onlyGivenNames -underBinder -merge x3
  try clear_value x3
  extract_lets +onlyGivenNames -underBinder -merge x4
  try clear_value x4
  refine Kept.ite Prod.snd (fun _ => ?_) (fun _ => ?_)
  · try dsimp -zeta only
    exact h1
  · extract_lets +onlyGivenNames -underBinder -merge x5
    try clear_value x5
    refine Kept.ite Prod.snd (fun _ => ?_) (fun _ => ?_)
    · split
      · rename_i a1 a2 q1
        have h2 : Kept s a2 := by
          have e := congrArg Prod.snd q1
          dsimp only at e
          rw [← e]
          refine Kept.trans ?_ (State.readCeil_kept ..)
          exact h1
        try dsimp -zeta only
        exact h2
      · rename_i a3 a4 q2
        have h3 : Kept s a4 := by
          have e := congrArg Prod.snd q2
          dsimp only at e
          rw [← e]
          refine Kept.trans ?_ (State.readCeil_kept ..)
          exact h1
        split
        · rename_i a5 a6 q3
          have h4 : Kept s a6 := by
            have e := congrArg Prod.snd q3
            dsimp only at e
            rw [← e]
            refine Kept.trans ?_ (State.readCeil_kept ..)
            exact h3
          try dsimp -zeta only
          exact h4
        · rename_i a7 a8 q4
          have h5 : Kept s a8 := by
            have e := congrArg Prod.snd q4
            dsimp only at e
            rw [← e]
            refine Kept.trans ?_ (State.readCeil_kept ..)
            exact h3
          try dsimp -zeta only
          exact h5
    · try dsimp -zeta only
      exact h1

/-- What State.tileDone keeps. -/
theorem State.tileDone_kept : ∀ s v1 v2 v3, Kept s (State.tileDone s v1 v2 v3) := by
  intro s v1 v2 v3
  unfold State.tileDone
  have h1 := Kept.refl s
  refine Kept.trans ?_ (State.modFlight_kept ..)
  exact h1

/-- What State.kStep keeps. -/
theorem State.kStep_kept : ∀ s v1 v2, Kept s (State.kStep s v1 v2) := by
  intro s v1 v2
  unfold State.kStep
  have h1 := Kept.refl s
  extract_lets +onlyGivenNames -underBinder -merge x1
  try clear_value x1
  split
  · exact h1
  · split
    · exact h1
    · refine Kept.ifs (fun _ => ?_) (fun _ => ?_)
      · exact h1
      · extract_lets +onlyGivenNames -underBinder -merge x2
        try clear_value x2
        extract_lets +onlyGivenNames -underBinder -merge x3
        try clear_value x3
        extract_lets +onlyGivenNames -underBinder -merge x4
        try clear_value x4
        extract_lets +onlyGivenNames -underBinder -merge x5
        try clear_value x5
        extract_lets +onlyGivenNames -underBinder -merge x6
        try clear_value x6
        extract_lets +onlyGivenNames -underBinder -merge x7
        try clear_value x7
        extract_lets +onlyGivenNames -underBinder -merge x8
        try clear_value x8
        extract_lets +onlyGivenNames -underBinder -merge x9
        refine Kept.ifs (fun _ => ?_) (fun _ => ?_)
        · dsimp -zeta only [x9]
          refine Kept.trans ?_ (State.tileDone_kept ..)
          refine Kept.trans ?_ (State.modTile_kept ..)
          exact h1
        · split
          · rename_i a1 a2 q1
            have h2 : Kept s a2 := by
              have e := congrArg Prod.snd q1
              dsimp only at e
              rw [← e]
              refine Kept.ite Prod.snd (fun _ => ?_) (fun _ => ?_)
              · refine Kept.trans ?_ (State.blockStart_kept ..)
                exact h1
              · try dsimp -zeta only
                exact h1
            dsimp -zeta only [x9]
            refine Kept.trans ?_ (State.tileDone_kept ..)
            refine Kept.trans ?_ (State.modTile_kept ..)
            exact h2
          · rename_i a3 a4 q2
            have h3 : Kept s a4 := by
              have e := congrArg Prod.snd q2
              dsimp only at e
              rw [← e]
              refine Kept.ite Prod.snd (fun _ => ?_) (fun _ => ?_)
              · refine Kept.trans ?_ (State.blockStart_kept ..)
                exact h1
              · try dsimp -zeta only
                exact h1
            split
            · extract_lets +onlyGivenNames -underBinder -merge x10
              try clear_value x10
              extract_lets +onlyGivenNames -underBinder -merge x11
              have h4 : Kept s x11 := by
                dsimp -zeta only [x11]
                refine Kept.trans ?_ (State.modTile_kept ..)
                exact h3
              try clear_value x11
              extract_lets +onlyGivenNames -underBinder -merge x12
              have h5 : Kept s x12 := by
                dsimp -zeta only [x12]
                refine Kept.trans ?_ (State.descFlags_kept ..)
                exact h4
              try clear_value x12
              refine Kept.ifs (fun _ => ?_) (fun _ => ?_)
              · refine Kept.trans ?_ (State.modTile_kept ..)
                exact h5
              · split
                · extract_lets +onlyGivenNames -underBinder -merge x13
                  have h6 : Kept s x13 := by
                    dsimp -zeta only [x13]
                    refine Kept.trans ?_ (State.descFlags_kept ..)
                    exact h5
                  try clear_value x13
                  extract_lets +onlyGivenNames -underBinder -merge x14
                  try clear_value x14
                  extract_lets +onlyGivenNames -underBinder -merge x15
                  try clear_value x15
                  extract_lets +onlyGivenNames -underBinder -merge x16
                  try clear_value x16
                  extract_lets +onlyGivenNames -underBinder -merge x17
                  have h7 : Kept s x17 := by
                    dsimp -zeta only [x17]
                    refine Kept.trans ?_ (State.modTile_kept ..)
                    exact h6
                  try clear_value x17
                  refine Kept.ifs (fun _ => ?_) (fun _ => ?_)
                  · refine Kept.trans ?_ (State.tileDone_kept ..)
                    exact h7
                  · exact h7

/-! ## Coll -/

/-- What State.rankTable keeps. -/
theorem State.rankTable_kept : ∀ s v1 v2 v3, Kept s ((State.rankTable s v1 v2 v3).2) := by
  intro s v1 v2 v3
  unfold State.rankTable
  have h1 := Kept.refl s
  split
  · try dsimp -zeta only
    exact h1
  · extract_lets +onlyGivenNames -underBinder -merge x1
    try clear_value x1
    split
    · rename_i a1 a2 q1
      have h2 : Kept s a2 := by
        have e := congrArg Prod.snd q1
        dsimp only at e
        rw [← e]
        refine Kept.trans ?_ (State.readMem_kept ..)
        exact h1
      try dsimp -zeta only
      exact h2
    · rename_i a3 a4 q2
      have h3 : Kept s a4 := by
        have e := congrArg Prod.snd q2
        dsimp only at e
        rw [← e]
        refine Kept.trans ?_ (State.readMem_kept ..)
        exact h1
      try dsimp -zeta only
      exact h3

/-- What State.modStep keeps. -/
theorem State.modStep_kept : ∀ s v1 v2 v3 v4 v5, Kept s (State.modStep s v1 v2 v3 v4 v5) := by
  intro s v1 v2 v3 v4 v5
  unfold State.modStep
  have h1 := Kept.refl s
  refine Kept.trans ?_ (State.modCe_kept ..)
  exact h1

/-- What State.dropStep keeps. -/
theorem State.dropStep_kept : ∀ s v1 v2 v3, Kept s (State.dropStep s v1 v2 v3) := by
  intro s v1 v2 v3
  unfold State.dropStep
  have h1 := Kept.refl s
  refine Kept.trans ?_ (State.modCe_kept ..)
  exact h1

/-- What State.recordAbort keeps. -/
theorem State.recordAbort_kept : ∀ s v1 v2 v3 v4 v5 v6, Kept s (State.recordAbort s v1 v2 v3 v4 v5 v6) := by
  intro s v1 v2 v3 v4 v5 v6
  unfold State.recordAbort
  have h1 := Kept.refl s
  extract_lets +onlyGivenNames -underBinder -merge x1
  have h2 : Kept s x1 := by
    dsimp -zeta only [x1]
    refine Kept.trans ?_ (State.modCe_kept ..)
    exact h1
  try clear_value x1
  refine Kept.trans ?_ (State.dieEvent_kept ..)
  exact h2

/-- What State.abortHeard keeps. -/
theorem State.abortHeard_kept : ∀ s v1 v2 v3 v4 v5, Kept s (State.abortHeard s v1 v2 v3 v4 v5) := by
  intro s v1 v2 v3 v4 v5
  unfold State.abortHeard
  have h1 := Kept.refl s
  refine Kept.ifs (fun _ => ?_) (fun _ => ?_)
  · exact h1
  · extract_lets +onlyGivenNames -underBinder -merge x1
    try clear_value x1
    extract_lets +onlyGivenNames -underBinder -merge x2
    try clear_value x2
    extract_lets +onlyGivenNames -underBinder -merge x3
    have h2 : Kept s x3 := by
      dsimp -zeta only [x3]
      refine Kept.trans ?_ (State.recordAbort_kept ..)
      exact h1
    try clear_value x3
    extract_lets +onlyGivenNames -underBinder -merge x4
    have h3 : Kept s x4 := by
      dsimp -zeta only [x4]
      refine Kept.folds _ (fun t1 x5 h4 => ?_) ?_
      · try dsimp -zeta only
        refine Kept.trans ?_ (State.dropStep_kept ..)
        exact h4
      · try dsimp -zeta only
        exact h2
    try clear_value x4
    refine Kept.folds _ (fun t2 x6 h5 => ?_) ?_
    · try dsimp -zeta only
      refine Kept.trans ?_ (State.finish_kept ..)
      exact h5
    · try dsimp -zeta only
      exact h3

/-- What State.stepFails keeps. -/
theorem State.stepFails_kept : ∀ s v1 v2 v3 v4, Kept s (State.stepFails s v1 v2 v3 v4) := by
  intro s v1 v2 v3 v4
  unfold State.stepFails
  have h1 := Kept.refl s
  refine Kept.trans ?_ (State.dropStep_kept ..)
  refine Kept.trans ?_ (State.finish_kept ..)
  exact h1

/-- What State.collAbort keeps. -/
theorem State.collAbort_kept : ∀ s v1 v2 v3 v4 v5 v6, Kept s (State.collAbort s v1 v2 v3 v4 v5 v6) := by
  intro s v1 v2 v3 v4 v5 v6
  unfold State.collAbort
  have h1 := Kept.refl s
  extract_lets +onlyGivenNames -underBinder -merge x1
  try clear_value x1
  extract_lets +onlyGivenNames -underBinder -merge x2
  try clear_value x2
  extract_lets +onlyGivenNames -underBinder -merge x3
  try clear_value x3
  extract_lets +onlyGivenNames -underBinder -merge x4
  try clear_value x4
  extract_lets +onlyGivenNames -underBinder -merge x5
  have h2 : Kept s x5 := by
    dsimp -zeta only [x5]
    refine Kept.trans ?_ (State.recordAbort_kept ..)
    exact h1
  try clear_value x5
  extract_lets +onlyGivenNames -underBinder -merge x6
  have h3 : Kept s x6 := by
    dsimp -zeta only [x6]
    refine Kept.trans ?_ (State.sendAll_kept ..)
    exact h2
  try clear_value x6
  extract_lets +onlyGivenNames -underBinder -merge x7
  have h4 : Kept s x7 := by
    dsimp -zeta only [x7]
    refine Kept.folds _ (fun t1 x8 h5 => ?_) ?_
    · try dsimp -zeta only
      refine Kept.trans ?_ (State.dropStep_kept ..)
      exact h5
    · try dsimp -zeta only
      exact h3
  try clear_value x7
  extract_lets +onlyGivenNames -underBinder -merge x9
  have h6 : Kept s x9 := by
    dsimp -zeta only [x9]
    refine Kept.trans ?_ (State.finish_kept ..)
    exact h4
  try clear_value x9
  extract_lets +onlyGivenNames -underBinder -merge x10
  have h7 : Kept s x10 := by
    dsimp -zeta only [x10]
    refine Kept.folds _ (fun t2 x11 h8 => ?_) ?_
    · try dsimp -zeta only
      refine Kept.trans ?_ (State.finish_kept ..)
      exact h8
    · try dsimp -zeta only
      exact h6
  try clear_value x10
  refine Kept.folds _ (fun t3 x12 h9 => ?_) ?_
  · try dsimp -zeta only
    refine Kept.trans ?_ (State.abortHeard_kept ..)
    exact h9
  · try dsimp -zeta only
    exact h7

/-- What readRanges keeps. -/
theorem readRanges_kept : ∀ acc l s, Kept s (readRanges acc l s).2 := by
  intro acc l
  induction l with
  | nil => intro s; exact .refl s
  | cons p r ih =>
    intro s
    obtain ⟨a, n⟩ := p
    unfold readRanges
    have h := State.readMem_kept s acc a n
    split
    · rename_i q; rw [q] at h; exact h
    · rename_i b u q
      rw [q] at h
      have g := ih u
      split
      · rename_i k; rw [k] at g; exact h.trans g
      · rename_i k; rw [k] at g; exact h.trans g

/-- What readParts keeps. -/
theorem readParts_kept : ∀ own d e l rest s, Kept s (readParts own d e l rest s).2 := by
  intro own d e l
  induction l with
  | nil => intro rest s; exact .refl s
  | cons p r ih =>
    intro rest s
    obtain ⟨t, l⟩ := p
    unfold readParts
    extract_lets +onlyGivenNames n
    have h : Kept s (if t.remote then (Except.ok (rest.take n), s) else readRanges (ceAcc own d e t) l s).2 :=
      Kept.ite Prod.snd (fun _ => .refl s) (fun _ => readRanges_kept ..)
    split
    · rename_i q; rw [q] at h; exact h
    · rename_i b u q
      rw [q] at h
      have g := ih (if t.remote then rest.drop n else rest) u
      split
      · rename_i k; rw [k] at g; exact h.trans g
      · rename_i k; rw [k] at g; exact h.trans g

/-- What fetchParts keeps. -/
theorem fetchParts_kept : ∀ d e src l off s, Kept s (fetchParts d e src l off s).2 := by
  intro d e src l
  induction l with
  | nil => intro off s; exact .refl s
  | cons p r ih =>
    intro off s
    obtain ⟨t, l⟩ := p
    unfold fetchParts
    refine Kept.ite Prod.snd (fun _ => ?_) (fun _ => ih _ _)
    have h := sendReads_kept d (128 + e) src (t.base / 2 ^ 48) t.key (splitAll l) off s
    split
    rename_i ok u q
    rw [q] at h
    exact Kept.ite Prod.snd (fun _ => h.trans (ih _ _)) (fun _ => h)

/-- What State.stepBegins keeps. -/
theorem State.stepBegins_kept : ∀ s v1 v2 v3 v4, Kept s (State.stepBegins s v1 v2 v3 v4) := by
  intro s v1 v2 v3 v4
  unfold State.stepBegins
  have h1 := Kept.refl s
  extract_lets +onlyGivenNames -underBinder -merge x1
  try clear_value x1
  extract_lets +onlyGivenNames -underBinder -merge x2
  try clear_value x2
  extract_lets +onlyGivenNames -underBinder -merge x3
  try clear_value x3
  extract_lets +onlyGivenNames -underBinder -merge x4
  try clear_value x4
  extract_lets +onlyGivenNames -underBinder -merge x5
  try clear_value x5
  extract_lets +onlyGivenNames -underBinder -merge x6
  try clear_value x6
  extract_lets +onlyGivenNames -underBinder -merge x7
  try clear_value x7
  extract_lets +onlyGivenNames -underBinder -merge x8
  try clear_value x8
  refine Kept.ifs (fun _ => ?_) (fun _ => ?_)
  · refine Kept.trans ?_ (State.collAbort_kept ..)
    exact h1
  · extract_lets +onlyGivenNames -underBinder -merge x9
    try clear_value x9
    extract_lets +onlyGivenNames -underBinder -merge x10
    try clear_value x10
    extract_lets +onlyGivenNames -underBinder -merge x11
    try clear_value x11
    extract_lets +onlyGivenNames -underBinder -merge x12
    try clear_value x12
    extract_lets +onlyGivenNames -underBinder -merge x13
    have h2 : Kept s x13 := by
      dsimp -zeta only [x13]
      refine Kept.trans ?_ (State.modStep_kept ..)
      exact h1
    try clear_value x13
    refine Kept.ifs (fun _ => ?_) (fun _ => ?_)
    · refine Kept.trans ?_ (State.modCe_kept ..)
      exact h2
    · exact h2

/-- What State.stepStart keeps. -/
theorem State.stepStart_kept : ∀ s v1 v2 v3, Kept s (State.stepStart s v1 v2 v3) := by
  intro s v1 v2 v3
  unfold State.stepStart
  have h1 := Kept.refl s
  extract_lets +onlyGivenNames -underBinder -merge x1
  try clear_value x1
  extract_lets +onlyGivenNames -underBinder -merge x2
  try clear_value x2
  refine Kept.ifs (fun _ => ?_) (fun _ => ?_)
  · refine Kept.trans ?_ (State.collAbort_kept ..)
    exact h1
  · refine Kept.ifs (fun _ => ?_) (fun _ => ?_)
    · split
      · rename_i a1 a2 q1
        have h2 : Kept s a2 := by
          have e := congrArg Prod.snd q1
          dsimp only at e
          rw [← e]
          refine Kept.trans ?_ (fetchParts_kept ..)
          exact h1
        refine Kept.ifs (fun _ => ?_) (fun _ => ?_)
        · refine Kept.trans ?_ (State.modStep_kept ..)
          exact h2
        · refine Kept.trans ?_ (State.stepFails_kept ..)
          exact h2
    · refine Kept.ifs (fun _ => ?_) (fun _ => ?_)
      · exact h1
      · split
        · rename_i a3 a4 q2
          have h3 : Kept s a4 := by
            have e := congrArg Prod.snd q2
            dsimp only at e
            rw [← e]
            refine Kept.trans ?_ (readParts_kept ..)
            exact h1
          refine Kept.trans ?_ (State.stepFails_kept ..)
          exact h3
        · rename_i a5 a6 q3
          have h4 : Kept s a6 := by
            have e := congrArg Prod.snd q3
            dsimp only at e
            rw [← e]
            refine Kept.trans ?_ (readParts_kept ..)
            exact h1
          refine Kept.trans ?_ (State.stepBegins_kept ..)
          exact h4

/-- What State.grantOne keeps. -/
theorem State.grantOne_kept : ∀ s v1 v2 v3 v4, Kept s (State.grantOne s v1 v2 v3 v4) := by
  intro s v1 v2 v3 v4
  unfold State.grantOne
  have h1 := Kept.refl s
  extract_lets +onlyGivenNames -underBinder -merge x1
  try clear_value x1
  split
  · exact h1
  · extract_lets +onlyGivenNames -underBinder -merge x2
    try clear_value x2
    extract_lets +onlyGivenNames -underBinder -merge x3
    try clear_value x3
    extract_lets +onlyGivenNames -underBinder -merge x4
    try clear_value x4
    extract_lets +onlyGivenNames -underBinder -merge x5
    try clear_value x5
    refine Kept.ifs (fun _ => ?_) (fun _ => ?_)
    · exact h1
    · extract_lets +onlyGivenNames -underBinder -merge x6
      try clear_value x6
      extract_lets +onlyGivenNames -underBinder -merge x7
      have h2 : Kept s x7 := by
        dsimp -zeta only [x7]
        refine Kept.trans ?_ (State.send_kept ..)
        exact h1
      try clear_value x7
      refine Kept.trans ?_ (State.modStep_kept ..)
      exact h2

/-- What State.grantAll keeps. -/
theorem State.grantAll_kept : ∀ s v1 v2 v3, Kept s (State.grantAll s v1 v2 v3) := by
  intro s v1 v2 v3
  unfold State.grantAll
  have h1 := Kept.refl s
  refine Kept.ifs (fun _ => ?_) (fun _ => ?_)
  · exact h1
  · refine Kept.folds _ (fun t1 x1 h2 => ?_) ?_
    · try dsimp -zeta only
      refine Kept.trans ?_ (State.grantOne_kept ..)
      exact h2
    · try dsimp -zeta only
      exact h1

/-- What State.feedPeer keeps. -/
theorem State.feedPeer_kept : ∀ s v1 v2 v3 v4, Kept s (State.feedPeer s v1 v2 v3 v4) := by
  intro s v1 v2 v3 v4
  unfold State.feedPeer
  have h1 := Kept.refl s
  extract_lets +onlyGivenNames -underBinder -merge x1
  try clear_value x1
  extract_lets +onlyGivenNames -underBinder -merge x2
  try clear_value x2
  extract_lets +onlyGivenNames -underBinder -merge x3
  try clear_value x3
  extract_lets +onlyGivenNames -underBinder -merge x4
  try clear_value x4
  extract_lets +onlyGivenNames -underBinder -merge x5
  try clear_value x5
  extract_lets +onlyGivenNames -underBinder -merge x6
  try clear_value x6
  refine Kept.ifs (fun _ => ?_) (fun _ => ?_)
  · exact h1
  · extract_lets +onlyGivenNames -underBinder -merge x7
    try clear_value x7
    extract_lets +onlyGivenNames -underBinder -merge x8
    try clear_value x8
    extract_lets +onlyGivenNames -underBinder -merge x9
    have h2 : Kept s x9 := by
      dsimp -zeta only [x9]
      refine Kept.trans ?_ (State.sendAll_kept ..)
      exact h1
    try clear_value x9
    extract_lets +onlyGivenNames -underBinder -merge x10
    have h3 : Kept s x10 := by
      dsimp -zeta only [x10]
      refine Kept.trans ?_ (State.sendAll_kept ..)
      exact h2
    try clear_value x10
    refine Kept.trans ?_ (State.modStep_kept ..)
    exact h3

/-- What State.feedLocal keeps. -/
theorem State.feedLocal_kept : ∀ s v1 v2 v3 v4, Kept s (State.feedLocal s v1 v2 v3 v4) := by
  intro s v1 v2 v3 v4
  unfold State.feedLocal
  have h1 := Kept.refl s
  extract_lets +onlyGivenNames -underBinder -merge x1
  try clear_value x1
  extract_lets +onlyGivenNames -underBinder -merge x2
  try clear_value x2
  split
  · exact h1
  · refine Kept.ifs (fun _ => ?_) (fun _ => ?_)
    · exact h1
    · refine Kept.ifs (fun _ => ?_) (fun _ => ?_)
      · refine Kept.trans ?_ (State.collAbort_kept ..)
        exact h1
      · extract_lets +onlyGivenNames -underBinder -merge x3
        have h2 : Kept s x3 := by
          dsimp -zeta only [x3]
          refine Kept.trans ?_ (State.modStep_kept ..)
          exact h1
        try clear_value x3
        refine Kept.trans ?_ (State.modStep_kept ..)
        exact h2

/-- What State.collEngine keeps. -/
theorem State.collEngine_kept : ∀ s v1 v2, Kept s (State.collEngine s v1 v2) := by
  intro s v1 v2
  unfold State.collEngine
  have h1 := Kept.refl s
  split
  · exact h1
  · extract_lets +onlyGivenNames -underBinder -merge x1
    try clear_value x1
    extract_lets +onlyGivenNames -underBinder -merge x2
    try clear_value x2
    refine Kept.ifs (fun _ => ?_) (fun _ => ?_)
    · refine Kept.trans ?_ (State.stepFails_kept ..)
      exact h1
    · extract_lets +onlyGivenNames -underBinder -merge x3
      have h2 : Kept s x3 := by
        dsimp -zeta only [x3]
        refine Kept.ifs (fun _ => ?_) (fun _ => ?_)
        · exact h1
        · refine Kept.trans ?_ (State.stepStart_kept ..)
          exact h1
      try clear_value x3
      extract_lets +onlyGivenNames -underBinder -merge x4
      have h3 : Kept s x4 := by
        dsimp -zeta only [x4]
        refine Kept.folds _ (fun t1 x5 h4 => ?_) ?_
        · try dsimp -zeta only
          refine Kept.trans ?_ (State.grantAll_kept ..)
          exact h4
        · try dsimp -zeta only
          exact h2
      try clear_value x4
      split
      · exact h3
      · extract_lets +onlyGivenNames -underBinder -merge x6
        have h5 : Kept s x6 := by
          dsimp -zeta only [x6]
          refine Kept.ifs (fun _ => ?_) (fun _ => ?_)
          · refine Kept.trans ?_ (State.modStep_kept ..)
            exact h3
          · exact h3
        try clear_value x6
        split
        · exact h5
        · extract_lets +onlyGivenNames -underBinder -merge x7
          have h6 : Kept s x7 := by
            dsimp -zeta only [x7]
            refine Kept.trans ?_ (State.grantAll_kept ..)
            exact h5
          try clear_value x7
          refine Kept.ifs (fun _ => ?_) (fun _ => ?_)
          · extract_lets +onlyGivenNames -underBinder -merge x8
            have h7 : Kept s x8 := by
              dsimp -zeta only [x8]
              refine Kept.folds _ (fun t2 x9 h8 => ?_) ?_
              · try dsimp -zeta only
                split
                · refine Kept.trans ?_ (State.feedPeer_kept ..)
                  exact h8
                · exact h8
              · try dsimp -zeta only
                exact h6
            try clear_value x8
            refine Kept.folds _ (fun t3 x10 h9 => ?_) ?_
            · try dsimp -zeta only
              split
              · refine Kept.trans ?_ (State.feedLocal_kept ..)
                exact h9
              · exact h9
            · try dsimp -zeta only
              exact h7
          · exact h6

/-- What State.collRun keeps. -/
theorem State.collRun_kept : ∀ n s, Kept s (State.collRun n s) := by
  intro n
  induction n with
  | zero => intro s; exact .refl s
  | succ n ih =>
    intro s
    unfold State.collRun
    split
    · exact .refl s
    · exact (Kept.folds _ (fun _ _ h => h.trans (State.collEngine_kept ..)) (.refl s)).trans (ih _)

/-- What State.collGo keeps. -/
theorem State.collGo_kept : ∀ s, Kept s (State.collGo s) := by
  intro s
  unfold State.collGo
  have h1 := Kept.refl s
  refine Kept.trans ?_ (State.collRun_kept ..)
  exact h1

/-- What State.creditIn keeps. -/
theorem State.creditIn_kept : ∀ s v1 v2 v3, Kept s (State.creditIn s v1 v2 v3) := by
  intro s v1 v2 v3
  unfold State.creditIn
  have h1 := Kept.refl s
  split
  · refine Kept.trans ?_ (State.modCe_kept ..)
    exact h1
  · refine Kept.ifs (fun _ => ?_) (fun _ => ?_)
    · refine Kept.trans ?_ (State.collAbort_kept ..)
      exact h1
    · refine Kept.trans ?_ (State.modStep_kept ..)
      exact h1

/-- What State.earlyCredits keeps. -/
theorem State.earlyCredits_kept : ∀ s v1 v2 v3 v4, Kept s (State.earlyCredits s v1 v2 v3 v4) := by
  intro s v1 v2 v3 v4
  unfold State.earlyCredits
  have h1 := Kept.refl s
  extract_lets +onlyGivenNames -underBinder -merge x1
  try clear_value x1
  extract_lets +onlyGivenNames -underBinder -merge x2
  have h2 : Kept s x2 := by
    dsimp -zeta only [x2]
    refine Kept.trans ?_ (State.modCe_kept ..)
    exact h1
  try clear_value x2
  refine Kept.folds _ (fun t1 x3 h3 => ?_) ?_
  · try dsimp -zeta only
    refine Kept.ifs (fun _ => ?_) (fun _ => ?_)
    · refine Kept.trans ?_ (State.creditIn_kept ..)
      exact h3
    · exact h3
  · try dsimp -zeta only
    exact h2

/-- What State.tagStep keeps. -/
theorem State.tagStep_kept : ∀ s v1 v2, Kept s ((State.tagStep s v1 v2).2) := by
  intro s v1 v2
  unfold State.tagStep
  have h1 := Kept.refl s
  refine Kept.foldl Prod.snd _ (fun t1 x1 h2 => ?_) ?_
  · try dsimp -zeta only
    extract_lets +onlyGivenNames -underBinder -merge x2
    try clear_value x2
    try dsimp -zeta only
    refine Kept.trans ?_ (State.modDie_kept ..)
    exact h2
  · try dsimp -zeta only
    try dsimp -zeta only
    exact h1

/-- What State.collIssue keeps. -/
theorem State.collIssue_kept : ∀ s v1 v2 v3 v4 v5 v6, Kept s (State.collIssue s v1 v2 v3 v4 v5 v6) := by
  intro s v1 v2 v3 v4 v5 v6
  unfold State.collIssue
  have h1 := Kept.refl s
  extract_lets +onlyGivenNames -underBinder -merge x1
  try clear_value x1
  extract_lets +onlyGivenNames -underBinder -merge x2
  try clear_value x2
  refine Kept.ifs (fun _ => ?_) (fun _ => ?_)
  · refine Kept.trans ?_ (State.finish_kept ..)
    exact h1
  · split
    · rename_i a1 a2 q1
      have h2 : Kept s a2 := by
        have e := congrArg Prod.snd q1
        dsimp only at e
        rw [← e]
        refine Kept.trans ?_ (State.rankTable_kept ..)
        exact h1
      refine Kept.trans ?_ (State.finish_kept ..)
      exact h2
    · rename_i a3 a4 q2
      have h3 : Kept s a4 := by
        have e := congrArg Prod.snd q2
        dsimp only at e
        rw [← e]
        refine Kept.trans ?_ (State.rankTable_kept ..)
        exact h1
      extract_lets +onlyGivenNames -underBinder -merge x3
      try clear_value x3
      extract_lets +onlyGivenNames -underBinder -merge x4
      try clear_value x4
      extract_lets +onlyGivenNames -underBinder -merge x5
      try clear_value x5
      extract_lets +onlyGivenNames -underBinder -merge x6
      try clear_value x6
      extract_lets +onlyGivenNames -underBinder -merge x7
      try clear_value x7
      split
      · rename_i a5 a6 q3
        have h4 : Kept s a6 := by
          have e := congrArg Prod.snd q3
          dsimp only at e
          rw [← e]
          refine Kept.trans ?_ (State.tagStep_kept ..)
          exact h3
        extract_lets +onlyGivenNames -underBinder -merge x8
        have h5 : Kept s x8 := by
          dsimp -zeta only [x8]
          refine Kept.trans ?_ (State.modDie_kept ..)
          exact h4
        try clear_value x8
        extract_lets +onlyGivenNames -underBinder -merge x9
        have h6 : Kept s x9 := by
          dsimp -zeta only [x9]
          refine Kept.trans ?_ (State.modCe_kept ..)
          exact h5
        try clear_value x9
        refine Kept.trans ?_ (State.collGo_kept ..)
        refine Kept.trans ?_ (State.earlyCredits_kept ..)
        exact h6

/-- What State.stepEnds keeps. -/
theorem State.stepEnds_kept : ∀ s v1 v2 v3 v4, Kept s (State.stepEnds s v1 v2 v3 v4) := by
  intro s v1 v2 v3 v4
  unfold State.stepEnds
  have h1 := Kept.refl s
  extract_lets +onlyGivenNames -underBinder -merge x1
  have h2 : Kept s x1 := by
    dsimp -zeta only [x1]
    refine Kept.trans ?_ (State.dropStep_kept ..)
    refine Kept.trans ?_ (State.descFlags_kept ..)
    exact h1
  try clear_value x1
  extract_lets +onlyGivenNames -underBinder -merge x2
  have h3 : Kept s x2 := by
    dsimp -zeta only [x2]
    refine Kept.ifs (fun _ => ?_) (fun _ => ?_)
    · refine Kept.trans ?_ (State.modCe_kept ..)
      exact h2
    · exact h2
  try clear_value x2
  refine Kept.trans ?_ (State.collGo_kept ..)
  refine Kept.trans ?_ (State.finish_kept ..)
  exact h3

/-- What State.stepComplete keeps. -/
theorem State.stepComplete_kept : ∀ s v1 v2, Kept s (State.stepComplete s v1 v2) := by
  intro s v1 v2
  unfold State.stepComplete
  have h1 := Kept.refl s
  extract_lets +onlyGivenNames -underBinder -merge x1
  have h2 : Kept s x1 := by
    dsimp -zeta only [x1]
    refine Kept.trans ?_ (State.collGo_kept ..)
    exact h1
  try clear_value x1
  split
  · exact h2
  · extract_lets +onlyGivenNames -underBinder -merge x2
    try clear_value x2
    refine Kept.ifs (fun _ => ?_) (fun _ => ?_)
    · exact h2
    · refine Kept.ifs (fun _ => ?_) (fun _ => ?_)
      · refine Kept.ifs (fun _ => ?_) (fun _ => ?_)
        · exact h2
        · refine Kept.trans ?_ (State.stepEnds_kept ..)
          exact h2
      · extract_lets +onlyGivenNames -underBinder -merge x3
        try clear_value x3
        extract_lets +onlyGivenNames -underBinder -merge x4
        try clear_value x4
        split
        · refine Kept.trans ?_ (State.stepEnds_kept ..)
          exact h2
        · extract_lets +onlyGivenNames -underBinder -merge x5
          try clear_value x5
          refine Kept.ifs (fun _ => ?_) (fun _ => ?_)
          · split
            · rename_i a1 q1
              have h3 : Kept s a1 := by
                have e := congrArg Prod.snd q1
                dsimp only at e
                rw [← e]
                refine Kept.trans ?_ (sendWrites_kept ..)
                exact h2
              refine Kept.trans ?_ (State.modStep_kept ..)
              exact h3
            · rename_i a2 q2
              have h4 : Kept s a2 := by
                have e := congrArg Prod.snd q2
                dsimp only at e
                rw [← e]
                refine Kept.trans ?_ (sendWrites_kept ..)
                exact h2
              refine Kept.trans ?_ (State.stepFails_kept ..)
              exact h4
          · split
            · rename_i a3 a4 q3
              have h5 : Kept s a4 := by
                have e := congrArg Prod.snd q3
                dsimp only at e
                rw [← e]
                refine Kept.trans ?_ (writePieces_kept ..)
                exact h2
              refine Kept.trans ?_ (State.stepEnds_kept ..)
              exact h5

/-! ## Issue -/

/-- What State.addFlight keeps. -/
theorem State.addFlight_kept : ∀ s v1 v2, Kept s (State.addFlight s v1 v2) := by
  intro s v1 v2
  unfold State.addFlight
  have h1 := Kept.refl s
  refine Kept.trans ?_ (State.modDie_kept ..)
  exact h1

/-- What State.issueFrame keeps. -/
theorem State.issueFrame_kept : ∀ s v1 v2 v3, Kept s (State.issueFrame s v1 v2 v3) := by
  intro s v1 v2 v3
  unfold State.issueFrame
  have h1 := Kept.refl s
  extract_lets +onlyGivenNames -underBinder -merge x1
  have h2 : Kept s x1 := by
    dsimp -zeta only [x1]
    refine Kept.trans ?_ (State.modDie_kept ..)
    exact h1
  try clear_value x1
  refine Kept.trans ?_ (State.finish_kept ..)
  exact h2

/-- What State.issueTensor keeps. -/
theorem State.issueTensor_kept : ∀ s v1 v2 v3, Kept s (State.issueTensor s v1 v2 v3) := by
  intro s v1 v2 v3
  unfold State.issueTensor
  have h1 := Kept.refl s
  refine Kept.trans ?_ (State.finish_kept ..)
  refine Kept.trans ?_ (State.modDie_kept ..)
  exact h1

/-- What State.issueMatmul keeps. -/
theorem State.issueMatmul_kept : ∀ s v1 v2 v3 v4, Kept s (State.issueMatmul s v1 v2 v3 v4) := by
  intro s v1 v2 v3 v4
  unfold State.issueMatmul
  have h1 := Kept.refl s
  extract_lets +onlyGivenNames -underBinder -merge x1
  try clear_value x1
  extract_lets +onlyGivenNames -underBinder -merge x2
  try clear_value x2
  extract_lets +onlyGivenNames -underBinder -merge x3
  try clear_value x3
  split
  · exact h1
  · extract_lets +onlyGivenNames -underBinder -merge x4
    have h2 : Kept s x4 := by
      dsimp -zeta only [x4]
      refine Kept.trans ?_ (State.addFlight_kept ..)
      exact h1
    try clear_value x4
    refine Kept.folds _ (fun t1 x5 h3 => ?_) ?_
    · try dsimp -zeta only
      refine Kept.trans ?_ (State.modTile_kept ..)
      exact h3
    · try dsimp -zeta only
      exact h2

/-- What State.issueEffect keeps. -/
theorem State.issueEffect_kept : ∀ s v1 v2, Kept s (State.issueEffect s v1 v2) := by
  intro s v1 v2
  unfold State.issueEffect
  have h1 := Kept.refl s
  extract_lets +onlyGivenNames -underBinder -merge x1
  have h2 : Kept s x1 := by
    dsimp -zeta only [x1]
    refine Kept.trans ?_ (State.addFlight_kept ..)
    exact h1
  try clear_value x1
  refine Kept.ifs (fun _ => ?_) (fun _ => ?_)
  · refine Kept.trans ?_ (State.modFlight_kept ..)
    exact h2
  · refine Kept.trans ?_ (State.applyEffect_kept ..)
    exact h2

/-- What State.issueVloop keeps. -/
theorem State.issueVloop_kept : ∀ s v1 v2 v3 v4, Kept s (State.issueVloop s v1 v2 v3 v4) := by
  intro s v1 v2 v3 v4
  unfold State.issueVloop
  have h1 := Kept.refl s
  extract_lets +onlyGivenNames -underBinder -merge x1
  try clear_value x1
  extract_lets +onlyGivenNames -underBinder -merge x2
  try clear_value x2
  extract_lets +onlyGivenNames -underBinder -merge x3
  try clear_value x3
  refine Kept.trans ?_ (State.issueEffect_kept ..)
  exact h1

/-- What State.issueMove keeps. -/
theorem State.issueMove_kept : ∀ s v1 v2 v3 v4, Kept s (State.issueMove s v1 v2 v3 v4) := by
  intro s v1 v2 v3 v4
  unfold State.issueMove
  have h1 := Kept.refl s
  extract_lets +onlyGivenNames -underBinder -merge x1
  try clear_value x1
  refine Kept.trans ?_ (State.issueEffect_kept ..)
  exact h1

/-- What State.issueColl keeps. -/
theorem State.issueColl_kept : ∀ s v1 v2 v3 v4, Kept s (State.issueColl s v1 v2 v3 v4) := by
  intro s v1 v2 v3 v4
  unfold State.issueColl
  have h1 := Kept.refl s
  extract_lets +onlyGivenNames -underBinder -merge x1
  try clear_value x1
  refine Kept.trans ?_ (State.collIssue_kept ..)
  exact h1

/-- What State.semConsume keeps. -/
theorem State.semConsume_kept : ∀ s v1 v2 v3 v4, Kept s (State.semConsume s v1 v2 v3 v4) := by
  intro s v1 v2 v3 v4
  unfold State.semConsume
  have h1 := Kept.refl s
  refine Kept.ifs (fun _ => ?_) (fun _ => ?_)
  · refine Kept.trans ?_ (State.setSem_kept ..)
    exact h1
  · exact h1

/-- What State.issueSemWait keeps. -/
theorem State.issueSemWait_kept : ∀ s v1 v2 v3, Kept s (State.issueSemWait s v1 v2 v3) := by
  intro s v1 v2 v3
  unfold State.issueSemWait
  have h1 := Kept.refl s
  extract_lets +onlyGivenNames -underBinder -merge x1
  try clear_value x1
  extract_lets +onlyGivenNames -underBinder -merge x2
  try clear_value x2
  extract_lets +onlyGivenNames -underBinder -merge x3
  try clear_value x3
  extract_lets +onlyGivenNames -underBinder -merge x4
  try clear_value x4
  refine Kept.ifs (fun _ => ?_) (fun _ => ?_)
  · refine Kept.trans ?_ (State.finish_kept ..)
    refine Kept.trans ?_ (State.semConsume_kept ..)
    exact h1
  · extract_lets +onlyGivenNames -underBinder -merge x5
    have h2 : Kept s x5 := by
      dsimp -zeta only [x5]
      refine Kept.trans ?_ (State.addFlight_kept ..)
      exact h1
    try clear_value x5
    extract_lets +onlyGivenNames -underBinder -merge x6
    have h3 : Kept s x6 := by
      dsimp -zeta only [x6]
      refine Kept.trans ?_ (State.modDie_kept ..)
      exact h2
    try clear_value x6
    refine Kept.ifs (fun _ => ?_) (fun _ => ?_)
    · refine Kept.trans ?_ (State.stretchDie_kept ..)
      exact h3
    · exact h3

/-- What State.issueSemSignal keeps. -/
theorem State.issueSemSignal_kept : ∀ s v1 v2 v3, Kept s (State.issueSemSignal s v1 v2 v3) := by
  intro s v1 v2 v3
  unfold State.issueSemSignal
  have h1 := Kept.refl s
  extract_lets +onlyGivenNames -underBinder -merge x1
  try clear_value x1
  extract_lets +onlyGivenNames -underBinder -merge x2
  try clear_value x2
  refine Kept.ifs (fun _ => ?_) (fun _ => ?_)
  · refine Kept.trans ?_ (State.modDie_kept ..)
    exact h1
  · refine Kept.ifs (fun _ => ?_) (fun _ => ?_)
    · refine Kept.trans ?_ (State.signal_kept ..)
      exact h1
    · refine Kept.trans ?_ (State.finish_kept ..)
      refine Kept.trans ?_ (State.signal_kept ..)
      exact h1

/-- What State.issueFlare keeps. -/
theorem State.issueFlare_kept : ∀ s v1 v2 v3, Kept s (State.issueFlare s v1 v2 v3) := by
  intro s v1 v2 v3
  unfold State.issueFlare
  have h1 := Kept.refl s
  extract_lets +onlyGivenNames -underBinder -merge x1
  have h2 : Kept s x1 := by
    dsimp -zeta only [x1]
    refine Kept.trans ?_ (State.modDie_kept ..)
    exact h1
  try clear_value x1
  refine Kept.trans ?_ (State.finish_kept ..)
  exact h2

/-- What State.issueIsland keeps. -/
theorem State.issueIsland_kept : ∀ s v1 v2 v3 v4, Kept s (State.issueIsland s v1 v2 v3 v4) := by
  intro s v1 v2 v3 v4
  unfold State.issueIsland
  have h1 := Kept.refl s
  extract_lets +onlyGivenNames -underBinder -merge x1
  try clear_value x1
  extract_lets +onlyGivenNames -underBinder -merge x2
  have h2 : Kept s x2 := by
    dsimp -zeta only [x2]
    refine Kept.trans ?_ (State.addFlight_kept ..)
    exact h1
  try clear_value x2
  extract_lets +onlyGivenNames -underBinder -merge x3
  have h3 : Kept s x3 := by
    dsimp -zeta only [x3]
    refine Kept.trans ?_ (State.modDie_kept ..)
    exact h2
  try clear_value x3
  extract_lets +onlyGivenNames -underBinder -merge x4
  try clear_value x4
  extract_lets +onlyGivenNames -underBinder -merge x5
  have h4 : Kept s x5 := by
    dsimp -zeta only [x5]
    refine Kept.folds _ (fun t1 x6 h5 => ?_) ?_
    · try dsimp -zeta only
      refine Kept.trans ?_ (State.modTile_kept ..)
      exact h5
    · try dsimp -zeta only
      exact h3
  try clear_value x5
  refine Kept.ifs (fun _ => ?_) (fun _ => ?_)
  · refine Kept.trans ?_ (State.stretchDie_kept ..)
    exact h4
  · exact h4

/-- What State.issueEnd keeps. -/
theorem State.issueEnd_kept : ∀ s v1 v2 v3, Kept s (State.issueEnd s v1 v2 v3) := by
  intro s v1 v2 v3
  unfold State.issueEnd
  have h1 := Kept.refl s
  refine Kept.trans ?_ (State.finish_kept ..)
  refine Kept.trans ?_ (State.modDie_kept ..)
  exact h1

/-- What State.issueBody keeps. -/
theorem State.issueBody_kept : ∀ s v1 v2 v3 v4, Kept s (State.issueBody s v1 v2 v3 v4) := by
  intro s v1 v2 v3 v4
  unfold State.issueBody
  have h1 := Kept.refl s
  split
  · refine Kept.trans ?_ (State.issueFrame_kept ..)
    exact h1
  · refine Kept.trans ?_ (State.issueTensor_kept ..)
    exact h1
  · refine Kept.trans ?_ (State.issueMatmul_kept ..)
    exact h1
  · refine Kept.trans ?_ (State.issueVloop_kept ..)
    exact h1
  · refine Kept.trans ?_ (State.issueMove_kept ..)
    exact h1
  · refine Kept.trans ?_ (State.issueColl_kept ..)
    exact h1
  · refine Kept.trans ?_ (State.issueSemWait_kept ..)
    exact h1
  · refine Kept.trans ?_ (State.issueSemSignal_kept ..)
    exact h1
  · refine Kept.trans ?_ (State.issueFlare_kept ..)
    exact h1
  · refine Kept.trans ?_ (State.issueIsland_kept ..)
    exact h1
  · refine Kept.trans ?_ (State.issueEnd_kept ..)
    exact h1
  · refine Kept.trans ?_ (State.finish_kept ..)
    exact h1

/-- What State.issueStream keeps. -/
theorem State.issueStream_kept : ∀ s v1 v2 v3, Kept s (State.issueStream s v1 v2 v3) := by
  intro s v1 v2 v3
  unfold State.issueStream
  have h1 := Kept.refl s
  extract_lets +onlyGivenNames -underBinder -merge x1
  try clear_value x1
  extract_lets +onlyGivenNames -underBinder -merge x2
  have h2 : Kept s x2 := by
    dsimp -zeta only [x2]
    refine Kept.trans ?_ (State.modDie_kept ..)
    exact h1
  try clear_value x2
  extract_lets +onlyGivenNames -underBinder -merge x3
  try clear_value x3
  refine Kept.ifs (fun _ => ?_) (fun _ => ?_)
  · refine Kept.trans ?_ (State.finish_kept ..)
    exact h2
  · refine Kept.ifs (fun _ => ?_) (fun _ => ?_)
    · refine Kept.trans ?_ (State.finish_kept ..)
      exact h2
    · refine Kept.ifs (fun _ => ?_) (fun _ => ?_)
      · refine Kept.trans ?_ (State.stretchDie_kept ..)
        exact h1
      · refine Kept.trans ?_ (State.issueBody_kept ..)
        exact h2

/-- What State.endIslands keeps. -/
theorem State.endIslands_kept : ∀ s v1, Kept s (State.endIslands s v1) := by
  intro s v1
  unfold State.endIslands
  have h1 := Kept.refl s
  extract_lets +onlyGivenNames -underBinder -merge x1
  try clear_value x1
  refine Kept.trans ?_ (State.modDie_kept ..)
  exact h1

/-! ## Wq -/

/-- What State.wqRefresh keeps. -/
theorem State.wqRefresh_kept : ∀ s v1 v2, Kept s (State.wqRefresh s v1 v2) := by
  intro s v1 v2
  unfold State.wqRefresh
  have h1 := Kept.refl s
  refine Kept.trans ?_ (State.modWq_kept ..)
  exact h1

/-- What State.wqFetch keeps. -/
theorem State.wqFetch_kept : ∀ s v1 v2, Kept s ((State.wqFetch s v1 v2).2) := by
  intro s v1 v2
  unfold State.wqFetch
  have h1 := Kept.refl s
  extract_lets +onlyGivenNames -underBinder -merge x1
  try clear_value x1
  extract_lets +onlyGivenNames -underBinder -merge x2
  try clear_value x2
  extract_lets +onlyGivenNames -underBinder -merge x3
  try clear_value x3
  extract_lets +onlyGivenNames -underBinder -merge x4
  try clear_value x4
  split
  · rename_i a1 a2 q1
    have h2 : Kept s a2 := by
      have e := congrArg Prod.snd q1
      dsimp only at e
      rw [← e]
      refine Kept.trans ?_ (State.readMem_kept ..)
      exact h1
    try dsimp -zeta only
    exact h2
  · rename_i a3 a4 q2
    have h3 : Kept s a4 := by
      have e := congrArg Prod.snd q2
      dsimp only at e
      rw [← e]
      refine Kept.trans ?_ (State.readMem_kept ..)
      exact h1
    refine Kept.ite Prod.snd (fun _ => ?_) (fun _ => ?_)
    · try dsimp -zeta only
      exact h3
    · refine Kept.ite Prod.snd (fun _ => ?_) (fun _ => ?_)
      · try dsimp -zeta only
        exact h3
      · split
        · rename_i a5 a6 q3
          have h4 : Kept s a6 := by
            have e := congrArg Prod.snd q3
            dsimp only at e
            rw [← e]
            refine Kept.trans ?_ (State.readMem_kept ..)
            exact h3
          try dsimp -zeta only
          exact h4
        · rename_i a7 a8 q4
          have h5 : Kept s a8 := by
            have e := congrArg Prod.snd q4
            dsimp only at e
            rw [← e]
            refine Kept.trans ?_ (State.readMem_kept ..)
            exact h3
          try dsimp -zeta only
          exact h5

/-- What State.wqReject keeps. -/
theorem State.wqReject_kept : ∀ s v1 v2 v3 v4, Kept s (State.wqReject s v1 v2 v3 v4) := by
  intro s v1 v2 v3 v4
  unfold State.wqReject
  have h1 := Kept.refl s
  extract_lets +onlyGivenNames -underBinder -merge x1
  try clear_value x1
  refine Kept.trans ?_ (State.finish_kept ..)
  refine Kept.trans ?_ (State.modWq_kept ..)
  exact h1

/-- What State.wqTake keeps. -/
theorem State.wqTake_kept : ∀ s d q raw u, State.wqTake s d q raw = some u → Kept s u := by
  intro s d q raw u h
  unfold State.wqTake at h
  extract_lets +onlyGivenNames w src keys at h
  split at h
  · cases h
  · split at h
    · cases h
    · extract_lets +onlyGivenNames st at h
      split at h
      · cases h
        exact State.wqReject_kept ..
      · extract_lets +onlyGivenNames consumed at h
        have hc : Kept s consumed := (State.modWq_kept ..).trans (State.wqRefresh_kept ..)
        clear_value consumed
        split at h
        · cases h
          exact hc.trans (State.finish_kept ..)
        · split at h
          · cases h
          · cases h
            exact hc.trans (State.issueBody_kept ..)

/-- What State.wqTry keeps. -/
theorem State.wqTry_kept : ∀ s d q e, Kept s (State.wqTry s d q e) := by
  intro s d q e
  unfold State.wqTry
  refine Kept.ifs (fun _ => .refl s) (fun _ => ?_)
  have h := State.wqFetch_kept s d q
  split
  · rename_i st u qq
    rw [qq] at h
    exact Kept.ifs (fun _ => .refl s) (fun _ => h.trans (State.wqReject_kept ..))
  · exact .refl s
  · rename_i raw u qq
    rw [qq] at h
    refine Kept.ifs (fun _ => .refl s) (fun _ => ?_)
    split
    · rename_i v q1
      exact h.trans (State.wqTake_kept _ _ _ _ _ q1)
    · exact .refl s

/-- What State.writeWqCfg keeps. -/
theorem State.writeWqCfg_kept : ∀ s v1 v2 v3, Kept s (State.writeWqCfg s v1 v2 v3) := by
  intro s v1 v2 v3
  unfold State.writeWqCfg
  have h1 := Kept.refl s
  extract_lets +onlyGivenNames -underBinder -merge x1
  try clear_value x1
  extract_lets +onlyGivenNames -underBinder -merge x2
  try clear_value x2
  extract_lets +onlyGivenNames -underBinder -merge x3
  try clear_value x3
  refine Kept.trans ?_ (State.wqRefresh_kept ..)
  refine Kept.trans ?_ (State.modWq_kept ..)
  exact h1

/-- What execWqEnable keeps. -/
theorem execWqEnable_kept : ∀ v0 v1 v2 s, Kept s (outOr s ((execWqEnable v0 v1 v2 s))) := by
  intro v0 v1 v2 s
  unfold execWqEnable
  have h1 := Kept.refl s
  refine Kept.next ?_
  refine Kept.trans ?_ (State.writeWqCfg_kept ..)
  exact h1

/-- What execWqDoorbell keeps. -/
theorem execWqDoorbell_kept : ∀ v0 v1 v2 v3 s, Kept s (outOr s ((execWqDoorbell v0 v1 v2 v3 s))) := by
  intro v0 v1 v2 v3 s
  unfold execWqDoorbell
  have h1 := Kept.refl s
  extract_lets +onlyGivenNames -underBinder -merge x1
  try clear_value x1
  refine Kept.ite (outOr s) (fun _ => ?_) (fun _ => ?_)
  · refine Kept.next ?_
    exact h1
  · extract_lets +onlyGivenNames -underBinder -merge x2
    have h2 : Kept s x2 := by
      dsimp -zeta only [x2]
      refine Kept.trans ?_ (State.wake_kept ..)
      exact h1
    try clear_value x2
    refine Kept.ite (outOr s) (fun _ => ?_) (fun _ => ?_)
    · refine Kept.next ?_
      refine Kept.trans ?_ (State.wqRefresh_kept ..)
      refine Kept.trans ?_ (State.modWq_kept ..)
      exact h2
    · refine Kept.next ?_
      refine Kept.trans ?_ (State.modWq_kept ..)
      exact h2

/-- What execWqEntryReread keeps. -/
theorem Kept.getD {s t : State} {o : Option State} (h : Kept s t) (g : ∀ u, o = some u → Kept s u) : Kept s (o.getD t) := by
  cases o with
  | none => exact h
  | some u => exact g u rfl

/-- What execWqEntryReread keeps. -/
theorem execWqEntryReread_kept : ∀ d q s, Kept s (outOr s (execWqEntryReread d q s)) := by
  intro d q s
  unfold execWqEntryReread
  have g := State.wqFetch_kept s d q
  split
  · exact .refl s
  · split
    · rename_i u e
      rw [e] at g
      exact Kept.next (g.trans (State.wqReject_kept ..))
    · rename_i raw u e
      rw [e] at g
      exact Kept.next (Kept.getD (.refl s) (fun v hv => g.trans (State.wqTake_kept _ _ _ _ _ hv)))
    · rename_i u e
      rw [e] at g
      extract_lets +onlyGivenNames v
      have hv : Kept s v := g.trans (State.modWq_kept ..)
      clear_value v
      extract_lets +onlyGivenNames w
      split
      · exact Kept.next hv
      · extract_lets +onlyGivenNames x y
        have hy : Kept s y := (hv.trans (State.modWq_kept ..)).trans (State.dieEvent_kept ..)
        clear_value y
        exact Kept.next (Kept.ifs (fun _ => hy.trans (State.sendMsix_kept ..)) (fun _ => hy))

/-- What execWqEntryIssue keeps. -/
theorem execWqEntryIssue_kept : ∀ v0 v1 s, Kept s (outOr s ((execWqEntryIssue v0 v1 s))) := by
  intro v0 v1 s
  unfold execWqEntryIssue
  have h1 := Kept.refl s
  refine Kept.next ?_
  refine Kept.trans ?_ (State.wqTry_kept ..)
  exact h1

/-- What execWqCtrlResume keeps. -/
theorem execWqCtrlResume_kept : ∀ v0 v1 s, Kept s (outOr s ((execWqCtrlResume v0 v1 s))) := by
  intro v0 v1 s
  unfold execWqCtrlResume
  have h1 := Kept.refl s
  refine Kept.ite (outOr s) (fun _ => ?_) (fun _ => ?_)
  · refine Kept.next ?_
    refine Kept.trans ?_ (State.wqRefresh_kept ..)
    refine Kept.trans ?_ (State.modWq_kept ..)
    exact h1
  · refine Kept.next ?_
    exact h1

/-- What execWqCtrlReset keeps. -/
theorem execWqCtrlReset_kept : ∀ v0 v1 s, Kept s (outOr s ((execWqCtrlReset v0 v1 s))) := by
  intro v0 v1 s
  unfold execWqCtrlReset
  have h1 := Kept.refl s
  refine Kept.ite (outOr s) (fun _ => ?_) (fun _ => ?_)
  · refine Kept.next ?_
    exact h1
  · refine Kept.next ?_
    refine Kept.trans ?_ (State.modWq_kept ..)
    exact h1

/-! ## Dsq -/

/-- What State.advance keeps. -/
theorem State.advance_kept : ∀ s v1, Kept s (State.advance s v1) := by
  intro s v1
  unfold State.advance
  have h1 := Kept.refl s
  extract_lets +onlyGivenNames -underBinder -merge x1
  try clear_value x1
  refine Kept.trans ?_ (State.modDie_kept ..)
  exact h1

/-- What State.fetchLate keeps. -/
theorem State.fetchLate_kept : ∀ s v1, Kept s ((State.fetchLate s v1).2) := by
  intro s v1
  unfold State.fetchLate
  have h1 := Kept.refl s
  refine Kept.ite Prod.snd (fun _ => ?_) (fun _ => ?_)
  · split
    · rename_i a1 a2 q1
      have h2 : Kept s a2 := by
        have e := congrArg Prod.snd q1
        dsimp only at e
        rw [← e]
        refine Kept.trans ?_ (State.free_kept ..)
        exact h1
      try dsimp -zeta only
      exact h2
  · try dsimp -zeta only
    exact h1

/-- What execSlotAdvance keeps. -/
theorem execSlotAdvance_kept : ∀ v0 s, Kept s (outOr s ((execSlotAdvance v0 s))) := by
  intro v0 s
  unfold execSlotAdvance
  have h1 := Kept.refl s
  refine Kept.ite (outOr s) (fun _ => ?_) (fun _ => ?_)
  · refine Kept.next ?_
    refine Kept.trans ?_ (State.stopCheck_kept ..)
    exact h1
  · refine Kept.ite (outOr s) (fun _ => ?_) (fun _ => ?_)
    · split
      · rename_i a1 a2 q1
        have h2 : Kept s a2 := by
          have e := congrArg Prod.snd q1
          dsimp only at e
          rw [← e]
          refine Kept.trans ?_ (State.fetchLate_kept ..)
          exact h1
        refine Kept.next ?_
        refine Kept.ifs (fun _ => ?_) (fun _ => ?_)
        · refine Kept.trans ?_ (State.stretchDie_kept ..)
          exact h2
        · refine Kept.trans ?_ (State.clockSlip_kept ..)
          refine Kept.trans ?_ (State.advance_kept ..)
          exact h2
    · refine Kept.next ?_
      refine Kept.trans ?_ (State.noteClock_kept ..)
      exact h1

/-- What execStretchResume keeps. -/
theorem execStretchResume_kept : ∀ v0 s, Kept s (outOr s ((execStretchResume v0 s))) := by
  intro v0 s
  unfold execStretchResume
  have h1 := Kept.refl s
  split
  · refine Kept.ite (outOr s) (fun _ => ?_) (fun _ => ?_)
    · refine Kept.next ?_
      refine Kept.trans ?_ (State.endIslands_kept ..)
      refine Kept.trans ?_ (State.resumeDie_kept ..)
      exact h1
    · refine Kept.next ?_
      exact h1
  · refine Kept.next ?_
    exact h1

/-- What State.descRow keeps. -/
theorem State.descRow_kept : ∀ s v1 v2 v3 v4, Kept s (State.descRow s v1 v2 v3 v4) := by
  intro s v1 v2 v3 v4
  unfold State.descRow
  have h1 := Kept.refl s
  refine Kept.ifs (fun _ => ?_) (fun _ => ?_)
  · exact h1
  · split
    · refine Kept.ifs (fun _ => ?_) (fun _ => ?_)
      · refine Kept.trans ?_ (State.stopCheck_kept ..)
        refine Kept.trans ?_ (State.issueStream_kept ..)
        exact h1
      · exact h1
    · refine Kept.ifs (fun _ => ?_) (fun _ => ?_)
      · refine Kept.trans ?_ (State.wqTry_kept ..)
        exact h1
      · exact h1

/-- What execNop keeps. -/
theorem execNop_kept : ∀ v0 v1 v2 s, Kept s (outOr s ((execNop v0 v1 v2 s))) := by
  intro v0 v1 v2 s
  unfold execNop
  have h1 := Kept.refl s
  refine Kept.next ?_
  refine Kept.trans ?_ (State.descRow_kept ..)
  exact h1

/-- What execFrame keeps. -/
theorem execFrame_kept : ∀ v0 v1 v2 s, Kept s (outOr s ((execFrame v0 v1 v2 s))) := by
  intro v0 v1 v2 s
  unfold execFrame
  have h1 := Kept.refl s
  refine Kept.next ?_
  refine Kept.trans ?_ (State.descRow_kept ..)
  exact h1

/-- What execTensor keeps. -/
theorem execTensor_kept : ∀ v0 v1 v2 s, Kept s (outOr s ((execTensor v0 v1 v2 s))) := by
  intro v0 v1 v2 s
  unfold execTensor
  have h1 := Kept.refl s
  refine Kept.next ?_
  refine Kept.trans ?_ (State.descRow_kept ..)
  exact h1

/-- What execMatmul keeps. -/
theorem execMatmul_kept : ∀ v0 v1 v2 s, Kept s (outOr s ((execMatmul v0 v1 v2 s))) := by
  intro v0 v1 v2 s
  unfold execMatmul
  have h1 := Kept.refl s
  refine Kept.next ?_
  refine Kept.trans ?_ (State.descRow_kept ..)
  exact h1

/-- What execMxeKStep keeps. -/
theorem execMxeKStep_kept : ∀ v0 v1 s, Kept s (outOr s ((execMxeKStep v0 v1 s))) := by
  intro v0 v1 s
  unfold execMxeKStep
  have h1 := Kept.refl s
  refine Kept.next ?_
  refine Kept.trans ?_ (State.kStep_kept ..)
  exact h1

/-- What execVloop keeps. -/
theorem execVloop_kept : ∀ v0 v1 v2 s, Kept s (outOr s ((execVloop v0 v1 v2 s))) := by
  intro v0 v1 v2 s
  unfold execVloop
  have h1 := Kept.refl s
  refine Kept.next ?_
  refine Kept.trans ?_ (State.descRow_kept ..)
  exact h1

/-- What execMove keeps. -/
theorem execMove_kept : ∀ v0 v1 v2 s, Kept s (outOr s ((execMove v0 v1 v2 s))) := by
  intro v0 v1 v2 s
  unfold execMove
  have h1 := Kept.refl s
  refine Kept.next ?_
  refine Kept.trans ?_ (State.descRow_kept ..)
  exact h1

/-- What execTdmRingSlotFill keeps. -/
theorem execTdmRingSlotFill_kept : ∀ v0 v1 v2 s, Kept s (outOr s ((execTdmRingSlotFill v0 v1 v2 s))) := by
  intro v0 v1 v2 s
  unfold execTdmRingSlotFill
  have h1 := Kept.refl s
  refine Kept.next ?_
  refine Kept.trans ?_ (State.modTile_kept ..)
  exact h1

/-- What execColl keeps. -/
theorem execColl_kept : ∀ v0 v1 v2 s, Kept s (outOr s ((execColl v0 v1 v2 s))) := by
  intro v0 v1 v2 s
  unfold execColl
  have h1 := Kept.refl s
  refine Kept.next ?_
  refine Kept.trans ?_ (State.descRow_kept ..)
  exact h1

/-- What execSemWait keeps. -/
theorem execSemWait_kept : ∀ v0 v1 v2 s, Kept s (outOr s ((execSemWait v0 v1 v2 s))) := by
  intro v0 v1 v2 s
  unfold execSemWait
  have h1 := Kept.refl s
  refine Kept.next ?_
  refine Kept.trans ?_ (State.descRow_kept ..)
  exact h1

/-- What State.unblock keeps. -/
theorem State.unblock_kept : ∀ s v1 v2, Kept s (State.unblock s v1 v2) := by
  intro s v1 v2
  unfold State.unblock
  have h1 := Kept.refl s
  refine Kept.trans ?_ (State.modDie_kept ..)
  exact h1

/-- What execSemWaitSatisfied keeps. -/
theorem execSemWaitSatisfied_kept : ∀ v0 v1 s, Kept s (outOr s ((execSemWaitSatisfied v0 v1 s))) := by
  intro v0 v1 s
  unfold execSemWaitSatisfied
  have h1 := Kept.refl s
  split
  · refine Kept.ite (outOr s) (fun _ => ?_) (fun _ => ?_)
    · extract_lets +onlyGivenNames -underBinder -merge x1
      have h2 : Kept s x1 := by
        dsimp -zeta only [x1]
        refine Kept.trans ?_ (State.unblock_kept ..)
        refine Kept.trans ?_ (State.semConsume_kept ..)
        exact h1
      try clear_value x1
      split
      · refine Kept.next ?_
        refine Kept.trans ?_ (State.finish_kept ..)
        exact h2
      · refine Kept.next ?_
        exact h2
    · refine Kept.next ?_
      exact h1
  · refine Kept.next ?_
    exact h1

/-- What execSemWaitTimeout keeps. -/
theorem execSemWaitTimeout_kept : ∀ v0 v1 s, Kept s (outOr s ((execSemWaitTimeout v0 v1 s))) := by
  intro v0 v1 s
  unfold execSemWaitTimeout
  have h1 := Kept.refl s
  split
  · refine Kept.ite (outOr s) (fun _ => ?_) (fun _ => ?_)
    · refine Kept.next ?_
      exact h1
    · extract_lets +onlyGivenNames -underBinder -merge x1
      have h2 : Kept s x1 := by
        dsimp -zeta only [x1]
        refine Kept.trans ?_ (State.modDie_kept ..)
        exact h1
      try clear_value x1
      refine Kept.next ?_
      refine Kept.trans ?_ (State.dieEvent_kept ..)
      exact h2
  · refine Kept.next ?_
    exact h1

/-- What execSemSignal keeps. -/
theorem execSemSignal_kept : ∀ v0 v1 v2 s, Kept s (outOr s ((execSemSignal v0 v1 v2 s))) := by
  intro v0 v1 v2 s
  unfold execSemSignal
  have h1 := Kept.refl s
  refine Kept.next ?_
  refine Kept.trans ?_ (State.descRow_kept ..)
  exact h1

/-- What execSemaphoreUpdate keeps. -/
theorem execSemaphoreUpdate_kept : ∀ v0 v1 v2 v3 s, Kept s (outOr s ((execSemaphoreUpdate v0 v1 v2 v3 s))) := by
  intro v0 v1 v2 v3 s
  unfold execSemaphoreUpdate
  have h1 := Kept.refl s
  refine Kept.next ?_
  refine Kept.trans ?_ (State.semUpdate_kept ..)
  exact h1

/-- What execFlare keeps. -/
theorem execFlare_kept : ∀ v0 v1 v2 s, Kept s (outOr s ((execFlare v0 v1 v2 s))) := by
  intro v0 v1 v2 s
  unfold execFlare
  have h1 := Kept.refl s
  refine Kept.next ?_
  refine Kept.trans ?_ (State.descRow_kept ..)
  exact h1

/-- What execIsland keeps. -/
theorem execIsland_kept : ∀ v0 v1 v2 s, Kept s (outOr s ((execIsland v0 v1 v2 s))) := by
  intro v0 v1 v2 s
  unfold execIsland
  have h1 := Kept.refl s
  refine Kept.next ?_
  refine Kept.trans ?_ (State.descRow_kept ..)
  exact h1

/-- What execIslandWindowEnd keeps. -/
theorem execIslandWindowEnd_kept : ∀ v0 s, Kept s (outOr s ((execIslandWindowEnd v0 s))) := by
  intro v0 s
  unfold execIslandWindowEnd
  have h1 := Kept.refl s
  extract_lets +onlyGivenNames -underBinder -merge x1
  try clear_value x1
  refine Kept.ite (outOr s) (fun _ => ?_) (fun _ => ?_)
  · refine Kept.next ?_
    exact h1
  · extract_lets +onlyGivenNames -underBinder -merge x2
    try clear_value x2
    refine Kept.ite (outOr s) (fun _ => ?_) (fun _ => ?_)
    · refine Kept.next ?_
      refine Kept.trans ?_ (State.endIslands_kept ..)
      exact h1
    · extract_lets +onlyGivenNames -underBinder -merge x3
      try clear_value x3
      refine Kept.next ?_
      refine Kept.trans ?_ (State.stretchDie_kept ..)
      exact h1

/-- What execEndStream keeps. -/
theorem execEndStream_kept : ∀ v0 v1 v2 s, Kept s (outOr s ((execEndStream v0 v1 v2 s))) := by
  intro v0 v1 v2 s
  unfold execEndStream
  have h1 := Kept.refl s
  refine Kept.next ?_
  refine Kept.trans ?_ (State.descRow_kept ..)
  exact h1

/-- What State.dropWork keeps. -/
theorem State.dropWork_kept : ∀ s v1 v2 v3, Kept s (State.dropWork s v1 v2 v3) := by
  intro s v1 v2 v3
  unfold State.dropWork
  have h1 := Kept.refl s
  refine Kept.folds _ (fun t1 x1 h2 => ?_) ?_
  · try dsimp -zeta only
    refine Kept.trans ?_ (State.modTile_kept ..)
    exact h2
  · try dsimp -zeta only
    exact h1

/-- What State.closeQueueIsland keeps. -/
theorem State.closeQueueIsland_kept : ∀ s v1 v2, Kept s (State.closeQueueIsland s v1 v2) := by
  intro s v1 v2
  unfold State.closeQueueIsland
  have h1 := Kept.refl s
  refine Kept.ifs (fun _ => ?_) (fun _ => ?_)
  · refine Kept.trans ?_ (State.modDie_kept ..)
    exact h1
  · exact h1

/-- What State.endFlight keeps. -/
theorem State.endFlight_kept : ∀ s v1 v2, Kept s (State.endFlight s v1 v2) := by
  intro s v1 v2
  unfold State.endFlight
  have h1 := Kept.refl s
  refine Kept.trans ?_ (State.finish_kept ..)
  refine Kept.trans ?_ (State.closeQueueIsland_kept ..)
  refine Kept.trans ?_ (State.dropWork_kept ..)
  exact h1

/-- What State.finishEffect keeps. -/
theorem State.finishEffect_kept : ∀ s v1 v2, Kept s (State.finishEffect s v1 v2) := by
  intro s v1 v2
  unfold State.finishEffect
  have h1 := Kept.refl s
  split
  · rename_i a1 a2 q1
    have h2 : Kept s a2 := by
      have e := congrArg Prod.snd q1
      dsimp only at e
      rw [← e]
      refine Kept.ite Prod.snd (fun _ => ?_) (fun _ => ?_)
      · try dsimp -zeta only
        exact h1
      · refine Kept.trans ?_ (onTiles_kept _ (?_) _ _)
        · exact h1
        · intro t1 y1
          try dsimp -zeta only
          have h3 := Kept.refl t1
          refine Kept.trans ?_ (State.moveFinish_kept ..)
          exact h3
    extract_lets +onlyGivenNames -underBinder -merge x1
    have h4 : Kept s x1 := by
      dsimp -zeta only [x1]
      refine Kept.trans ?_ (State.flightStatus_kept ..)
      refine Kept.trans ?_ (State.modFlight_kept ..)
      exact h2
    try clear_value x1
    refine Kept.ifs (fun _ => ?_) (fun _ => ?_)
    · refine Kept.trans ?_ (State.endFlight_kept ..)
      exact h4
    · refine Kept.ifs (fun _ => ?_) (fun _ => ?_)
      · exact h4
      · refine Kept.ifs (fun _ => ?_) (fun _ => ?_)
        · exact h4
        · refine Kept.trans ?_ (State.endFlight_kept ..)
          exact h4

/-- What State.complete keeps. -/
theorem State.complete_kept : ∀ s v1 v2, Kept s (State.complete s v1 v2) := by
  intro s v1 v2
  unfold State.complete
  have h1 := Kept.refl s
  split
  · exact h1
  · refine Kept.ifs (fun _ => ?_) (fun _ => ?_)
    · refine Kept.trans ?_ (State.endFlight_kept ..)
      exact h1
    · refine Kept.ifs (fun _ => ?_) (fun _ => ?_)
      · exact h1
      · split
        · refine Kept.ifs (fun _ => ?_) (fun _ => ?_)
          · refine Kept.trans ?_ (State.endFlight_kept ..)
            exact h1
          · exact h1
        · refine Kept.ifs (fun _ => ?_) (fun _ => ?_)
          · refine Kept.ifs (fun _ => ?_) (fun _ => ?_)
            · exact h1
            · extract_lets +onlyGivenNames -underBinder -merge x1
              have h2 : Kept s x1 := by
                dsimp -zeta only [x1]
                refine Kept.trans ?_ (State.applyEffect_kept ..)
                exact h1
              try clear_value x1
              split
              · refine Kept.ifs (fun _ => ?_) (fun _ => ?_)
                · refine Kept.trans ?_ (State.endFlight_kept ..)
                  exact h2
                · refine Kept.ifs (fun _ => ?_) (fun _ => ?_)
                  · refine Kept.trans ?_ (State.finishEffect_kept ..)
                    exact h2
                  · exact h2
              · exact h2
          · refine Kept.ifs (fun _ => ?_) (fun _ => ?_)
            · refine Kept.trans ?_ (State.finishEffect_kept ..)
              exact h1
            · refine Kept.ifs (fun _ => ?_) (fun _ => ?_)
              · refine Kept.trans ?_ (State.finishEffect_kept ..)
                exact h1
              · exact h1
        · refine Kept.ifs (fun _ => ?_) (fun _ => ?_)
          · refine Kept.ifs (fun _ => ?_) (fun _ => ?_)
            · exact h1
            · extract_lets +onlyGivenNames -underBinder -merge x2
              have h3 : Kept s x2 := by
                dsimp -zeta only [x2]
                refine Kept.trans ?_ (State.applyEffect_kept ..)
                exact h1
              try clear_value x2
              split
              · refine Kept.ifs (fun _ => ?_) (fun _ => ?_)
                · refine Kept.trans ?_ (State.endFlight_kept ..)
                  exact h3
                · refine Kept.ifs (fun _ => ?_) (fun _ => ?_)
                  · refine Kept.trans ?_ (State.finishEffect_kept ..)
                    exact h3
                  · exact h3
              · exact h3
          · refine Kept.ifs (fun _ => ?_) (fun _ => ?_)
            · refine Kept.trans ?_ (State.finishEffect_kept ..)
              exact h1
            · refine Kept.ifs (fun _ => ?_) (fun _ => ?_)
              · refine Kept.trans ?_ (State.finishEffect_kept ..)
                exact h1
              · exact h1
        · refine Kept.ifs (fun _ => ?_) (fun _ => ?_)
          · refine Kept.trans ?_ (State.endFlight_kept ..)
            exact h1
          · exact h1
        · exact h1

/-- What execDescriptorComplete keeps. -/
theorem execDescriptorComplete_kept : ∀ v0 v1 s, Kept s (outOr s ((execDescriptorComplete v0 v1 s))) := by
  intro v0 v1 s
  unfold execDescriptorComplete
  have h1 := Kept.refl s
  refine Kept.next ?_
  refine Kept.trans ?_ (State.complete_kept ..)
  exact h1

/-! ## TileRows -/

/-- What execTileStoreRestore keeps. -/
theorem execTileStoreRestore_kept : ∀ v0 v1 s, Kept s (outOr s ((execTileStoreRestore v0 v1 s))) := by
  intro v0 v1 s
  unfold execTileStoreRestore
  have h1 := Kept.refl s
  refine Kept.next ?_
  refine Kept.ifs (fun _ => ?_) (fun _ => ?_)
  · refine Kept.trans ?_ (State.restoreTs_kept ..)
    exact h1
  · exact h1

/-- What execTsScrub keeps. -/
theorem execTsScrub_kept : ∀ v0 v1 v2 v3 s, Kept s (outOr s ((execTsScrub v0 v1 v2 v3 s))) := by
  intro v0 v1 v2 v3 s
  unfold execTsScrub
  have h1 := Kept.refl s
  extract_lets +onlyGivenNames -underBinder -merge x1
  try clear_value x1
  refine Kept.ite (outOr s) (fun _ => ?_) (fun _ => ?_)
  · refine Kept.next ?_
    exact h1
  · extract_lets +onlyGivenNames -underBinder -merge x2
    try clear_value x2
    extract_lets +onlyGivenNames -underBinder -merge x3
    try clear_value x3
    extract_lets +onlyGivenNames -underBinder -merge x4
    try clear_value x4
    extract_lets +onlyGivenNames -underBinder -merge x5
    try clear_value x5
    extract_lets +onlyGivenNames -underBinder -merge x6
    try clear_value x6
    extract_lets +onlyGivenNames -underBinder -merge x7
    try clear_value x7
    extract_lets +onlyGivenNames -underBinder -merge x8
    have h2 : Kept s x8 := by
      dsimp -zeta only [x8]
      refine Kept.trans ?_ (State.modTile_kept ..)
      exact h1
    try clear_value x8
    refine Kept.next ?_
    refine Kept.folds _ (fun t1 x9 h3 => ?_) ?_
    · try dsimp -zeta only
      refine Kept.trans ?_ (State.logAccess_kept ..)
      exact h3
    · try dsimp -zeta only
      exact h2

/-- What execTileFailure keeps. -/
theorem execTileFailure_kept : ∀ v0 v1 s, Kept s (outOr s ((execTileFailure v0 v1 s))) := by
  intro v0 v1 s
  unfold execTileFailure
  have h1 := Kept.refl s
  extract_lets +onlyGivenNames -underBinder -merge x1
  try clear_value x1
  refine Kept.ite (outOr s) (fun _ => ?_) (fun _ => ?_)
  · refine Kept.next ?_
    exact h1
  · extract_lets +onlyGivenNames -underBinder -merge x2
    have h2 : Kept s x2 := by
      dsimp -zeta only [x2]
      refine Kept.trans ?_ (State.modDie_kept ..)
      exact h1
    try clear_value x2
    extract_lets +onlyGivenNames -underBinder -merge x3
    have h3 : Kept s x3 := by
      dsimp -zeta only [x3]
      refine Kept.trans ?_ (State.modTile_kept ..)
      exact h2
    try clear_value x3
    extract_lets +onlyGivenNames -underBinder -merge x4
    have h4 : Kept s x4 := by
      dsimp -zeta only [x4]
      refine Kept.trans ?_ (State.dieEvent_kept ..)
      exact h3
    try clear_value x4
    extract_lets +onlyGivenNames -underBinder -merge x5
    try clear_value x5
    refine Kept.next ?_
    refine Kept.folds _ (fun t1 x6 h5 => ?_) ?_
    · try dsimp -zeta only
      refine Kept.trans ?_ (State.endFlight_kept ..)
      exact h5
    · try dsimp -zeta only
      exact h4

/-- What execKernelLaunch keeps. -/
theorem execKernelLaunch_kept : ∀ v0 v1 s, Kept s (outOr s ((execKernelLaunch v0 v1 s))) := by
  intro v0 v1 s
  unfold execKernelLaunch
  have h1 := Kept.refl s
  refine Kept.next ?_
  refine Kept.trans ?_ (State.modTile_kept ..)
  exact h1

/-- What execGroupStart keeps. -/
theorem execGroupStart_kept : ∀ v0 v1 s, Kept s (outOr s ((execGroupStart v0 v1 s))) := by
  intro v0 v1 s
  unfold execGroupStart
  have h1 := Kept.refl s
  refine Kept.next ?_
  refine Kept.trans ?_ (State.modTile_kept ..)
  exact h1

/-! ## GxeOps -/

/-- What GxeAt.put keeps. -/
theorem GxeAt.put_kept : ∀ v0 s v2, Kept s (GxeAt.put v0 s v2) := by
  intro v0 s v2
  unfold GxeAt.put
  have h1 := Kept.refl s
  refine Kept.trans ?_ (State.modTile_kept ..)
  exact h1

/-- What State.gxe keeps. -/
theorem State.gxe_kept (run : State → GxeAt → GxeRes) (hr : ∀ s x, Kept s (resOr s (run s x))) :
    ∀ s d t n mine, Kept s (State.gxe s d t n mine run) := by
  intro s d t n mine
  unfold State.gxe
  extract_lets +onlyGivenNames k g
  split
  · rename_i kern _ _
    extract_lets +onlyGivenNames pc
    refine Kept.ifs (fun _ => State.groupFault_kept ..) (fun _ => Kept.ifs (fun _ => State.groupFault_kept ..) (fun _ =>
      Kept.ifs (fun _ => State.groupFault_kept ..) (fun _ => ?_)))
    extract_lets +onlyGivenNames w
    refine Kept.ifs (fun _ => State.groupFault_kept ..) (fun _ => Kept.ifs (fun _ => State.groupFault_kept ..) (fun _ =>
      Kept.ifs (fun _ => .refl s) (fun _ => ?_)))
    have h := hr s ⟨d, t, n, g, kern, w, g.part w⟩
    split
    · rename_i e q
      extract_lets u
      have hu : Kept s u :=
        Kept.ifs (fun _ => State.logAccess_kept ..) (fun _ => Kept.ifs (fun _ => State.logAccess_kept ..) (fun _ => .refl s))
      exact hu.trans (State.groupFault_kept ..)
    · rename_i u q
      rw [q] at h
      exact Kept.ifs (fun _ => h) (fun _ => Kept.trans h (State.modTile_kept ..))
  · exact .refl s

/-- What runThreads keeps. -/
theorem runThreads_kept : ∀ v0 s v2, Kept s (resOr s ((runThreads v0 s v2))) := by
  intro v0 s v2
  unfold runThreads
  have h1 := Kept.refl s
  refine Kept.okk ?_
  refine Kept.trans ?_ (GxeAt.put_kept ..)
  exact h1

/-- What State.l1Fill keeps. -/
theorem State.l1Fill_kept : ∀ s v1 v2 v3 v4, Kept s (State.l1Fill s v1 v2 v3 v4) := by
  intro s v1 v2 v3 v4
  unfold State.l1Fill
  have h1 := Kept.refl s
  extract_lets +onlyGivenNames -underBinder -merge x1
  try clear_value x1
  refine Kept.ifs (fun _ => ?_) (fun _ => ?_)
  · refine Kept.trans ?_ (State.modTile_kept ..)
    exact h1
  · split
    · rename_i a1 a2 q1
      have h2 : Kept s a2 := by
        have e := congrArg Prod.snd q1
        dsimp only at e
        rw [← e]
        refine Kept.trans ?_ (State.free_kept ..)
        exact h1
      extract_lets +onlyGivenNames -underBinder -merge x2
      try clear_value x2
      refine Kept.trans ?_ (State.modTile_kept ..)
      exact h2

/-- What GxeAt.read keeps. -/
theorem GxeAt.read_kept : ∀ v0 s v2 v3, Kept s ((GxeAt.read v0 s v2 v3).2) := by
  intro v0 s v2 v3
  unfold GxeAt.read
  have h1 := Kept.refl s
  extract_lets +onlyGivenNames -underBinder -merge x1
  try clear_value x1
  extract_lets +onlyGivenNames -underBinder -merge x2
  try clear_value x2
  split
  · refine Kept.ite Prod.snd (fun _ => ?_) (fun _ => ?_)
    · try dsimp -zeta only
      exact h1
    · try dsimp -zeta only
      exact h1
  · refine Kept.ite Prod.snd (fun _ => ?_) (fun _ => ?_)
    · try dsimp -zeta only
      exact h1
    · try dsimp -zeta only
      exact h1
  · extract_lets +onlyGivenNames -underBinder -merge x3
    try clear_value x3
    extract_lets +onlyGivenNames -underBinder -merge x4
    try clear_value x4
    extract_lets +onlyGivenNames -underBinder -merge x5
    try clear_value x5
    split
    · try dsimp -zeta only
      exact h1
    · refine Kept.ite Prod.snd (fun _ => ?_) (fun _ => ?_)
      · split
        · rename_i a1 a2 q1
          have h2 : Kept s a2 := by
            have e := congrArg Prod.snd q1
            dsimp only at e
            rw [← e]
            refine Kept.trans ?_ (State.readMem_kept ..)
            exact h1
          try dsimp -zeta only
          refine Kept.trans ?_ (State.l1Fill_kept ..)
          exact h2
        · rename_i a3 a4 q2
          have h3 : Kept s a4 := by
            have e := congrArg Prod.snd q2
            dsimp only at e
            rw [← e]
            refine Kept.trans ?_ (State.readMem_kept ..)
            exact h1
          try dsimp -zeta only
          exact h3
      · split
        · rename_i a5 a6 q3
          have h4 : Kept s a6 := by
            have e := congrArg Prod.snd q3
            dsimp only at e
            rw [← e]
            refine Kept.trans ?_ (State.readMem_kept ..)
            exact h1
          try dsimp -zeta only
          exact h4
        · rename_i a7 a8 q4
          have h5 : Kept s a8 := by
            have e := congrArg Prod.snd q4
            dsimp only at e
            rw [← e]
            refine Kept.trans ?_ (State.readMem_kept ..)
            exact h1
          try dsimp -zeta only
          exact h5

/-- What GxeAt.readAll keeps. -/
theorem GxeAt.readAll_kept : ∀ x n l s, Kept s (GxeAt.readAll x n l s).2 := by
  intro x n l
  induction l with
  | nil => intro s; exact .refl s
  | cons a r ih =>
    intro s
    unfold GxeAt.readAll
    have h := GxeAt.read_kept x s n a
    split
    · rename_i e u q
      rw [q] at h
      exact h
    · rename_i b u q
      rw [q] at h
      have i := ih u
      split
      · rename_i k z q3
        rw [q3] at i
        exact h.trans i
      · rename_i e z q3
        rw [q3] at i
        exact h.trans i

/-- What GxeAt.write keeps. -/
theorem GxeAt.write_kept : ∀ v0 s v2 v3, Kept s (GxeAt.write v0 s v2 v3) := by
  intro v0 s v2 v3
  unfold GxeAt.write
  have h1 := Kept.refl s
  extract_lets +onlyGivenNames -underBinder -merge x1
  try clear_value x1
  split
  · refine Kept.trans ?_ (State.modTile_kept ..)
    exact h1
  · refine Kept.trans ?_ (State.modTile_kept ..)
    exact h1
  · extract_lets +onlyGivenNames -underBinder -merge x2
    try clear_value x2
    split
    · rename_i a1 a2 q1
      have h2 : Kept s a2 := by
        have e := congrArg Prod.snd q1
        dsimp only at e
        rw [← e]
        refine Kept.trans ?_ (State.writeMem_kept ..)
        exact h1
      refine Kept.trans ?_ (State.modTile_kept ..)
      exact h2

/-- What GxeAt.atomicWrite keeps. -/
theorem GxeAt.atomicWrite_kept : ∀ v0 s v2 v3, Kept s (GxeAt.atomicWrite v0 s v2 v3) := by
  intro v0 s v2 v3
  unfold GxeAt.atomicWrite
  have h1 := Kept.refl s
  extract_lets +onlyGivenNames -underBinder -merge x1
  have h2 : Kept s x1 := by
    dsimp -zeta only [x1]
    refine Kept.trans ?_ (GxeAt.write_kept ..)
    exact h1
  try clear_value x1
  split
  · refine Kept.ifs (fun _ => ?_) (fun _ => ?_)
    · exact h2
    · refine Kept.trans ?_ (State.modDie_kept ..)
      exact h2
  · exact h2

/-- What State.l1Drop keeps. -/
theorem State.l1Drop_kept : ∀ s v1 v2 v3, Kept s (State.l1Drop s v1 v2 v3) := by
  intro s v1 v2 v3
  unfold State.l1Drop
  have h1 := Kept.refl s
  refine Kept.trans ?_ (State.modTile_kept ..)
  exact h1

/-- What State.l1Clear keeps. -/
theorem State.l1Clear_kept : ∀ s v1 v2, Kept s (State.l1Clear s v1 v2) := by
  intro s v1 v2
  unfold State.l1Clear
  have h1 := Kept.refl s
  refine Kept.trans ?_ (State.modTile_kept ..)
  exact h1

/-- What State.putPlate keeps. -/
theorem State.putPlate_kept : ∀ s v1 v2 v3 v4, Kept s (State.putPlate s v1 v2 v3 v4) := by
  intro s v1 v2 v3 v4
  unfold State.putPlate
  have h1 := Kept.refl s
  refine Kept.trans ?_ (State.modTile_kept ..)
  exact h1

/-! ## Gxe -/

/-- What runArith keeps. -/
theorem runArith_kept : ∀ v0 v1 s v3, Kept s (resOr s ((runArith v0 v1 s v3))) := by
  intro v0 v1 s v3
  unfold runArith
  have h1 := Kept.refl s
  extract_lets +onlyGivenNames -underBinder -merge x1
  try clear_value x1
  extract_lets +onlyGivenNames -underBinder -merge x2
  try clear_value x2
  refine Kept.okk ?_
  refine Kept.trans ?_ (State.descFlags_kept ..)
  refine Kept.trans ?_ (GxeAt.put_kept ..)
  exact h1

/-- What execGxeInteger keeps. -/
theorem execGxeInteger_kept : ∀ v0 v1 v2 s, Kept s (outOr s ((execGxeInteger v0 v1 v2 s))) := by
  intro v0 v1 v2 s
  unfold execGxeInteger
  have h1 := Kept.refl s
  refine Kept.next ?_
  refine Kept.trans ?_ (State.gxe_kept _ (?_) _ _ _ _ _)
  · exact h1
  · intro t1 y1
    try dsimp -zeta only
    have h2 := Kept.refl t1
    refine Kept.res ?_ (runArith_kept ..)
    exact h2

/-- What execGxeFp32 keeps. -/
theorem execGxeFp32_kept : ∀ v0 v1 v2 s, Kept s (outOr s ((execGxeFp32 v0 v1 v2 s))) := by
  intro v0 v1 v2 s
  unfold execGxeFp32
  have h1 := Kept.refl s
  refine Kept.next ?_
  refine Kept.trans ?_ (State.gxe_kept _ (?_) _ _ _ _ _)
  · exact h1
  · intro t1 y1
    try dsimp -zeta only
    have h2 := Kept.refl t1
    refine Kept.res ?_ (runArith_kept ..)
    exact h2

/-- What execGxeFp64 keeps. -/
theorem execGxeFp64_kept : ∀ v0 v1 v2 s, Kept s (outOr s ((execGxeFp64 v0 v1 v2 s))) := by
  intro v0 v1 v2 s
  unfold execGxeFp64
  have h1 := Kept.refl s
  refine Kept.next ?_
  refine Kept.trans ?_ (State.gxe_kept _ (?_) _ _ _ _ _)
  · exact h1
  · intro t1 y1
    try dsimp -zeta only
    have h2 := Kept.refl t1
    refine Kept.res ?_ (runArith_kept ..)
    exact h2

/-- What execGxePacked16 keeps. -/
theorem execGxePacked16_kept : ∀ v0 v1 v2 s, Kept s (outOr s ((execGxePacked16 v0 v1 v2 s))) := by
  intro v0 v1 v2 s
  unfold execGxePacked16
  have h1 := Kept.refl s
  refine Kept.next ?_
  refine Kept.trans ?_ (State.gxe_kept _ (?_) _ _ _ _ _)
  · exact h1
  · intro t1 y1
    try dsimp -zeta only
    have h2 := Kept.refl t1
    refine Kept.res ?_ (runArith_kept ..)
    exact h2

/-- What execCvt keeps. -/
theorem execCvt_kept : ∀ v0 v1 v2 s, Kept s (outOr s ((execCvt v0 v1 v2 s))) := by
  intro v0 v1 v2 s
  unfold execCvt
  have h1 := Kept.refl s
  refine Kept.next ?_
  refine Kept.trans ?_ (State.gxe_kept _ (?_) _ _ _ _ _)
  · exact h1
  · intro t1 y1
    try dsimp -zeta only
    have h2 := Kept.refl t1
    refine Kept.res ?_ (runArith_kept ..)
    exact h2

/-- What execGxeCompare keeps. -/
theorem execGxeCompare_kept : ∀ v0 v1 v2 s, Kept s (outOr s ((execGxeCompare v0 v1 v2 s))) := by
  intro v0 v1 v2 s
  unfold execGxeCompare
  have h1 := Kept.refl s
  refine Kept.next ?_
  refine Kept.trans ?_ (State.gxe_kept _ (?_) _ _ _ _ _)
  · exact h1
  · intro t1 y1
    try dsimp -zeta only
    have h2 := Kept.refl t1
    refine Kept.res ?_ (runThreads_kept ..)
    exact h2

/-- What execMov keeps. -/
theorem execMov_kept : ∀ v0 v1 v2 s, Kept s (outOr s ((execMov v0 v1 v2 s))) := by
  intro v0 v1 v2 s
  unfold execMov
  have h1 := Kept.refl s
  refine Kept.next ?_
  refine Kept.trans ?_ (State.gxe_kept _ (?_) _ _ _ _ _)
  · exact h1
  · intro t1 y1
    try dsimp -zeta only
    have h2 := Kept.refl t1
    refine Kept.res ?_ (runArith_kept ..)
    exact h2

/-- What execRdsp keeps. -/
theorem execRdsp_kept : ∀ v0 v1 v2 s, Kept s (outOr s ((execRdsp v0 v1 v2 s))) := by
  intro v0 v1 v2 s
  unfold execRdsp
  have h1 := Kept.refl s
  refine Kept.next ?_
  refine Kept.trans ?_ (State.gxe_kept _ (?_) _ _ _ _ _)
  · exact h1
  · intro t1 y1
    try dsimp -zeta only
    have h2 := Kept.refl t1
    extract_lets +onlyGivenNames -underBinder -merge x1 x2
    try clear_value x1 x2
    refine Kept.okk ?_
    refine Kept.trans ?_ (GxeAt.put_kept ..)
    exact h2

/-- What execSetplen keeps. -/
theorem execSetplen_kept : ∀ v0 v1 v2 s, Kept s (outOr s ((execSetplen v0 v1 v2 s))) := by
  intro v0 v1 v2 s
  unfold execSetplen
  have h1 := Kept.refl s
  refine Kept.next ?_
  refine Kept.trans ?_ (State.gxe_kept _ (?_) _ _ _ _ _)
  · exact h1
  · intro t1 y1
    try dsimp -zeta only
    have h2 := Kept.refl t1
    refine Kept.okk ?_
    refine Kept.trans ?_ (GxeAt.put_kept ..)
    exact h2

/-- What execShfl keeps. -/
theorem execShfl_kept : ∀ v0 v1 v2 s, Kept s (outOr s ((execShfl v0 v1 v2 s))) := by
  intro v0 v1 v2 s
  unfold execShfl
  have h1 := Kept.refl s
  refine Kept.next ?_
  refine Kept.trans ?_ (State.gxe_kept _ (?_) _ _ _ _ _)
  · exact h1
  · intro t1 y1
    try dsimp -zeta only
    have h2 := Kept.refl t1
    refine Kept.res ?_ (runArith_kept ..)
    exact h2

/-- What execGxeLoad keeps. -/
theorem execGxeLoad_kept : ∀ v0 v1 v2 s, Kept s (outOr s ((execGxeLoad v0 v1 v2 s))) := by
  intro v0 v1 v2 s
  unfold execGxeLoad
  have h1 := Kept.refl s
  refine Kept.next ?_
  refine Kept.trans ?_ (State.gxe_kept _ (?_) _ _ _ _ _)
  · exact h1
  · intro t1 y1
    try dsimp -zeta only
    have h2 := Kept.refl t1
    extract_lets +onlyGivenNames -underBinder -merge x1
    try clear_value x1
    split
    · exact Kept.refl _
    · split
      · rename_i a1 a2 q1
        have h3 : Kept t1 a2 := by
          have e := congrArg Prod.snd q1
          dsimp only at e
          rw [← e]
          refine Kept.trans ?_ (GxeAt.readAll_kept ..)
          exact h2
        exact Kept.refl _
      · rename_i a3 a4 q2
        have h4 : Kept t1 a4 := by
          have e := congrArg Prod.snd q2
          dsimp only at e
          rw [← e]
          refine Kept.trans ?_ (GxeAt.readAll_kept ..)
          exact h2
        refine Kept.okk ?_
        refine Kept.trans ?_ (GxeAt.put_kept ..)
        exact h4

/-- What execGxeStore keeps. -/
theorem execGxeStore_kept : ∀ v0 v1 v2 s, Kept s (outOr s ((execGxeStore v0 v1 v2 s))) := by
  intro v0 v1 v2 s
  unfold execGxeStore
  have h1 := Kept.refl s
  refine Kept.next ?_
  refine Kept.trans ?_ (State.gxe_kept _ (?_) _ _ _ _ _)
  · exact h1
  · intro t1 y1
    try dsimp -zeta only
    have h2 := Kept.refl t1
    extract_lets +onlyGivenNames -underBinder -merge x1
    try clear_value x1
    split
    · exact Kept.refl _
    · extract_lets +onlyGivenNames -underBinder -merge x2
      have h3 : Kept t1 x2 := by
        dsimp -zeta only [x2]
        refine Kept.folds _ (fun t2 x3 h4 => ?_) ?_
        · try dsimp -zeta only
          refine Kept.trans ?_ (GxeAt.write_kept ..)
          exact h4
        · try dsimp -zeta only
          exact h2
      try clear_value x2
      refine Kept.okk ?_
      refine Kept.trans ?_ (GxeAt.put_kept ..)
      exact h3

/-- What GxeAt.atomicOne keeps. -/
theorem GxeAt.atomicOne_kept : ∀ x n (sg : State × Group) l, Kept sg.1 (GxeAt.atomicOne x n sg l).1 := by
  intro x n sg l
  unfold GxeAt.atomicOne
  have h := GxeAt.read_kept x.bypass sg.1 n (l.headD 0)
  split
  · rename_i b u q
    rw [q] at h
    exact h.trans (GxeAt.atomicWrite_kept ..)
  · rename_i u q
    rw [q] at h
    exact h

/-- What execGxeAtomic keeps. -/
theorem execGxeAtomic_kept : ∀ d t n s, Kept s (outOr s (execGxeAtomic d t n s)) := by
  intro d t n s
  refine Kept.next (State.gxe_kept _ (fun s x => ?_) _ _ _ _ _)
  dsimp -zeta only
  extract_lets +onlyGivenNames size
  split
  · exact .refl s
  · split
    · exact .refl s
    · have h : Kept s ((x.byAddr 32 x.part).foldl (x.atomicOne size) (s, x.g)).1 :=
        Kept.foldl Prod.fst _ (fun _ _ h => h.trans (GxeAt.atomicOne_kept ..)) (.refl s)
      generalize (x.byAddr 32 x.part).foldl (x.atomicOne size) (s, x.g) = p at h ⊢
      refine Kept.okk (Kept.trans ?_ (GxeAt.put_kept ..))
      exact Kept.ifs (fun _ => Kept.folds _ (fun _ _ g => g.trans (State.l1Drop_kept ..)) h) (fun _ => h)

/-- What runPlate keeps. -/
theorem runPlate_kept (f : State → GxeAt → Nat → State) (hf : ∀ s x n, Kept s (f s x n)) : ∀ ps s x, Kept s (resOr s (runPlate f ps s x)) := by
  intro ps s x
  unfold runPlate
  split
  · exact Kept.okk (GxeAt.put_kept ..)
  · split
    · exact .refl s
    · split
      · exact .refl s
      · exact Kept.okk ((hf ..).trans (GxeAt.put_kept ..))

/-- What plateStoreBack keeps. -/
theorem plateStoreBack_kept : ∀ s v1 v2 v3, Kept s (plateStoreBack s v1 v2 v3) := by
  intro s v1 v2 v3
  unfold plateStoreBack
  have h1 := Kept.refl s
  extract_lets +onlyGivenNames -underBinder -merge x1
  try clear_value x1
  extract_lets +onlyGivenNames -underBinder -merge x2
  have h2 : Kept s x2 := by
    dsimp -zeta only [x2]
    refine Kept.trans ?_ (State.putPlate_kept ..)
    exact h1
  try clear_value x2
  refine Kept.trans ?_ (State.descFlags_kept ..)
  refine Kept.trans ?_ (State.modTile_kept ..)
  exact h2

/-- What execPlateOp keeps. -/
theorem execPlateOp_kept : ∀ d t n s, Kept s (outOr s (execPlateOp d t n s)) := by
  intro d t n s
  refine Kept.next (State.gxe_kept _ (fun s x => runPlate_kept _ (fun s x _ => ?_) _ _ _) _ _ _ _ _)
  split
  · exact Kept.ifs (fun _ => (State.free_kept s 8192).trans (plateStoreBack_kept ..)) (fun _ => plateStoreBack_kept ..)
  · exact .refl s

/-- What execPlateLookup keeps. -/
theorem execPlateLookup_kept : ∀ v0 v1 v2 s, Kept s (outOr s ((execPlateLookup v0 v1 v2 s))) := by
  intro v0 v1 v2 s
  unfold execPlateLookup
  have h1 := Kept.refl s
  refine Kept.next ?_
  refine Kept.trans ?_ (State.gxe_kept _ (?_) _ _ _ _ _)
  · exact h1
  · intro t1 y1
    try dsimp -zeta only
    have h2 := Kept.refl t1
    refine Kept.res ?_ (runPlate_kept _ (?_) _ _ _)
    · exact h2
    · intro t2 y2 y3
      try dsimp -zeta only
      have h3 := Kept.refl t2
      split
      · extract_lets +onlyGivenNames -underBinder -merge x1
        try clear_value x1
        extract_lets +onlyGivenNames -underBinder -merge x2
        try clear_value x2
        extract_lets +onlyGivenNames -underBinder -merge x3
        try clear_value x3
        extract_lets +onlyGivenNames -underBinder -merge x4
        try clear_value x4
        refine Kept.trans ?_ (plateStoreBack_kept ..)
        exact h3
      · exact h3

/-- What runPlateMem keeps. -/
theorem runPlateMem_kept (f : State → GxeAt → PlateMem → State) (hf : ∀ s x n, Kept s (f s x n)) :
    ∀ load s x, Kept s (resOr s (runPlateMem load f s x)) := by
  intro load s x
  unfold runPlateMem
  split
  · exact Kept.okk (GxeAt.put_kept ..)
  · extract_lets m
    split
    · exact .refl s
    · exact Kept.okk ((hf ..).trans (GxeAt.put_kept ..))

/-- What execPlateLoad keeps. -/
theorem execPlateLoad_kept : ∀ v0 v1 v2 s, Kept s (outOr s ((execPlateLoad v0 v1 v2 s))) := by
  intro v0 v1 v2 s
  unfold execPlateLoad
  have h1 := Kept.refl s
  refine Kept.next ?_
  refine Kept.trans ?_ (State.gxe_kept _ (?_) _ _ _ _ _)
  · exact h1
  · intro t1 y1
    try dsimp -zeta only
    have h2 := Kept.refl t1
    refine Kept.res ?_ (runPlateMem_kept _ (?_) _ _ _)
    · exact h2
    · intro t2 y2 y3
      try dsimp -zeta only
      have h3 := Kept.refl t2
      extract_lets +onlyGivenNames -underBinder -merge x1
      try clear_value x1
      extract_lets +onlyGivenNames -underBinder -merge x2
      try clear_value x2
      extract_lets +onlyGivenNames -underBinder -merge x3
      try clear_value x3
      extract_lets +onlyGivenNames -underBinder -merge x4
      try clear_value x4
      extract_lets +onlyGivenNames -underBinder -merge x5
      have h4 : Kept t2 x5 := by
        dsimp -zeta only [x5]
        refine Kept.trans ?_ (State.putPlate_kept ..)
        exact h3
      try clear_value x5
      refine Kept.trans ?_ (State.descFlags_kept ..)
      refine Kept.trans ?_ (State.modTile_kept ..)
      exact h4

/-- What execPlateStore keeps. -/
theorem execPlateStore_kept : ∀ v0 v1 v2 s, Kept s (outOr s ((execPlateStore v0 v1 v2 s))) := by
  intro v0 v1 v2 s
  unfold execPlateStore
  have h1 := Kept.refl s
  refine Kept.next ?_
  refine Kept.trans ?_ (State.gxe_kept _ (?_) _ _ _ _ _)
  · exact h1
  · intro t1 y1
    try dsimp -zeta only
    have h2 := Kept.refl t1
    refine Kept.res ?_ (runPlateMem_kept _ (?_) _ _ _)
    · exact h2
    · intro t2 y2 y3
      try dsimp -zeta only
      have h3 := Kept.refl t2
      extract_lets +onlyGivenNames -underBinder -merge x1
      try clear_value x1
      extract_lets +onlyGivenNames -underBinder -merge x2
      try clear_value x2
      extract_lets +onlyGivenNames -underBinder -merge x3
      try clear_value x3
      extract_lets +onlyGivenNames -underBinder -merge x4
      try clear_value x4
      extract_lets +onlyGivenNames -underBinder -merge x5
      have h4 : Kept t2 x5 := by
        dsimp -zeta only [x5]
        refine Kept.trans ?_ (State.modTile_kept ..)
        exact h3
      try clear_value x5
      refine Kept.trans ?_ (State.descFlags_kept ..)
      exact h4

/-- What runJump keeps. -/
theorem runJump_kept : ∀ v0 v1 s v3, Kept s (resOr s ((runJump v0 v1 s v3))) := by
  intro v0 v1 s v3
  unfold runJump
  have h1 := Kept.refl s
  split
  · refine Kept.okk ?_
    refine Kept.trans ?_ (GxeAt.put_kept ..)
    exact h1
  · refine Kept.ite (resOr s) (fun _ => ?_) (fun _ => ?_)
    · exact Kept.refl _
    · refine Kept.okk ?_
      refine Kept.trans ?_ (GxeAt.put_kept ..)
      exact h1

/-- What execBra keeps. -/
theorem execBra_kept : ∀ v0 v1 v2 s, Kept s (outOr s ((execBra v0 v1 v2 s))) := by
  intro v0 v1 v2 s
  unfold execBra
  have h1 := Kept.refl s
  refine Kept.next ?_
  refine Kept.trans ?_ (State.gxe_kept _ (?_) _ _ _ _ _)
  · exact h1
  · intro t1 y1
    try dsimp -zeta only
    have h2 := Kept.refl t1
    refine Kept.res ?_ (runJump_kept ..)
    exact h2

/-- What execBrd keeps. -/
theorem execBrd_kept : ∀ v0 v1 v2 s, Kept s (outOr s ((execBrd v0 v1 v2 s))) := by
  intro v0 v1 v2 s
  unfold execBrd
  have h1 := Kept.refl s
  refine Kept.next ?_
  refine Kept.trans ?_ (State.gxe_kept _ (?_) _ _ _ _ _)
  · exact h1
  · intro t1 y1
    try dsimp -zeta only
    have h2 := Kept.refl t1
    split
    · refine Kept.okk ?_
      refine Kept.trans ?_ (GxeAt.put_kept ..)
      exact h2
    · exact Kept.refl _

/-- What execJoin keeps. -/
theorem execJoin_kept : ∀ v0 v1 v2 s, Kept s (outOr s ((execJoin v0 v1 v2 s))) := by
  intro v0 v1 v2 s
  unfold execJoin
  have h1 := Kept.refl s
  refine Kept.next ?_
  refine Kept.trans ?_ (State.gxe_kept _ (?_) _ _ _ _ _)
  · exact h1
  · intro t1 y1
    try dsimp -zeta only
    have h2 := Kept.refl t1
    refine Kept.okk ?_
    refine Kept.trans ?_ (GxeAt.put_kept ..)
    exact h2

/-- What execCall keeps. -/
theorem execCall_kept : ∀ v0 v1 v2 s, Kept s (outOr s ((execCall v0 v1 v2 s))) := by
  intro v0 v1 v2 s
  unfold execCall
  have h1 := Kept.refl s
  refine Kept.next ?_
  refine Kept.trans ?_ (State.gxe_kept _ (?_) _ _ _ _ _)
  · exact h1
  · intro t1 y1
    try dsimp -zeta only
    have h2 := Kept.refl t1
    refine Kept.res ?_ (runJump_kept ..)
    exact h2

/-- What execRet keeps. -/
theorem execRet_kept : ∀ v0 v1 v2 s, Kept s (outOr s ((execRet v0 v1 v2 s))) := by
  intro v0 v1 v2 s
  unfold execRet
  have h1 := Kept.refl s
  refine Kept.next ?_
  refine Kept.trans ?_ (State.gxe_kept _ (?_) _ _ _ _ _)
  · exact h1
  · intro t1 y1
    try dsimp -zeta only
    have h2 := Kept.refl t1
    refine Kept.res ?_ (runJump_kept ..)
    exact h2

/-- What execJmpi keeps. -/
theorem execJmpi_kept : ∀ v0 v1 v2 s, Kept s (outOr s ((execJmpi v0 v1 v2 s))) := by
  intro v0 v1 v2 s
  unfold execJmpi
  have h1 := Kept.refl s
  refine Kept.next ?_
  refine Kept.trans ?_ (State.gxe_kept _ (?_) _ _ _ _ _)
  · exact h1
  · intro t1 y1
    try dsimp -zeta only
    have h2 := Kept.refl t1
    refine Kept.res ?_ (runJump_kept ..)
    exact h2

/-- What execExit keeps. -/
theorem execExit_kept : ∀ v0 v1 v2 s, Kept s (outOr s ((execExit v0 v1 v2 s))) := by
  intro v0 v1 v2 s
  unfold execExit
  have h1 := Kept.refl s
  refine Kept.next ?_
  refine Kept.trans ?_ (State.gxe_kept _ (?_) _ _ _ _ _)
  · exact h1
  · intro t1 y1
    try dsimp -zeta only
    have h2 := Kept.refl t1
    split
    · refine Kept.okk ?_
      refine Kept.trans ?_ (State.modTile_kept ..)
      exact h2
    · exact Kept.refl _
    · refine Kept.okk ?_
      refine Kept.trans ?_ (GxeAt.put_kept ..)
      exact h2

/-- What execGxeNop keeps. -/
theorem execGxeNop_kept : ∀ v0 v1 v2 s, Kept s (outOr s ((execGxeNop v0 v1 v2 s))) := by
  intro v0 v1 v2 s
  unfold execGxeNop
  have h1 := Kept.refl s
  refine Kept.next ?_
  refine Kept.trans ?_ (State.gxe_kept _ (?_) _ _ _ _ _)
  · exact h1
  · intro t1 y1
    try dsimp -zeta only
    have h2 := Kept.refl t1
    refine Kept.okk ?_
    refine Kept.trans ?_ (GxeAt.put_kept ..)
    exact h2

/-- What execGsync keeps. -/
theorem execGsync_kept : ∀ v0 v1 v2 s, Kept s (outOr s ((execGsync v0 v1 v2 s))) := by
  intro v0 v1 v2 s
  unfold execGsync
  have h1 := Kept.refl s
  refine Kept.next ?_
  refine Kept.trans ?_ (State.gxe_kept _ (?_) _ _ _ _ _)
  · exact h1
  · intro t1 y1
    try dsimp -zeta only
    have h2 := Kept.refl t1
    split
    · exact Kept.refl _
    · exact Kept.refl _
    · refine Kept.okk ?_
      refine Kept.trans ?_ (GxeAt.put_kept ..)
      exact h2

/-- What execGsyncWatchdog keeps. -/
theorem execGsyncWatchdog_kept : ∀ v0 v1 v2 s, Kept s (outOr s ((execGsyncWatchdog v0 v1 v2 s))) := by
  intro v0 v1 v2 s
  unfold execGsyncWatchdog
  have h1 := Kept.refl s
  extract_lets +onlyGivenNames -underBinder -merge x1
  try clear_value x1
  refine Kept.ite (outOr s) (fun _ => ?_) (fun _ => ?_)
  · refine Kept.next ?_
    exact h1
  · refine Kept.next ?_
    refine Kept.trans ?_ (State.groupFault_kept ..)
    refine Kept.trans ?_ (State.modTile_kept ..)
    exact h1

/-- What execBarT keeps. -/
theorem execBarT_kept : ∀ v0 v1 v2 s, Kept s (outOr s ((execBarT v0 v1 v2 s))) := by
  intro v0 v1 v2 s
  unfold execBarT
  have h1 := Kept.refl s
  refine Kept.next ?_
  refine Kept.trans ?_ (State.gxe_kept _ (?_) _ _ _ _ _)
  · exact h1
  · intro t1 y1
    try dsimp -zeta only
    have h2 := Kept.refl t1
    refine Kept.okk ?_
    refine Kept.trans ?_ (GxeAt.put_kept ..)
    exact h2

/-- What execBarD keeps. -/
theorem execBarD_kept : ∀ v0 v1 v2 s, Kept s (outOr s ((execBarD v0 v1 v2 s))) := by
  intro v0 v1 v2 s
  unfold execBarD
  have h1 := Kept.refl s
  refine Kept.next ?_
  refine Kept.trans ?_ (State.gxe_kept _ (?_) _ _ _ _ _)
  · exact h1
  · intro t1 y1
    try dsimp -zeta only
    have h2 := Kept.refl t1
    refine Kept.okk ?_
    refine Kept.ifs (fun _ => ?_) (fun _ => ?_)
    · refine Kept.trans ?_ (GxeAt.put_kept ..)
      exact h2
    · refine Kept.trans ?_ (State.l1Clear_kept ..)
      refine Kept.trans ?_ (GxeAt.put_kept ..)
      exact h2

/-- What execBarS keeps. -/
theorem execBarS_kept : ∀ d t n s, Kept s (outOr s (execBarS d t n s)) := by
  intro d t n s
  refine Kept.next (State.gxe_kept _ (fun s x => ?_) _ _ _ _ _)
  split
  · exact Kept.okk (GxeAt.put_kept ..)
  · extract_lets +onlyGivenNames u
    have hu : Kept s u := (State.release_kept ..).trans (State.l1Clear_kept ..)
    clear_value u
    split
    · exact Kept.okk (hu.trans (GxeAt.put_kept ..))
    · exact Kept.okk ((hu.trans (State.modTile_kept ..)).trans (State.groupFault_kept ..))

/-- What execL1inv keeps. -/
theorem execL1inv_kept : ∀ v0 v1 v2 s, Kept s (outOr s ((execL1inv v0 v1 v2 s))) := by
  intro v0 v1 v2 s
  unfold execL1inv
  have h1 := Kept.refl s
  refine Kept.next ?_
  refine Kept.trans ?_ (State.gxe_kept _ (?_) _ _ _ _ _)
  · exact h1
  · intro t1 y1
    try dsimp -zeta only
    have h2 := Kept.refl t1
    refine Kept.okk ?_
    refine Kept.ifs (fun _ => ?_) (fun _ => ?_)
    · refine Kept.trans ?_ (GxeAt.put_kept ..)
      exact h2
    · refine Kept.trans ?_ (State.l1Clear_kept ..)
      refine Kept.trans ?_ (GxeAt.put_kept ..)
      exact h2

/-- What execRand32 keeps. -/
theorem execRand32_kept : ∀ v0 v1 v2 s, Kept s (outOr s ((execRand32 v0 v1 v2 s))) := by
  intro v0 v1 v2 s
  unfold execRand32
  have h1 := Kept.refl s
  refine Kept.next ?_
  refine Kept.trans ?_ (State.gxe_kept _ (?_) _ _ _ _ _)
  · exact h1
  · intro t1 y1
    try dsimp -zeta only
    have h2 := Kept.refl t1
    refine Kept.res ?_ (runThreads_kept ..)
    exact h2

/-- What execRand128 keeps. -/
theorem execRand128_kept : ∀ v0 v1 v2 s, Kept s (outOr s ((execRand128 v0 v1 v2 s))) := by
  intro v0 v1 v2 s
  unfold execRand128
  have h1 := Kept.refl s
  refine Kept.next ?_
  refine Kept.trans ?_ (State.gxe_kept _ (?_) _ _ _ _ _)
  · exact h1
  · intro t1 y1
    try dsimp -zeta only
    have h2 := Kept.refl t1
    refine Kept.res ?_ (runThreads_kept ..)
    exact h2

/-- What State.ctrlDone keeps. -/
theorem State.ctrlDone_kept : ∀ s v1 v2 v3 v4, Kept s (State.ctrlDone s v1 v2 v3 v4) := by
  intro s v1 v2 v3 v4
  unfold State.ctrlDone
  have h1 := Kept.refl s
  refine Kept.trans ?_ (State.modTile_kept ..)
  exact h1

/-- What State.onParked keeps. -/
theorem State.onParked_kept (f : Group → State → State) (hf : ∀ g s, Kept s (f g s)) : ∀ s d t n, Kept s (State.onParked s d t n f) := by
  intro s d t n
  unfold State.onParked
  exact Kept.ifs (fun _ => hf _ _) (fun _ => State.ctrlDone_kept ..)

/-- What execGxeReplay keeps. -/
theorem execGxeReplay_kept : ∀ v0 v1 v2 s, Kept s (outOr s ((execGxeReplay v0 v1 v2 s))) := by
  intro v0 v1 v2 s
  unfold execGxeReplay
  have h1 := Kept.refl s
  refine Kept.next ?_
  refine Kept.trans ?_ (State.onParked_kept _ (?_) _ _ _ _)
  · exact h1
  · intro y1 t1
    try dsimp -zeta only
    have h2 := Kept.refl t1
    refine Kept.trans ?_ (State.ctrlDone_kept ..)
    refine Kept.trans ?_ (State.modTile_kept ..)
    exact h2

/-- What execGxeSave keeps. -/
theorem execGxeSave_kept : ∀ v0 v1 v2 s, Kept s (outOr s ((execGxeSave v0 v1 v2 s))) := by
  intro v0 v1 v2 s
  unfold execGxeSave
  have h1 := Kept.refl s
  refine Kept.next ?_
  refine Kept.trans ?_ (State.onParked_kept _ (?_) _ _ _ _)
  · exact h1
  · intro y1 t1
    try dsimp -zeta only
    have h2 := Kept.refl t1
    split
    · refine Kept.trans ?_ (State.ctrlDone_kept ..)
      exact h2
    · split
      · rename_i a1 q1
        have h3 : Kept t1 a1 := by
          have e := congrArg Prod.snd q1
          dsimp only at e
          rw [← e]
          refine Kept.trans ?_ (State.writeMem_kept ..)
          exact h2
        refine Kept.trans ?_ (State.ctrlDone_kept ..)
        refine Kept.trans ?_ (State.modTile_kept ..)
        exact h3
      · rename_i a2 a3 q2
        have h4 : Kept t1 a3 := by
          have e := congrArg Prod.snd q2
          dsimp only at e
          rw [← e]
          refine Kept.trans ?_ (State.writeMem_kept ..)
          exact h2
        refine Kept.trans ?_ (State.ctrlDone_kept ..)
        exact h4

/-- What execGxeDiscard keeps. -/
theorem execGxeDiscard_kept : ∀ v0 v1 v2 s, Kept s (outOr s ((execGxeDiscard v0 v1 v2 s))) := by
  intro v0 v1 v2 s
  unfold execGxeDiscard
  have h1 := Kept.refl s
  refine Kept.next ?_
  refine Kept.trans ?_ (State.onParked_kept _ (?_) _ _ _ _)
  · exact h1
  · intro y1 t1
    try dsimp -zeta only
    have h2 := Kept.refl t1
    extract_lets +onlyGivenNames -underBinder -merge x1
    try clear_value x1
    extract_lets +onlyGivenNames -underBinder -merge x2
    have h3 : Kept t1 x2 := by
      dsimp -zeta only [x2]
      refine Kept.trans ?_ (State.modTile_kept ..)
      exact h2
    try clear_value x2
    refine Kept.trans ?_ (State.ctrlDone_kept ..)
    refine Kept.ifs (fun _ => ?_) (fun _ => ?_)
    · refine Kept.trans ?_ (State.modJob_kept ..)
      exact h3
    · exact h3

/-- What execGxeRestore keeps. -/
theorem execGxeRestore_kept : ∀ v0 v1 s, Kept s (outOr s ((execGxeRestore v0 v1 s))) := by
  intro v0 v1 s
  unfold execGxeRestore
  have h1 := Kept.refl s
  refine Kept.next ?_
  split
  · refine Kept.trans ?_ (State.ctrlDone_kept ..)
    exact h1
  · split
    · rename_i a1 a2 q1
      have h2 : Kept s a2 := by
        have e := congrArg Prod.snd q1
        dsimp only at e
        rw [← e]
        refine Kept.trans ?_ (State.readMem_kept ..)
        exact h1
      refine Kept.trans ?_ (State.ctrlDone_kept ..)
      exact h2
    · rename_i a3 a4 q2
      have h3 : Kept s a4 := by
        have e := congrArg Prod.snd q2
        dsimp only at e
        rw [← e]
        refine Kept.trans ?_ (State.readMem_kept ..)
        exact h1
      refine Kept.ifs (fun _ => ?_) (fun _ => ?_)
      · refine Kept.trans ?_ (State.ctrlDone_kept ..)
        exact h3
      · refine Kept.ifs (fun _ => ?_) (fun _ => ?_)
        · refine Kept.trans ?_ (State.ctrlDone_kept ..)
          exact h3
        · refine Kept.ifs (fun _ => ?_) (fun _ => ?_)
          · refine Kept.trans ?_ (State.ctrlDone_kept ..)
            exact h3
          · split
            · refine Kept.trans ?_ (State.ctrlDone_kept ..)
              exact h3
            · refine Kept.trans ?_ (State.ctrlDone_kept ..)
              refine Kept.trans ?_ (State.modTile_kept ..)
              exact h3

/-! ## Coherence -/

/-- What State.writeMasked keeps. -/
theorem State.writeMasked_kept : ∀ s v1 v2 v3 v4, Kept s ((State.writeMasked s v1 v2 v3 v4).2) := by
  intro s v1 v2 v3 v4
  unfold State.writeMasked
  have h1 := Kept.refl s
  refine Kept.ite Prod.snd (fun _ => ?_) (fun _ => ?_)
  · try dsimp -zeta only
    refine Kept.trans ?_ (State.logAccess_kept ..)
    exact h1
  · split
    · split
      · rename_i a1 q1
        have h2 : Kept s a1 := by
          have e := congrArg Prod.snd q1
          dsimp only at e
          rw [← e]
          refine Kept.trans ?_ (State.coherentWrite_kept ..)
          exact h1
        try dsimp -zeta only
        exact h2
      · rename_i a2 q2
        have h3 : Kept s a2 := by
          have e := congrArg Prod.snd q2
          dsimp only at e
          rw [← e]
          refine Kept.trans ?_ (State.coherentWrite_kept ..)
          exact h1
        try dsimp -zeta only
        refine Kept.trans ?_ (State.storePend_kept ..)
        refine Kept.trans ?_ (State.discard_kept ..)
        exact h3
    · try dsimp -zeta only
      refine Kept.folds _ (fun t1 x1 h4 => ?_) ?_
      · try dsimp -zeta only
        refine Kept.trans ?_ (State.writeMem_kept ..)
        exact h4
      · try dsimp -zeta only
        exact h1
    · try dsimp -zeta only
      refine Kept.trans ?_ (State.logAccess_kept ..)
      exact h1

/-- What State.wcDrain keeps. -/
theorem State.wcDrain_kept : ∀ s v1 v2, Kept s ((State.wcDrain s v1 v2).2) := by
  intro s v1 v2
  unfold State.wcDrain
  have h1 := Kept.refl s
  extract_lets +onlyGivenNames -underBinder -merge x1
  try clear_value x1
  refine Kept.ite Prod.snd (fun _ => ?_) (fun _ => ?_)
  · try dsimp -zeta only
    exact h1
  · extract_lets +onlyGivenNames -underBinder -merge x2
    have h2 : Kept s x2.2 := by
      dsimp -zeta only [x2]
      refine Kept.trans ?_ (State.writeMasked_kept ..)
      refine Kept.trans ?_ (State.modHart_kept ..)
      exact h1
    try clear_value x2
    try dsimp -zeta only
    exact h2

/-- What State.wcDrainAll keeps. -/
theorem State.wcDrainAll_kept : ∀ s v1, Kept s (State.wcDrainAll s v1) := by
  intro s v1
  unfold State.wcDrainAll
  have h1 := Kept.refl s
  refine Kept.folds _ (fun t1 x1 h2 => ?_) ?_
  · try dsimp -zeta only
    refine Kept.trans ?_ (State.wcDrain_kept ..)
    exact h2
  · try dsimp -zeta only
    exact h1

/-- What State.trap keeps. -/
theorem State.trap_kept : ∀ s v1 v2 v3, Kept s (State.trap s v1 v2 v3) := by
  intro s v1 v2 v3
  unfold State.trap
  have h1 := Kept.refl s
  refine Kept.trans ?_ (State.modHart_kept ..)
  refine Kept.trans ?_ (State.wcDrainAll_kept ..)
  exact h1

/-- What State.wcEvict keeps. -/
theorem State.wcEvict_kept : ∀ s v1 v2, Kept s (State.wcEvict s v1 v2) := by
  intro s v1 v2
  unfold State.wcEvict
  have h1 := Kept.refl s
  extract_lets +onlyGivenNames -underBinder -merge x1
  try clear_value x1
  split
  · rename_i a1 q1
    have h2 : Kept s a1 := by
      have e := congrArg Prod.snd q1
      dsimp only at e
      rw [← e]
      refine Kept.trans ?_ (State.wcDrain_kept ..)
      exact h1
    refine Kept.trans ?_ (State.trap_kept ..)
    exact h2
  · rename_i a2 q2
    have h3 : Kept s a2 := by
      have e := congrArg Prod.snd q2
      dsimp only at e
      rw [← e]
      refine Kept.trans ?_ (State.wcDrain_kept ..)
      exact h1
    exact h3

/-- What State.wcStore keeps. -/
theorem State.wcStore_kept : ∀ s v1 v2 v3 v4, Kept s (State.wcStore s v1 v2 v3 v4) := by
  intro s v1 v2 v3 v4
  unfold State.wcStore
  have h1 := Kept.refl s
  extract_lets +onlyGivenNames -underBinder -merge x1
  try clear_value x1
  extract_lets +onlyGivenNames -underBinder -merge x2
  try clear_value x2
  extract_lets +onlyGivenNames -underBinder -merge x3
  try clear_value x3
  extract_lets +onlyGivenNames -underBinder -merge x4
  try clear_value x4
  split
  · rename_i a1 a2 q1
    have h2 : Kept s a2 := by
      have e := congrArg Prod.snd q1
      dsimp only at e
      rw [← e]
      split
      · try dsimp -zeta only
        exact h1
      · split
        · try dsimp -zeta only
          exact h1
        · try dsimp -zeta only
          refine Kept.trans ?_ (State.wcEvict_kept ..)
          exact h1
    extract_lets +onlyGivenNames -underBinder -merge x5
    try clear_value x5
    extract_lets +onlyGivenNames -underBinder -merge x6
    have h3 : Kept s x6 := by
      dsimp -zeta only [x6]
      refine Kept.trans ?_ (State.modHart_kept ..)
      exact h2
    try clear_value x6
    refine Kept.ifs (fun _ => ?_) (fun _ => ?_)
    · refine Kept.trans ?_ (State.wcEvict_kept ..)
      exact h3
    · exact h3

/-- What execWcBufferDrain keeps. -/
theorem execWcBufferDrain_kept : ∀ v0 v1 s, Kept s (outOr s ((execWcBufferDrain v0 v1 s))) := by
  intro v0 v1 s
  unfold execWcBufferDrain
  have h1 := Kept.refl s
  split
  · refine Kept.next ?_
    refine Kept.trans ?_ (State.wcEvict_kept ..)
    exact h1
  · refine Kept.next ?_
    refine Kept.ifs (fun _ => ?_) (fun _ => ?_)
    · exact h1
    · refine Kept.trans ?_ (State.wcStore_kept ..)
      exact h1

/-- What State.answerErr keeps. -/
theorem State.answerErr_kept : ∀ s v1 v2 v3 v4, Kept s (State.answerErr s v1 v2 v3 v4) := by
  intro s v1 v2 v3 v4
  unfold State.answerErr
  have h1 := Kept.refl s
  extract_lets +onlyGivenNames -underBinder -merge x1
  try clear_value x1
  split
  · refine Kept.trans ?_ (State.reply_kept ..)
    refine Kept.trans ?_ (State.trap_kept ..)
    exact h1
  · extract_lets +onlyGivenNames -underBinder -merge x2
    try clear_value x2
    split
    · rename_i a1 a2 q1
      have h2 : Kept s a2 := by
        have e := congrArg Prod.snd q1
        dsimp only at e
        rw [← e]
        refine Kept.trans ?_ (State.free_kept ..)
        exact h1
      split
      · refine Kept.trans ?_ (State.groupFault_kept ..)
        exact h2
      · exact h2
  · split
    · refine Kept.trans ?_ (State.flightStatus_kept ..)
      exact h1
    · exact h1
  · refine Kept.trans ?_ (State.reply_kept ..)
    exact h1

/-- What State.prefetch keeps. -/
theorem State.prefetch_kept : ∀ s v1 v2, Kept s (State.prefetch s v1 v2) := by
  intro s v1 v2
  unfold State.prefetch
  have h1 := Kept.refl s
  split
  · exact h1
  · extract_lets +onlyGivenNames -underBinder -merge x1
    try clear_value x1
    extract_lets +onlyGivenNames -underBinder -merge x2
    try clear_value x2
    refine Kept.ifs (fun _ => ?_) (fun _ => ?_)
    · exact h1
    · extract_lets +onlyGivenNames -underBinder -merge x3
      try clear_value x3
      extract_lets +onlyGivenNames -underBinder -merge x4
      try clear_value x4
      extract_lets +onlyGivenNames -underBinder -merge x5
      have h2 : Kept s x5 := by
        dsimp -zeta only [x5]
        refine Kept.trans ?_ (State.setSide_kept ..)
        exact h1
      try clear_value x5
      refine Kept.ifs (fun _ => ?_) (fun _ => ?_)
      · refine Kept.trans ?_ (State.modDie_kept ..)
        exact h2
      · exact h2

/-- What State.coreFault keeps. -/
theorem State.coreFault_kept : ∀ s v1 v2 v3, Kept s (State.coreFault s v1 v2 v3) := by
  intro s v1 v2 v3
  unfold State.coreFault
  have h1 := Kept.refl s
  extract_lets +onlyGivenNames -underBinder -merge x1
  have h2 : Kept s x1 := by
    dsimp -zeta only [x1]
    refine Kept.ifs (fun _ => ?_) (fun _ => ?_)
    · refine Kept.trans ?_ (State.logAccess_kept ..)
      exact h1
    · exact h1
  try clear_value x1
  refine Kept.trans ?_ (State.reply_kept ..)
  refine Kept.trans ?_ (State.trap_kept ..)
  exact h2

/-- What State.coreNormal keeps. -/
theorem State.coreNormal_kept : ∀ s v1 v2 v3 v4 v5, Kept s (State.coreNormal s v1 v2 v3 v4 v5) := by
  intro s v1 v2 v3 v4 v5
  unfold State.coreNormal
  have h1 := Kept.refl s
  extract_lets +onlyGivenNames -underBinder -merge x1
  try clear_value x1
  extract_lets +onlyGivenNames -underBinder -merge x2
  try clear_value x2
  refine Kept.ifs (fun _ => ?_) (fun _ => ?_)
  · refine Kept.trans ?_ (State.corePerform_kept ..)
    refine Kept.trans ?_ (State.reply_kept ..)
    exact h1
  · extract_lets +onlyGivenNames -underBinder -merge x3
    have h2 : Kept s x3 := by
      dsimp -zeta only [x3]
      refine Kept.ifs (fun _ => ?_) (fun _ => ?_)
      · refine Kept.trans ?_ (State.wbArrives_kept ..)
        exact h1
      · exact h1
    try clear_value x3
    extract_lets +onlyGivenNames -underBinder -merge x4 x5
    have h3 : Kept s x5 := by
      dsimp -zeta only [x5]
      exact Kept.of (t := x3) rfl rfl rfl rfl rfl h2
    try clear_value x4 x5
    refine Kept.trans ?_ (State.homeArrive_kept ..)
    exact h3

/-- What State.coreNc keeps. -/
theorem State.coreNc_kept : ∀ s v1 v2 v3, Kept s (State.coreNc s v1 v2 v3) := by
  intro s v1 v2 v3
  unfold State.coreNc
  have h1 := Kept.refl s
  split
  · refine Kept.trans ?_ (State.homeArrive_kept ..)
    exact h1
  · refine Kept.trans ?_ (State.homeArrive_kept ..)
    exact h1
  · split
    · rename_i a1 a2 q1
      have h2 : Kept s a2 := by
        have e := congrArg Prod.snd q1
        dsimp only at e
        rw [← e]
        refine Kept.trans ?_ (State.readMem_kept ..)
        exact h1
      refine Kept.trans ?_ (State.reply_kept ..)
      exact h2
    · rename_i a3 a4 q2
      have h3 : Kept s a4 := by
        have e := congrArg Prod.snd q2
        dsimp only at e
        rw [← e]
        refine Kept.trans ?_ (State.readMem_kept ..)
        exact h1
      refine Kept.trans ?_ (State.answerErr_kept ..)
      exact h3
  · split
    · rename_i a5 a6 q3
      have h4 : Kept s a6 := by
        have e := congrArg Prod.snd q3
        dsimp only at e
        rw [← e]
        refine Kept.trans ?_ (State.readMem_kept ..)
        exact h1
      refine Kept.trans ?_ (State.reply_kept ..)
      exact h4
    · rename_i a7 a8 q4
      have h5 : Kept s a8 := by
        have e := congrArg Prod.snd q4
        dsimp only at e
        rw [← e]
        refine Kept.trans ?_ (State.readMem_kept ..)
        exact h1
      refine Kept.trans ?_ (State.answerErr_kept ..)
      exact h5
  · exact h1

/-- What State.coreRequest keeps. -/
theorem State.coreRequest_kept : ∀ s v1 v2 v3 v4 v5, Kept s (State.coreRequest s v1 v2 v3 v4 v5) := by
  intro s v1 v2 v3 v4 v5
  unfold State.coreRequest
  have h1 := Kept.refl s
  extract_lets +onlyGivenNames -underBinder -merge x1
  have h2 : Kept s x1 := by
    dsimp -zeta only [x1]
    refine Kept.ifs (fun _ => ?_) (fun _ => ?_)
    · refine Kept.trans ?_ (State.wake_kept ..)
      exact h1
    · exact h1
  try clear_value x1
  extract_lets +onlyGivenNames -underBinder -merge x2
  try clear_value x2
  extract_lets +onlyGivenNames -underBinder -merge x3
  try clear_value x3
  extract_lets +onlyGivenNames -underBinder -merge x4
  try clear_value x4
  refine Kept.ifs (fun _ => ?_) (fun _ => ?_)
  · refine Kept.ifs (fun _ => ?_) (fun _ => ?_)
    · exact h2
    · refine Kept.trans ?_ (State.prefetch_kept ..)
      exact h2
  · refine Kept.ifs (fun _ => ?_) (fun _ => ?_)
    · refine Kept.trans ?_ (State.coreFault_kept ..)
      exact h2
    · split
      · refine Kept.ifs (fun _ => ?_) (fun _ => ?_)
        · refine Kept.trans ?_ (State.coreFault_kept ..)
          exact h2
        · exact h2
      · extract_lets +onlyGivenNames -underBinder -merge x5
        try clear_value x5
        refine Kept.ifs (fun _ => ?_) (fun _ => ?_)
        · refine Kept.trans ?_ (State.coreFault_kept ..)
          exact h2
        · refine Kept.trans ?_ (State.coreNc_kept ..)
          exact h2
      · refine Kept.ifs (fun _ => ?_) (fun _ => ?_)
        · refine Kept.trans ?_ (State.coreFault_kept ..)
          exact h2
        · refine Kept.trans ?_ (State.coreNormal_kept ..)
          exact h2

/-- What execRdS keeps. -/
theorem execRdS_kept : ∀ v0 v1 v2 s, Kept s (outOr s ((execRdS v0 v1 v2 s))) := by
  intro v0 v1 v2 s
  unfold execRdS
  have h1 := Kept.refl s
  refine Kept.next ?_
  refine Kept.trans ?_ (State.coreRequest_kept ..)
  exact h1

/-- What execRdU keeps. -/
theorem execRdU_kept : ∀ v0 v1 v2 s, Kept s (outOr s ((execRdU v0 v1 v2 s))) := by
  intro v0 v1 v2 s
  unfold execRdU
  have h1 := Kept.refl s
  refine Kept.next ?_
  refine Kept.trans ?_ (State.coreRequest_kept ..)
  exact h1

/-- What execUpg keeps. -/
theorem execUpg_kept : ∀ v0 v1 v2 s, Kept s (outOr s ((execUpg v0 v1 v2 s))) := by
  intro v0 v1 v2 s
  unfold execUpg
  have h1 := Kept.refl s
  refine Kept.next ?_
  refine Kept.trans ?_ (State.coreRequest_kept ..)
  exact h1

/-- What State.tsRequest keeps. -/
theorem State.tsRequest_kept : ∀ s v1 v2, Kept s (State.tsRequest s v1 v2) := by
  intro s v1 v2
  unfold State.tsRequest
  have h1 := Kept.refl s
  extract_lets +onlyGivenNames -underBinder -merge x1 x2
  try clear_value x1 x2
  split
  · split
    · rename_i a1 a2 q1
      have h2 : Kept s a2 := by
        have e := congrArg Prod.snd q1
        dsimp only at e
        rw [← e]
        refine Kept.trans ?_ (State.readMem_kept ..)
        exact h1
      refine Kept.trans ?_ (State.reply_kept ..)
      exact h2
    · rename_i a3 a4 q2
      have h3 : Kept s a4 := by
        have e := congrArg Prod.snd q2
        dsimp only at e
        rw [← e]
        refine Kept.trans ?_ (State.readMem_kept ..)
        exact h1
      refine Kept.trans ?_ (State.answerErr_kept ..)
      exact h3
  · split
    · rename_i a5 a6 q3
      have h4 : Kept s a6 := by
        have e := congrArg Prod.snd q3
        dsimp only at e
        rw [← e]
        refine Kept.trans ?_ (State.readMem_kept ..)
        exact h1
      split
      · extract_lets +onlyGivenNames -underBinder -merge x3
        try clear_value x3
        refine Kept.trans ?_ (State.reply_kept ..)
        refine Kept.trans ?_ (State.writeMem_kept ..)
        exact h4
    · rename_i a7 a8 q4
      have h5 : Kept s a8 := by
        have e := congrArg Prod.snd q4
        dsimp only at e
        rw [← e]
        refine Kept.trans ?_ (State.readMem_kept ..)
        exact h1
      refine Kept.trans ?_ (State.answerErr_kept ..)
      exact h5
  · refine Kept.trans ?_ (State.reply_kept ..)
    refine Kept.trans ?_ (State.writeMasked_kept ..)
    exact h1

/-- What State.unitRequest keeps. -/
theorem State.unitRequest_kept : ∀ s v1 v2, Kept s (State.unitRequest s v1 v2) := by
  intro s v1 v2
  unfold State.unitRequest
  have h1 := Kept.refl s
  extract_lets +onlyGivenNames -underBinder -merge x1
  have h2 : Kept s x1 := by
    dsimp -zeta only [x1]
    refine Kept.ifs (fun _ => ?_) (fun _ => ?_)
    · refine Kept.trans ?_ (State.wake_kept ..)
      exact h1
    · exact h1
  try clear_value x1
  extract_lets +onlyGivenNames -underBinder -merge x2
  try clear_value x2
  extract_lets +onlyGivenNames -underBinder -merge x3
  try clear_value x3
  extract_lets +onlyGivenNames -underBinder -merge x4
  try clear_value x4
  refine Kept.ifs (fun _ => ?_) (fun _ => ?_)
  · refine Kept.trans ?_ (State.answerErr_kept ..)
    refine Kept.trans ?_ (State.logAccess_kept ..)
    exact h2
  · split
    · refine Kept.ifs (fun _ => ?_) (fun _ => ?_)
      · split
        · rename_i a1 a2 q1
          have h3 : Kept s a2 := by
            have e := congrArg Prod.snd q1
            dsimp only at e
            rw [← e]
            refine Kept.trans ?_ (State.homeRead_kept ..)
            exact h2
          refine Kept.trans ?_ (State.cohHome_kept ..)
          exact h3
        · rename_i a3 q2
          have h4 : Kept s a3 := by
            have e := congrArg Prod.snd q2
            dsimp only at e
            rw [← e]
            refine Kept.trans ?_ (State.homeRead_kept ..)
            exact h2
          refine Kept.trans ?_ (State.cohHome_kept ..)
          exact h4
      · refine Kept.trans ?_ (State.homeArrive_kept ..)
        exact h2
    · refine Kept.trans ?_ (State.tsRequest_kept ..)
      exact h2
    · refine Kept.trans ?_ (State.answerErr_kept ..)
      refine Kept.trans ?_ (State.logAccess_kept ..)
      exact h2

/-- What execRdSn keeps. -/
theorem execRdSn_kept : ∀ v0 v1 v2 s, Kept s (outOr s ((execRdSn v0 v1 v2 s))) := by
  intro v0 v1 v2 s
  unfold execRdSn
  have h1 := Kept.refl s
  refine Kept.next ?_
  refine Kept.trans ?_ (State.unitRequest_kept ..)
  exact h1

/-- What execWrFull keeps. -/
theorem execWrFull_kept : ∀ v0 v1 v2 v3 s, Kept s (outOr s ((execWrFull v0 v1 v2 v3 s))) := by
  intro v0 v1 v2 v3 s
  unfold execWrFull
  have h1 := Kept.refl s
  refine Kept.next ?_
  refine Kept.trans ?_ (State.unitRequest_kept ..)
  exact h1

/-- What execWrPart keeps. -/
theorem execWrPart_kept : ∀ v0 v1 v2 v3 v4 s, Kept s (outOr s ((execWrPart v0 v1 v2 v3 v4 s))) := by
  intro v0 v1 v2 v3 v4 s
  unfold execWrPart
  have h1 := Kept.refl s
  refine Kept.next ?_
  refine Kept.trans ?_ (State.unitRequest_kept ..)
  exact h1

/-- What execAtom keeps. -/
theorem execAtom_kept : ∀ v0 v1 v2 v3 s, Kept s (outOr s ((execAtom v0 v1 v2 v3 s))) := by
  intro v0 v1 v2 v3 s
  unfold execAtom
  have h1 := Kept.refl s
  refine Kept.next ?_
  refine Kept.trans ?_ (State.unitRequest_kept ..)
  exact h1

/-- What execSnpRd keeps. -/
theorem execSnpRd_kept : ∀ v0 v1 s, Kept s (outOr s ((execSnpRd v0 v1 s))) := by
  intro v0 v1 s
  unfold execSnpRd
  have h1 := Kept.refl s
  refine Kept.next ?_
  refine Kept.trans ?_ (State.snoopArrives_kept ..)
  exact h1

/-- What execSnpS keeps. -/
theorem execSnpS_kept : ∀ v0 v1 s, Kept s (outOr s ((execSnpS v0 v1 s))) := by
  intro v0 v1 s
  unfold execSnpS
  have h1 := Kept.refl s
  refine Kept.next ?_
  refine Kept.trans ?_ (State.snoopArrives_kept ..)
  exact h1

/-- What execSnpU keeps. -/
theorem execSnpU_kept : ∀ v0 v1 s, Kept s (outOr s ((execSnpU v0 v1 s))) := by
  intro v0 v1 s
  unfold execSnpU
  have h1 := Kept.refl s
  refine Kept.next ?_
  refine Kept.trans ?_ (State.snoopArrives_kept ..)
  exact h1

/-- What execSnpInv keeps. -/
theorem execSnpInv_kept : ∀ v0 v1 s, Kept s (outOr s ((execSnpInv v0 v1 s))) := by
  intro v0 v1 s
  unfold execSnpInv
  have h1 := Kept.refl s
  refine Kept.next ?_
  refine Kept.trans ?_ (State.snoopArrives_kept ..)
  exact h1

/-- What execHoldExpiry keeps. -/
theorem execHoldExpiry_kept : ∀ v0 v1 s, Kept s (outOr s ((execHoldExpiry v0 v1 s))) := by
  intro v0 v1 s
  unfold execHoldExpiry
  have h1 := Kept.refl s
  refine Kept.ite (outOr s) (fun _ => ?_) (fun _ => ?_)
  · refine Kept.next ?_
    refine Kept.trans ?_ (State.holdEnds_kept ..)
    exact h1
  · refine Kept.next ?_
    exact h1

/-- What State.cacheError keeps. -/
theorem State.cacheError_kept : ∀ s v1 v2, Kept s (State.cacheError s v1 v2) := by
  intro s v1 v2
  unfold State.cacheError
  have h1 := Kept.refl s
  split
  · rename_i a1 a2 q1
    have h2 : Kept s a2 := by
      have e := congrArg Prod.snd q1
      dsimp only at e
      rw [← e]
      refine Kept.trans ?_ (State.takeMiss_kept ..)
      exact h1
    refine Kept.trans ?_ (State.reply_kept ..)
    refine Kept.trans ?_ (State.trap_kept ..)
    refine Kept.trans ?_ (State.logAccess_kept ..)
    exact h2
  · rename_i a3 q2
    have h3 : Kept s a3 := by
      have e := congrArg Prod.snd q2
      dsimp only at e
      rw [← e]
      refine Kept.trans ?_ (State.takeMiss_kept ..)
      exact h1
    refine Kept.trans ?_ (State.logAccess_kept ..)
    exact h3

/-- What execData keeps. -/
theorem execData_kept : ∀ v0 v1 s, Kept s (outOr s ((execData v0 v1 s))) := by
  intro v0 v1 s
  unfold execData
  have h1 := Kept.refl s
  split
  · extract_lets +onlyGivenNames -underBinder -merge x1 x2
    have h2 : Kept s x2 := by
      dsimp -zeta only [x2]
      exact Kept.of (t := s) rfl rfl rfl rfl rfl h1
    try clear_value x1 x2
    split
    · refine Kept.next ?_
      refine Kept.ifs (fun _ => ?_) (fun _ => ?_)
      · refine Kept.trans ?_ (State.cacheError_kept ..)
        exact h2
      · refine Kept.trans ?_ (State.dataArrives_kept ..)
        exact h1
    · refine Kept.next ?_
      refine Kept.ifs (fun _ => ?_) (fun _ => ?_)
      · refine Kept.trans ?_ (State.answerErr_kept ..)
        refine Kept.trans ?_ (State.logAccess_kept ..)
        exact h2
      · refine Kept.trans ?_ (State.reply_kept ..)
        exact h2
  · refine Kept.next ?_
    exact h1

/-- What execComp keeps. -/
theorem execComp_kept : ∀ v0 v1 s, Kept s (outOr s ((execComp v0 v1 s))) := by
  intro v0 v1 s
  unfold execComp
  have h1 := Kept.refl s
  split
  · refine Kept.next ?_
    refine Kept.trans ?_ (State.compArrives_kept ..)
    exact h1
  · split
    · rename_i a1 a2 q1
      have h2 : Kept s a2 := State.takeMsg_kept _ _ _ _ q1
      refine Kept.next ?_
      refine Kept.trans ?_ (State.reply_kept ..)
      exact h2
    · refine Kept.next ?_
      exact h1

/-- What execAck keeps. -/
theorem execAck_kept : ∀ v0 v1 s, Kept s (outOr s ((execAck v0 v1 s))) := by
  intro v0 v1 s
  unfold execAck
  have h1 := Kept.refl s
  refine Kept.next ?_
  refine Kept.trans ?_ (State.ackArrives_kept ..)
  exact h1

/-- What execAckD keeps. -/
theorem execAckD_kept : ∀ v0 v1 v2 s, Kept s (outOr s ((execAckD v0 v1 v2 s))) := by
  intro v0 v1 v2 s
  unfold execAckD
  have h1 := Kept.refl s
  refine Kept.ite (outOr s) (fun _ => ?_) (fun _ => ?_)
  · refine Kept.next ?_
    refine Kept.trans ?_ (State.ackDArrives_kept ..)
    exact h1
  · refine Kept.next ?_
    exact h1

/-- What execNdwb keeps. -/
theorem execNdwb_kept : ∀ v0 v1 s, Kept s (outOr s ((execNdwb v0 v1 s))) := by
  intro v0 v1 s
  unfold execNdwb
  have h1 := Kept.refl s
  refine Kept.next ?_
  refine Kept.trans ?_ (State.ndwbArrives_kept ..)
  exact h1

/-- What execWb keeps. -/
theorem execWb_kept : ∀ v0 v1 v2 v3 s, Kept s (outOr s ((execWb v0 v1 v2 v3 s))) := by
  intro v0 v1 v2 v3 s
  unfold execWb
  have h1 := Kept.refl s
  extract_lets +onlyGivenNames -underBinder -merge x1
  try clear_value x1
  extract_lets +onlyGivenNames -underBinder -merge x2
  try clear_value x2
  refine Kept.ite (outOr s) (fun _ => ?_) (fun _ => ?_)
  · refine Kept.next ?_
    refine Kept.trans ?_ (State.wbArrives_kept ..)
    exact h1
  · refine Kept.ite (outOr s) (fun _ => ?_) (fun _ => ?_)
    · refine Kept.next ?_
      exact h1
    · refine Kept.next ?_
      refine Kept.trans ?_ (State.evict_kept ..)
      exact h1

/-- What execEvc keeps. -/
theorem execEvc_kept : ∀ v0 v1 v2 s, Kept s (outOr s ((execEvc v0 v1 v2 s))) := by
  intro v0 v1 v2 s
  unfold execEvc
  have h1 := Kept.refl s
  extract_lets +onlyGivenNames -underBinder -merge x1
  try clear_value x1
  extract_lets +onlyGivenNames -underBinder -merge x2
  try clear_value x2
  refine Kept.ite (outOr s) (fun _ => ?_) (fun _ => ?_)
  · refine Kept.next ?_
    exact h1
  · extract_lets +onlyGivenNames -underBinder -merge x3
    have h2 : Kept s x3 := by
      dsimp -zeta only [x3]
      refine Kept.trans ?_ (State.putAgent_kept ..)
      exact h1
    try clear_value x3
    extract_lets +onlyGivenNames -underBinder -merge x4
    have h3 : Kept s x4 := by
      dsimp -zeta only [x4]
      refine Kept.folds _ (fun t1 x5 h4 => ?_) ?_
      · try dsimp -zeta only
        refine Kept.trans ?_ (State.snoopAnswer_kept ..)
        exact h4
      · try dsimp -zeta only
        exact h2
    try clear_value x4
    extract_lets +onlyGivenNames -underBinder -merge x6
    try clear_value x6
    refine Kept.next ?_
    refine Kept.ifs (fun _ => ?_) (fun _ => ?_)
    · exact h3
    · refine Kept.trans ?_ (State.homeGo_kept ..)
      refine Kept.trans ?_ (State.putHome_kept ..)
      exact h3

/-- What execWbAck keeps. -/
theorem execWbAck_kept : ∀ v0 v1 s, Kept s (outOr s ((execWbAck v0 v1 s))) := by
  intro v0 v1 s
  unfold execWbAck
  have h1 := Kept.refl s
  refine Kept.next ?_
  refine Kept.trans ?_ (State.wbAnswered_kept ..)
  exact h1

/-- What execWbConsumed keeps. -/
theorem execWbConsumed_kept : ∀ v0 v1 s, Kept s (outOr s ((execWbConsumed v0 v1 s))) := by
  intro v0 v1 s
  unfold execWbConsumed
  have h1 := Kept.refl s
  refine Kept.next ?_
  refine Kept.trans ?_ (State.wbAnswered_kept ..)
  exact h1

/-- What execDcPrefetch keeps. -/
theorem execDcPrefetch_kept : ∀ v0 v1 s, Kept s (outOr s ((execDcPrefetch v0 v1 s))) := by
  intro v0 v1 s
  unfold execDcPrefetch
  have h1 := Kept.refl s
  extract_lets +onlyGivenNames -underBinder -merge x1
  try clear_value x1
  refine Kept.next ?_
  refine Kept.ifs (fun _ => ?_) (fun _ => ?_)
  · exact h1
  · refine Kept.trans ?_ (State.prefetch_kept ..)
    exact h1

/-- What execDcSaturationPersist keeps. -/
theorem execDcSaturationPersist_kept : ∀ v0 v1 s, Kept s (outOr s ((execDcSaturationPersist v0 v1 s))) := by
  intro v0 v1 s
  unfold execDcSaturationPersist
  have h1 := Kept.refl s
  refine Kept.next ?_
  refine Kept.trans ?_ (State.dieEvent_kept ..)
  refine Kept.trans ?_ (State.modDie_kept ..)
  exact h1

/-- What State.dcFlushAll keeps. -/
theorem State.dcFlushAll_kept : ∀ s v1, Kept s (State.dcFlushAll s v1) := by
  intro s v1
  unfold State.dcFlushAll
  have h1 := Kept.refl s
  extract_lets +onlyGivenNames -underBinder -merge x1
  have h2 : Kept s x1 := by
    dsimp -zeta only [x1]
    refine Kept.trans ?_ (State.settle_kept ..)
    exact h1
  try clear_value x1
  extract_lets +onlyGivenNames -underBinder -merge x2
  have h3 : Kept s x2 := by
    dsimp -zeta only [x2]
    refine Kept.folds _ (fun t1 x3 h4 => ?_) ?_
    · try dsimp -zeta only
      refine Kept.trans ?_ (State.dcWriteBack_kept ..)
      exact h4
    · try dsimp -zeta only
      exact h2
  try clear_value x2
  refine Kept.trans ?_ (State.modDie_kept ..)
  exact h3

/-- What execDcFlush keeps. -/
theorem execDcFlush_kept : ∀ v0 s, Kept s (outOr s ((execDcFlush v0 s))) := by
  intro v0 s
  unfold execDcFlush
  have h1 := Kept.refl s
  refine Kept.next ?_
  refine Kept.trans ?_ (State.dcFlushAll_kept ..)
  exact h1

/-! ## KeyIds -/

/-- What State.freshKey keeps. -/
theorem State.freshKey_kept : ∀ s v1 v2 v3, Kept s (State.freshKey s v1 v2 v3) := by
  intro s v1 v2 v3
  unfold State.freshKey
  have h1 := Kept.refl s
  refine Kept.trans ?_ (State.modKey_kept ..)
  exact h1

/-- What State.dropAgent keeps. -/
theorem State.dropAgent_kept : ∀ s v1 v2, Kept s (State.dropAgent s v1 v2) := by
  intro s v1 v2
  unfold State.dropAgent
  have h1 := Kept.refl s
  extract_lets +onlyGivenNames -underBinder -merge x1
  try clear_value x1
  extract_lets +onlyGivenNames -underBinder -merge x2
  have h2 : Kept s x2 := by
    dsimp -zeta only [x2]
    refine Kept.folds _ (fun t1 x3 h3 => ?_) ?_
    · try dsimp -zeta only
      refine Kept.trans ?_ (State.coh_kept ..)
      exact h3
    · try dsimp -zeta only
      refine Kept.trans ?_ (State.putAgent_kept ..)
      exact h1
  try clear_value x2
  extract_lets +onlyGivenNames -underBinder -merge x4
  try clear_value x4
  extract_lets +onlyGivenNames -underBinder -merge x5
  try clear_value x5
  extract_lets +onlyGivenNames -underBinder -merge x6
  try clear_value x6
  refine Kept.trans ?_ (State.homeGo_kept ..)
  refine Kept.trans ?_ (State.putHome_kept ..)
  exact h2

/-- What State.dropKeyHome keeps. -/
theorem State.dropKeyHome_kept : ∀ s v1, Kept s (State.dropKeyHome s v1) := by
  intro s v1
  unfold State.dropKeyHome
  have h1 := Kept.refl s
  extract_lets +onlyGivenNames -underBinder -merge x1
  try clear_value x1
  extract_lets +onlyGivenNames -underBinder -merge x2
  try clear_value x2
  extract_lets +onlyGivenNames -underBinder -merge x3
  try clear_value x3
  split
  · refine Kept.ifs (fun _ => ?_) (fun _ => ?_)
    · refine Kept.trans ?_ (State.putHome_kept ..)
      exact h1
    · refine Kept.trans ?_ (State.homeProceed_kept ..)
      refine Kept.trans ?_ (State.putHome_kept ..)
      exact h1
  · refine Kept.trans ?_ (State.putHome_kept ..)
    exact h1

/-- What State.dropKeyLines keeps. -/
theorem State.dropKeyLines_kept : ∀ s v1, Kept s (State.dropKeyLines s v1) := by
  intro s v1
  unfold State.dropKeyLines
  have h1 := Kept.refl s
  extract_lets +onlyGivenNames -underBinder -merge x1 x2
  have h2 : Kept s x2 := by
    dsimp -zeta only [x2]
    exact Kept.of (t := s) rfl rfl rfl rfl rfl h1
  try clear_value x1 x2
  extract_lets +onlyGivenNames -underBinder -merge x3
  have h3 : Kept s x3 := by
    dsimp -zeta only [x3]
    refine Kept.folds _ (fun t1 x4 h4 => ?_) ?_
    · try dsimp -zeta only
      refine Kept.trans ?_ (State.dropKeyHome_kept ..)
      exact h4
    · try dsimp -zeta only
      exact h2
  try clear_value x3
  extract_lets +onlyGivenNames -underBinder -merge x5
  have h5 : Kept s x5 := by
    dsimp -zeta only [x5]
    refine Kept.folds _ (fun t2 x6 h6 => ?_) ?_
    · try dsimp -zeta only
      refine Kept.trans ?_ (State.dropAgent_kept ..)
      exact h6
    · try dsimp -zeta only
      exact h3
  try clear_value x5
  extract_lets +onlyGivenNames -underBinder -merge x7
  have h7 : Kept s x7 := by
    dsimp -zeta only [x7]
    refine Kept.folds _ (fun t3 x8 h8 => ?_) ?_
    · try dsimp -zeta only
      refine Kept.trans ?_ (State.modDie_kept ..)
      exact h8
    · try dsimp -zeta only
      exact h5
  try clear_value x7
  exact Kept.of (t := x7) rfl rfl rfl rfl rfl h7

/-- What State.destroyKey keeps. -/
theorem State.destroyKey_kept : ∀ s v1, Kept s (State.destroyKey s v1) := by
  intro s v1
  unfold State.destroyKey
  have h1 := Kept.refl s
  extract_lets +onlyGivenNames -underBinder -merge x1
  have h2 : Kept s x1 := by
    dsimp -zeta only [x1]
    refine Kept.trans ?_ (State.modKey_kept ..)
    refine Kept.trans ?_ (State.dropKeyLines_kept ..)
    exact h1
  try clear_value x1
  exact Kept.of (t := x1) rfl rfl rfl rfl rfl h2

/-- What State.eraseRegions keeps. -/
theorem State.eraseRegions_kept : ∀ s v1, Kept s (State.eraseRegions s v1) := by
  intro s v1
  unfold State.eraseRegions
  have h1811 := Kept.refl s
  exact Kept.of (t := s) rfl rfl rfl rfl rfl h1811

/-- What State.destroyKeys keeps. -/
theorem State.destroyKeys_kept : ∀ s v1 v2, Kept s (State.destroyKeys s v1 v2) := by
  intro s v1 v2
  unfold State.destroyKeys
  have h1 := Kept.refl s
  refine Kept.ifs (fun _ => ?_) (fun _ => ?_)
  · exact h1
  · extract_lets +onlyGivenNames -underBinder -merge x1
    have h2 : Kept s x1 := by
      dsimp -zeta only [x1]
      refine Kept.folds _ (fun t1 x2 h3 => ?_) ?_
      · try dsimp -zeta only
        refine Kept.trans ?_ (State.eraseRegions_kept ..)
        refine Kept.trans ?_ (State.destroyKey_kept ..)
        exact h3
      · try dsimp -zeta only
        exact h1
    try clear_value x1
    refine Kept.trans ?_ (State.hdEvent_kept ..)
    exact h2

/-- What State.eraseJob keeps. -/
theorem State.eraseJob_kept : ∀ s, Kept s (State.eraseJob s) := by
  intro s
  unfold State.eraseJob
  have h1818 := Kept.refl s
  exact Kept.of (t := s) rfl rfl rfl rfl rfl h1818

/-- What State.jobGone keeps. -/
theorem State.jobGone_kept : ∀ s, Kept s (State.jobGone s) := by
  intro s
  unfold State.jobGone
  have h1 := Kept.refl s
  split
  · exact h1
  · extract_lets +onlyGivenNames -underBinder -merge x1
    have h2 : Kept s x1 := by
      dsimp -zeta only [x1]
      refine Kept.trans ?_ (State.eraseJob_kept ..)
      refine Kept.trans ?_ (State.mapWork_kept ..)
      exact h1
    try clear_value x1
    refine Kept.trans ?_ (State.hdEvent_kept ..)
    exact Kept.of (t := x1) rfl rfl rfl rfl rfl h2

/-- What State.abortDone keeps. -/
theorem State.abortDone_kept : ∀ s v1 v2, Kept s (State.abortDone s v1 v2) := by
  intro s v1 v2
  unfold State.abortDone
  have h1 := Kept.refl s
  extract_lets +onlyGivenNames -underBinder -merge x1
  have h2 : Kept s x1 := by
    dsimp -zeta only [x1]
    refine Kept.trans ?_ (State.modJob_kept ..)
    exact h1
  try clear_value x1
  extract_lets +onlyGivenNames -underBinder -merge x2
  have h3 : Kept s x2 := by
    dsimp -zeta only [x2]
    split
    · refine Kept.trans ?_ (State.respond_kept ..)
      exact h2
    · exact h2
  try clear_value x2
  extract_lets +onlyGivenNames -underBinder -merge x3
  have h4 : Kept s x3 := by
    dsimp -zeta only [x3]
    refine Kept.ifs (fun _ => ?_) (fun _ => ?_)
    · refine Kept.trans ?_ (State.jobGone_kept ..)
      refine Kept.trans ?_ (State.destroyKeys_kept ..)
      exact h3
    · exact h3
  try clear_value x3
  refine Kept.trans ?_ (State.respond_kept ..)
  exact h4

/-- What State.jobSettle keeps. -/
theorem State.jobSettle_kept : ∀ s, Kept s (State.jobSettle s) := by
  intro s
  unfold State.jobSettle
  have h1 := Kept.refl s
  split
  · exact h1
  · refine Kept.ifs (fun _ => ?_) (fun _ => ?_)
    · exact h1
    · extract_lets +onlyGivenNames -underBinder -merge x1
      have h2 : Kept s x1 := by
        dsimp -zeta only [x1]
        refine Kept.trans ?_ (State.jobEvent_kept ..)
        refine Kept.trans ?_ (State.modJob_kept ..)
        exact h1
      try clear_value x1
      split
      · refine Kept.trans ?_ (State.abortDone_kept ..)
        exact h2
      · exact h2

/-- What State.orphanDone keeps. -/
theorem State.orphanDone_kept : ∀ s d p u, State.orphanDone s d p = some u → Kept s u := by
  intro s d p u h
  unfold State.orphanDone at h
  split at h
  · cases h
    exact (State.modDie_kept ..).trans (State.jobSettle_kept ..)
  · cases h

/-! ## Walk -/

/-- What State.sendPort keeps. -/
theorem State.sendPort_kept : ∀ s v1 v2, Kept s (State.sendPort s v1 v2) := by
  intro s v1 v2
  unfold State.sendPort
  have h1 := Kept.refl s
  refine Kept.trans ?_ (State.enqueue_kept ..)
  exact h1

/-- What State.probeOut keeps. -/
theorem State.probeOut_kept : ∀ s v1 v2 v3 v4, Kept s (State.probeOut s v1 v2 v3 v4) := by
  intro s v1 v2 v3 v4
  unfold State.probeOut
  have h1 := Kept.refl s
  extract_lets +onlyGivenNames -underBinder -merge x1
  try clear_value x1
  extract_lets +onlyGivenNames -underBinder -merge x2 x3
  have h2 : Kept s x3 := by
    dsimp -zeta only [x3]
    exact Kept.of (t := s) rfl rfl rfl rfl rfl h1
  try clear_value x2 x3
  refine Kept.trans ?_ (State.sendPort_kept ..)
  exact h2

/-- What State.configure keeps. -/
theorem State.configure_kept : ∀ s v1 v2, Kept s (State.configure s v1 v2) := by
  intro s v1 v2
  unfold State.configure
  have h1 := Kept.refl s
  extract_lets +onlyGivenNames -underBinder -merge x1
  try clear_value x1
  split
  · exact Kept.of (t := s) rfl rfl rfl rfl rfl h1
  · refine Kept.trans ?_ (State.modDie_kept ..)
    exact h1
  · extract_lets +onlyGivenNames -underBinder -merge x2
    have h2 : Kept s x2 := by
      dsimp -zeta only [x2]
      refine Kept.folds _ (fun t1 x3 h3 => ?_) ?_
      · try dsimp -zeta only
        refine Kept.trans ?_ (State.modDie_kept ..)
        exact h3
      · try dsimp -zeta only
        exact h1
    try clear_value x2
    split
    · exact h2
    · extract_lets +onlyGivenNames -underBinder -merge x4
      try clear_value x4
      extract_lets +onlyGivenNames -underBinder -merge x5
      have h4 : Kept s x5 := by
        dsimp -zeta only [x5]
        refine Kept.folds _ (fun t2 x6 h5 => ?_) ?_
        · try dsimp -zeta only
          refine Kept.trans ?_ (State.modPort_kept ..)
          exact h5
        · try dsimp -zeta only
          exact h2
      try clear_value x5
      extract_lets +onlyGivenNames -underBinder -merge x7
      try clear_value x7
      exact Kept.of (t := x5) rfl rfl rfl rfl rfl h4
  · exact h1

/-- What State.probeBeyond keeps. -/
theorem State.probeBeyond_kept : ∀ s v1 v2 v3, Kept s (State.probeBeyond s v1 v2 v3) := by
  intro s v1 v2 v3
  unfold State.probeBeyond
  have h1 := Kept.refl s
  refine Kept.ifs (fun _ => ?_) (fun _ => ?_)
  · refine Kept.folds _ (fun t1 x1 h2 => ?_) ?_
    · try dsimp -zeta only
      refine Kept.trans ?_ (State.probeOut_kept ..)
      exact h2
    · try dsimp -zeta only
      exact h1
  · exact h1

/-- What State.walkEnd keeps. -/
theorem State.walkEnd_kept : ∀ s, Kept s (State.walkEnd s) := by
  intro s
  unfold State.walkEnd
  have h1 := Kept.refl s
  extract_lets +onlyGivenNames -underBinder -merge x1
  try clear_value x1
  extract_lets +onlyGivenNames -underBinder -merge x2
  try clear_value x2
  extract_lets +onlyGivenNames -underBinder -merge x3
  have h2 : Kept s x3 := by
    dsimp -zeta only [x3]
    refine Kept.folds _ (fun t1 x4 h3 => ?_) ?_
    · try dsimp -zeta only
      refine Kept.trans ?_ (State.configure_kept ..)
      exact h3
    · try dsimp -zeta only
      exact h1
  try clear_value x3
  extract_lets +onlyGivenNames -underBinder -merge x5
  have h4 : Kept s x5 := by
    dsimp -zeta only [x5]
    refine Kept.folds _ (fun t2 x6 h5 => ?_) ?_
    · try dsimp -zeta only
      refine Kept.ifs (fun _ => ?_) (fun _ => ?_)
      · refine Kept.trans ?_ (State.logNote_kept ..)
        exact h5
      · refine Kept.folds _ (fun t3 x7 h6 => ?_) ?_
        · try dsimp -zeta only
          refine Kept.trans ?_ (State.sendPort_kept ..)
          exact h6
        · try dsimp -zeta only
          exact h5
    · try dsimp -zeta only
      exact h2
  try clear_value x5
  extract_lets +onlyGivenNames -underBinder -merge x8
  try clear_value x8
  extract_lets +onlyGivenNames -underBinder -merge x9 x10
  have h7 : Kept s x10 := by
    dsimp -zeta only [x10]
    exact Kept.of (t := x5) rfl rfl rfl rfl rfl h4
  try clear_value x9 x10
  extract_lets +onlyGivenNames -underBinder -merge x11
  try clear_value x11
  extract_lets +onlyGivenNames -underBinder -merge x12 x13
  have h8 : Kept s x13 := by
    dsimp -zeta only [x13]
    exact Kept.of (t := x10) rfl rfl rfl rfl rfl h7
  try clear_value x12 x13
  extract_lets +onlyGivenNames -underBinder -merge x14
  have h9 : Kept s x14 := by
    dsimp -zeta only [x14]
    refine Kept.folds _ (fun t4 x15 h10 => ?_) ?_
    · try dsimp -zeta only
      refine Kept.trans ?_ (State.probeBeyond_kept ..)
      exact h10
    · try dsimp -zeta only
      exact h8
  try clear_value x14
  exact Kept.of (t := x14) rfl rfl rfl rfl rfl h9

/-- What State.walkCheck keeps. -/
theorem State.walkCheck_kept : ∀ s, Kept s (State.walkCheck s) := by
  intro s
  unfold State.walkCheck
  have h1 := Kept.refl s
  refine Kept.ifs (fun _ => ?_) (fun _ => ?_)
  · refine Kept.trans ?_ (State.walkEnd_kept ..)
    exact h1
  · exact h1

/-- What State.walkStart keeps. -/
theorem State.walkStart_kept : ∀ s, Kept s (State.walkStart s) := by
  intro s
  unfold State.walkStart
  have h1 := Kept.refl s
  extract_lets +onlyGivenNames -underBinder -merge x1 x2
  have h2 : Kept s x2 := by
    dsimp -zeta only [x2]
    exact Kept.of (t := s) rfl rfl rfl rfl rfl h1
  try clear_value x1 x2
  refine Kept.trans ?_ (State.walkCheck_kept ..)
  refine Kept.folds _ (fun t1 x3 h3 => ?_) ?_
  · try dsimp -zeta only
    refine Kept.ifs (fun _ => ?_) (fun _ => ?_)
    · refine Kept.trans ?_ (State.probeOut_kept ..)
      exact h3
    · exact h3
  · try dsimp -zeta only
    exact h2

/-- What State.rewalk keeps. -/
theorem State.rewalk_kept : ∀ s, Kept s (State.rewalk s) := by
  intro s
  unfold State.rewalk
  have h1 := Kept.refl s
  refine Kept.ifs (fun _ => ?_) (fun _ => ?_)
  · refine Kept.trans ?_ (State.walkStart_kept ..)
    exact h1
  · exact h1

/-! ## Order -/

/-- What State.wcSync keeps. -/
theorem State.wcSync_kept : ∀ s v1, Kept s (State.wcSync s v1) := by
  intro s v1
  unfold State.wcSync
  have h1 := Kept.refl s
  refine Kept.folds _ (fun t1 x1 h2 => ?_) ?_
  · try dsimp -zeta only
    refine Kept.trans ?_ (State.wcEvict_kept ..)
    exact h2
  · try dsimp -zeta only
    exact h1

/-- What execJlSyncC keeps. -/
theorem execJlSyncC_kept : ∀ v0 s, Kept s (outOr s ((execJlSyncC v0 s))) := by
  intro v0 s
  unfold execJlSyncC
  have h1 := Kept.refl s
  refine Kept.ite (outOr s) (fun _ => ?_) (fun _ => ?_)
  · refine Kept.next ?_
    refine Kept.trans ?_ (State.trap_kept ..)
    exact h1
  · refine Kept.next ?_
    refine Kept.trans ?_ (State.wcSync_kept ..)
    exact h1

/-- What execJlSyncS keeps. -/
theorem execJlSyncS_kept : ∀ v0 s, Kept s (outOr s ((execJlSyncS v0 s))) := by
  intro v0 s
  unfold execJlSyncS
  have h1 := Kept.refl s
  refine Kept.ite (outOr s) (fun _ => ?_) (fun _ => ?_)
  · refine Kept.next ?_
    refine Kept.trans ?_ (State.trap_kept ..)
    exact h1
  · extract_lets +onlyGivenNames -underBinder -merge x1
    try clear_value x1
    extract_lets +onlyGivenNames -underBinder -merge x2
    try clear_value x2
    extract_lets +onlyGivenNames -underBinder -merge x3
    have h2 : Kept s x3 := by
      dsimp -zeta only [x3]
      refine Kept.trans ?_ (State.wcSync_kept ..)
      exact h1
    try clear_value x3
    refine Kept.ite (outOr s) (fun _ => ?_) (fun _ => ?_)
    · refine Kept.next ?_
      exact h2
    · extract_lets +onlyGivenNames -underBinder -merge x4
      have h3 : Kept s x4 := by
        dsimp -zeta only [x4]
        refine Kept.trans ?_ (State.release_kept ..)
        exact h2
      try clear_value x4
      split
      · refine Kept.next ?_
        exact h3
      · refine Kept.next ?_
        refine Kept.trans ?_ (State.trap_kept ..)
        refine Kept.trans ?_ (State.modHart_kept ..)
        exact h3

/-- What execJlInvalT keeps. -/
theorem execJlInvalT_kept : ∀ v0 v1 v2 s, Kept s (outOr s ((execJlInvalT v0 v1 v2 s))) := by
  intro v0 v1 v2 s
  unfold execJlInvalT
  have h1 := Kept.refl s
  refine Kept.ite (outOr s) (fun _ => ?_) (fun _ => ?_)
  · refine Kept.next ?_
    refine Kept.trans ?_ (State.trap_kept ..)
    exact h1
  · refine Kept.next ?_
    refine Kept.folds _ (fun t1 x1 h2 => ?_) ?_
    · try dsimp -zeta only
      refine Kept.trans ?_ (State.l1Clear_kept ..)
      exact h2
    · try dsimp -zeta only
      exact h1

/-- What State.cboClean keeps. -/
theorem State.cboClean_kept : ∀ s v1 v2, Kept s (State.cboClean s v1 v2) := by
  intro s v1 v2
  unfold State.cboClean
  have h1 := Kept.refl s
  extract_lets +onlyGivenNames -underBinder -merge x1
  have h2 : Kept s x1 := by
    dsimp -zeta only [x1]
    refine Kept.trans ?_ (State.settleLine_kept ..)
    exact h1
  try clear_value x1
  split
  · exact h2
  · extract_lets +onlyGivenNames -underBinder -merge x2
    try clear_value x2
    extract_lets +onlyGivenNames -underBinder -merge x3
    have h3 : Kept s x3 := by
      dsimp -zeta only [x3]
      refine Kept.trans ?_ (State.homePut_kept ..)
      exact h2
    try clear_value x3
    split
    · refine Kept.trans ?_ (State.putAgent_kept ..)
      exact h3
    · extract_lets +onlyGivenNames -underBinder -merge x4
      try clear_value x4
      extract_lets +onlyGivenNames -underBinder -merge x5
      try clear_value x5
      refine Kept.trans ?_ (State.putHome_kept ..)
      refine Kept.trans ?_ (State.putAgent_kept ..)
      exact h3
    · exact h3

/-- What State.cbo keeps. -/
theorem State.cbo_kept (f : State → Nat → State) (hf : ∀ s c, Kept s (f s c)) : ∀ s h addr, Kept s (State.cbo s h addr f) := by
  intro s h addr
  unfold State.cbo
  split
  · exact hf _ _
  · exact .refl s
  · exact (State.logAccess_kept ..).trans (State.trap_kept ..)

/-- What execCboClean keeps. -/
theorem execCboClean_kept : ∀ v0 v1 s, Kept s (outOr s ((execCboClean v0 v1 s))) := by
  intro v0 v1 s
  unfold execCboClean
  have h1 := Kept.refl s
  refine Kept.next ?_
  refine Kept.trans ?_ (State.cbo_kept _ (?_) _ _ _)
  · exact h1
  · intro t1 y1
    try dsimp -zeta only
    have h2 := Kept.refl t1
    refine Kept.trans ?_ (State.cboClean_kept ..)
    exact h2

/-- What State.cboFlush keeps. -/
theorem State.cboFlush_kept : ∀ s v1 v2, Kept s (State.cboFlush s v1 v2) := by
  intro s v1 v2
  unfold State.cboFlush
  have h1 := Kept.refl s
  refine Kept.trans ?_ (State.cbo_kept _ (?_) _ _ _)
  · exact h1
  · intro t1 y1
    try dsimp -zeta only
    have h2 := Kept.refl t1
    extract_lets +onlyGivenNames -underBinder -merge x1
    try clear_value x1
    extract_lets +onlyGivenNames -underBinder -merge x2
    try clear_value x2
    extract_lets +onlyGivenNames -underBinder -merge x3
    try clear_value x3
    extract_lets +onlyGivenNames -underBinder -merge x4
    have h3 : Kept t1 x4 := by
      dsimp -zeta only [x4]
      split
      · refine Kept.trans ?_ (State.evict_kept ..)
        exact h2
      · refine Kept.trans ?_ (State.evict_kept ..)
        exact h2
      · exact h2
    try clear_value x4
    refine Kept.trans ?_ (State.homeGo_kept ..)
    refine Kept.trans ?_ (State.dropCopies_kept ..)
    refine Kept.trans ?_ (State.cboClean_kept ..)
    exact h3

/-- What execCboFlush keeps. -/
theorem execCboFlush_kept : ∀ v0 v1 s, Kept s (outOr s ((execCboFlush v0 v1 s))) := by
  intro v0 v1 s
  unfold execCboFlush
  have h1 := Kept.refl s
  refine Kept.next ?_
  refine Kept.trans ?_ (State.cboFlush_kept ..)
  exact h1

/-- What execCboInval keeps. -/
theorem execCboInval_kept : ∀ v0 v1 s, Kept s (outOr s ((execCboInval v0 v1 s))) := by
  intro v0 v1 s
  unfold execCboInval
  have h1 := Kept.refl s
  refine Kept.next ?_
  refine Kept.trans ?_ (State.cboFlush_kept ..)
  exact h1

/-- What execCboZero keeps. -/
theorem execCboZero_kept : ∀ h a k s, Kept s (outOr s (execCboZero h a k s)) := by
  intro h a k s
  unfold execCboZero
  extract_lets +onlyGivenNames base
  have g := State.writeMem_kept s (hartAcc h (s.pageKey h k)) base (zeros 128)
  split
  · rename_i x u q
    rw [q] at g
    exact Kept.next (g.trans (State.trap_kept ..))
  · rename_i x u _ q
    rw [q] at g
    exact Kept.next g

/-- What execStoreAbandon keeps. -/
theorem execStoreAbandon_kept : ∀ a b s, Kept s (outOr s (execStoreAbandon a b s)) := by
  intro a b s
  unfold execStoreAbandon
  extract_lets +onlyGivenNames i u
  have hu : Kept s u := (State.storeLost_kept ..).trans (State.storePend_kept ..)
  clear_value u
  split
  · split
    · exact Kept.next (hu.trans (State.modDie_kept ..))
    · exact Kept.next (hu.trans (Kept.getD (.refl _) (fun v hv => State.orphanDone_kept _ _ _ _ hv)))
  · exact Kept.next hu

/-- What execDeviceLoadTimeout keeps. -/
theorem execDeviceLoadTimeout_kept : ∀ a b s, Kept s (outOr s (execDeviceLoadTimeout a b s)) := by
  intro a b s
  unfold execDeviceLoadTimeout
  extract_lets +onlyGivenNames i u
  have hu : Kept s u := State.logAccess_kept ..
  clear_value u
  split
  · exact Kept.next ((hu.trans (State.trap_kept ..)).trans (State.reply_kept ..))
  · split
    · exact Kept.next ((hu.trans (State.modDie_kept ..)).trans (State.flightStatus_kept ..))
    · exact Kept.next (hu.trans (Kept.getD (.refl _) (fun v hv => State.orphanDone_kept _ _ _ _ hv)))
  · exact Kept.next (hu.trans (State.reply_kept ..))

/-- What State.clearCaches keeps. -/
theorem State.clearCaches_kept : ∀ s, Kept s (State.clearCaches s) := by
  intro s
  unfold State.clearCaches
  have h1957 := Kept.refl s
  exact Kept.of (t := s) rfl rfl rfl rfl rfl h1957

/-- What State.drainHd keeps. -/
theorem State.drainHd_kept : ∀ s, Kept s (State.drainHd s) := by
  intro s
  unfold State.drainHd
  have h1 := Kept.refl s
  extract_lets +onlyGivenNames -underBinder -merge x1
  have h2 : Kept s x1 := by
    dsimp -zeta only [x1]
    refine Kept.trans ?_ (State.settleAll_kept ..)
    refine Kept.folds _ (fun t1 x2 h3 => ?_) ?_
    · try dsimp -zeta only
      refine Kept.trans ?_ (State.wcDrainAll_kept ..)
      exact h3
    · try dsimp -zeta only
      exact h1
  try clear_value x1
  extract_lets +onlyGivenNames -underBinder -merge x3
  have h4 : Kept s x3 := by
    dsimp -zeta only [x3]
    refine Kept.folds _ (fun t2 x4 h5 => ?_) ?_
    · try dsimp -zeta only
      extract_lets +onlyGivenNames -underBinder -merge x5
      try clear_value x5
      extract_lets +onlyGivenNames -underBinder -merge x6
      try clear_value x6
      refine Kept.ifs (fun _ => ?_) (fun _ => ?_)
      · split
        · refine Kept.trans ?_ (State.homePut_kept ..)
          exact h5
        · exact h5
      · exact h5
    · try dsimp -zeta only
      exact h2
  try clear_value x3
  refine Kept.trans ?_ (State.clearCaches_kept ..)
  exact h4

/-- What execDrainCutoff keeps. -/
theorem execDrainCutoff_kept : ∀ v0 s, Kept s (outOr s ((execDrainCutoff v0 s))) := by
  intro v0 s
  unfold execDrainCutoff
  have h1 := Kept.refl s
  extract_lets +onlyGivenNames -underBinder -merge x1
  try clear_value x1
  extract_lets +onlyGivenNames -underBinder -merge x2 x3
  have h2 : Kept s x3 := by
    dsimp -zeta only [x3]
    exact Kept.of (t := s) rfl rfl rfl rfl rfl h1
  try clear_value x2 x3
  extract_lets +onlyGivenNames -underBinder -merge x4
  have h3 : Kept s x4 := by
    dsimp -zeta only [x4]
    refine Kept.trans ?_ (State.tear_kept ..)
    exact h2
  try clear_value x4
  refine Kept.next ?_
  refine Kept.ifs (fun _ => ?_) (fun _ => ?_)
  · refine Kept.trans ?_ (State.clearCaches_kept ..)
    exact h3
  · refine Kept.trans ?_ (State.modDie_kept ..)
    exact h3

/-- What execWinSync keeps. -/
theorem execWinSync_kept : ∀ s, Kept s (outOr s ((execWinSync s))) := by
  intro s
  unfold execWinSync
  have h1 := Kept.refl s
  extract_lets +onlyGivenNames -underBinder -merge x1
  try clear_value x1
  split
  · rename_i a1 a2 q1
    have h2 : Kept s a2 := by
      have e := congrArg Prod.snd q1
      dsimp only at e
      rw [← e]
      refine Kept.ite Prod.snd (fun _ => ?_) (fun _ => ?_)
      · refine Kept.trans ?_ (State.free_kept ..)
        exact h1
      · try dsimp -zeta only
        exact h1
    refine Kept.ite (outOr s) (fun _ => ?_) (fun _ => ?_)
    · refine Kept.next ?_
      refine Kept.trans ?_ (State.reply_kept ..)
      exact h2
    · refine Kept.next ?_
      refine Kept.trans ?_ (State.reply_kept ..)
      refine Kept.trans ?_ (State.release_kept ..)
      exact h2

/-! ## Tiers -/

/-- What State.fenceChannel keeps. -/
theorem State.fenceChannel_kept : ∀ s v1 v2, Kept s (State.fenceChannel s v1 v2) := by
  intro s v1 v2
  unfold State.fenceChannel
  have h1 := Kept.refl s
  refine Kept.ifs (fun _ => ?_) (fun _ => ?_)
  · exact h1
  · refine Kept.trans ?_ (State.event_kept ..)
    refine Kept.trans ?_ (State.modCtrl_kept ..)
    exact h1

/-- What State.softRepair keeps. -/
theorem State.softRepair_kept : ∀ s v1 v2, Kept s ((State.softRepair s v1 v2).2) := by
  intro s v1 v2
  unfold State.softRepair
  have h1 := Kept.refl s
  extract_lets +onlyGivenNames -underBinder -merge x1
  try clear_value x1
  refine Kept.ite Prod.snd (fun _ => ?_) (fun _ => ?_)
  · try dsimp -zeta only
    exact h1
  · refine Kept.ite Prod.snd (fun _ => ?_) (fun _ => ?_)
    · try dsimp -zeta only
      refine Kept.trans ?_ (State.event_kept ..)
      exact h1
    · try dsimp -zeta only
      refine Kept.trans ?_ (State.modCtrl_kept ..)
      exact h1

/-- What State.autoRepairRow keeps. -/
theorem State.autoRepairRow_kept : ∀ s v1 v2, Kept s (State.autoRepairRow s v1 v2) := by
  intro s v1 v2
  unfold State.autoRepairRow
  have h1 := Kept.refl s
  refine Kept.ifs (fun _ => ?_) (fun _ => ?_)
  · refine Kept.trans ?_ (State.softRepair_kept ..)
    exact h1
  · exact h1

/-- What State.noteBad keeps. -/
theorem State.noteBad_kept : ∀ s v1 v2, Kept s (State.noteBad s v1 v2) := by
  intro s v1 v2
  unfold State.noteBad
  have h1 := Kept.refl s
  extract_lets +onlyGivenNames -underBinder -merge x1
  try clear_value x1
  extract_lets +onlyGivenNames -underBinder -merge x2
  try clear_value x2
  extract_lets +onlyGivenNames -underBinder -merge x3
  have h2 : Kept s x3 := by
    dsimp -zeta only [x3]
    refine Kept.trans ?_ (State.modCtrl_kept ..)
    exact h1
  try clear_value x3
  refine Kept.ifs (fun _ => ?_) (fun _ => ?_)
  · refine Kept.trans ?_ (State.fenceChannel_kept ..)
    exact h2
  · exact h2

/-- What State.fenceLine keeps. -/
theorem State.fenceLine_kept : ∀ s v1 v2 v3, Kept s (State.fenceLine s v1 v2 v3) := by
  intro s v1 v2 v3
  unfold State.fenceLine
  have h1 := Kept.refl s
  extract_lets +onlyGivenNames -underBinder -merge x1
  try clear_value x1
  extract_lets +onlyGivenNames -underBinder -merge x2
  try clear_value x2
  extract_lets +onlyGivenNames -underBinder -merge x3
  have h2 : Kept s x3 := by
    dsimp -zeta only [x3]
    refine Kept.ifs (fun _ => ?_) (fun _ => ?_)
    · refine Kept.trans ?_ (State.dropSide_kept ..)
      exact h1
    · exact h1
  try clear_value x3
  extract_lets +onlyGivenNames -underBinder -merge x4
  have h3 : Kept s x4 := by
    dsimp -zeta only [x4]
    split
    · refine Kept.trans ?_ (State.fenceChannel_kept ..)
      exact h2
    · refine Kept.trans ?_ (State.event_kept ..)
      refine Kept.trans ?_ (State.modCtrl_kept ..)
      exact h2
  try clear_value x4
  refine Kept.trans ?_ (State.autoRepairRow_kept ..)
  exact h3

/-- What State.countBad keeps. -/
theorem State.countBad_kept : ∀ s v1, Kept s (State.countBad s v1) := by
  intro s v1
  unfold State.countBad
  have h1 := Kept.refl s
  refine Kept.trans ?_ (State.modCtrl_kept ..)
  exact h1

/-- What State.countFixed keeps. -/
theorem State.countFixed_kept : ∀ s v1 v2 v3, Kept s (State.countFixed s v1 v2 v3) := by
  intro s v1 v2 v3
  unfold State.countFixed
  have h1 := Kept.refl s
  refine Kept.ifs (fun _ => ?_) (fun _ => ?_)
  · exact h1
  · extract_lets +onlyGivenNames -underBinder -merge x1
    try clear_value x1
    extract_lets +onlyGivenNames -underBinder -merge x2
    try clear_value x2
    extract_lets +onlyGivenNames -underBinder -merge x3
    try clear_value x3
    extract_lets +onlyGivenNames -underBinder -merge x4
    have h2 : Kept s x4 := by
      dsimp -zeta only [x4]
      refine Kept.trans ?_ (State.modCtrl_kept ..)
      exact h1
    try clear_value x4
    refine Kept.ifs (fun _ => ?_) (fun _ => ?_)
    · refine Kept.trans ?_ (State.autoRepairRow_kept ..)
      exact h2
    · exact h2

/-- What State.rewrite keeps. -/
theorem State.rewrite_kept : ∀ s v1 v2, Kept s (State.rewrite s v1 v2) := by
  intro s line data
  exact ⟨rfl, Nat.le_refl _, id, id, rfl, fun h => State.putCells_wf _ _ _ h⟩

/-- What State.controllerRead keeps. -/
theorem State.controllerRead_kept : ∀ s v1 v2 v3 v4, Kept s ((State.controllerRead s v1 v2 v3 v4).2) := by
  intro s v1 v2 v3 v4
  unfold State.controllerRead
  have h1 := Kept.refl s
  refine Kept.ite Prod.snd (fun _ => ?_) (fun _ => ?_)
  · extract_lets +onlyGivenNames -underBinder -merge x1
    have h2 : Kept s x1 := by
      dsimp -zeta only [x1]
      refine Kept.trans ?_ (State.noteBad_kept ..)
      refine Kept.trans ?_ (State.countBad_kept ..)
      exact h1
    try clear_value x1
    extract_lets +onlyGivenNames -underBinder -merge x2
    try clear_value x2
    split
    · try dsimp -zeta only
      refine Kept.trans ?_ (State.autoRepairRow_kept ..)
      refine Kept.trans ?_ (State.logNote_kept ..)
      refine Kept.trans ?_ (State.rawWrite_kept ..)
      exact h2
    · try dsimp -zeta only
      refine Kept.trans ?_ (State.fenceLine_kept ..)
      exact h2
  · extract_lets +onlyGivenNames -underBinder -merge x3
    try clear_value x3
    extract_lets +onlyGivenNames -underBinder -merge x4
    try clear_value x4
    extract_lets +onlyGivenNames -underBinder -merge x5
    try clear_value x5
    extract_lets +onlyGivenNames -underBinder -merge x6
    have h3 : Kept s x6 := by
      dsimp -zeta only [x6]
      refine Kept.trans ?_ (State.countFixed_kept ..)
      exact h1
    try clear_value x6
    try dsimp -zeta only
    refine Kept.ifs (fun _ => ?_) (fun _ => ?_)
    · exact h3
    · refine Kept.trans ?_ (State.rewrite_kept ..)
      exact h3

/-- What State.fencedRead keeps. -/
theorem State.fencedRead_kept : ∀ s v1 v2, Kept s (State.fencedRead s v1 v2) := by
  intro s v1 v2
  unfold State.fencedRead
  have h1 := Kept.refl s
  refine Kept.trans ?_ (State.answerErr_kept ..)
  refine Kept.trans ?_ (State.logAccess_kept ..)
  exact h1

/-- What execLineReadReturn keeps. -/
theorem execLineReadReturn_kept : ∀ v0 v1 v2 s, Kept s (outOr s ((execLineReadReturn v0 v1 v2 s))) := by
  intro v0 v1 v2 s
  unfold execLineReadReturn
  have h1 := Kept.refl s
  extract_lets +onlyGivenNames -underBinder -merge x1
  try clear_value x1
  refine Kept.ite (outOr s) (fun _ => ?_) (fun _ => ?_)
  · refine Kept.next ?_
    exact h1
  · refine Kept.ite (outOr s) (fun _ => ?_) (fun _ => ?_)
    · refine Kept.next ?_
      refine Kept.trans ?_ (State.fencedRead_kept ..)
      exact h1
    · split
      · rename_i a1 a2 q1
        have h2 : Kept s a2 := by
          have e := congrArg Prod.snd q1
          dsimp only at e
          rw [← e]
          refine Kept.trans ?_ (State.controllerRead_kept ..)
          exact h1
        refine Kept.next ?_
        refine Kept.trans ?_ (State.reply_kept ..)
        exact h2
      · rename_i a3 q2
        have h3 : Kept s a3 := by
          have e := congrArg Prod.snd q2
          dsimp only at e
          rw [← e]
          refine Kept.trans ?_ (State.controllerRead_kept ..)
          exact h1
        refine Kept.next ?_
        refine Kept.trans ?_ (State.fencedRead_kept ..)
        exact h3

/-- What execChannelParityFailure keeps. -/
theorem execChannelParityFailure_kept : ∀ v0 v1 v2 v3 s, Kept s (outOr s ((execChannelParityFailure v0 v1 v2 v3 s))) := by
  intro v0 v1 v2 v3 s
  unfold execChannelParityFailure
  have h1 := Kept.refl s
  refine Kept.ite (outOr s) (fun _ => ?_) (fun _ => ?_)
  · refine Kept.next ?_
    exact h1
  · refine Kept.next ?_
    refine Kept.trans ?_ (State.fenceChannel_kept ..)
    exact h1

/-- What State.rakeStep keeps. -/
theorem State.rakeStep_kept : ∀ s v1 v2, Kept s (State.rakeStep s v1 v2) := by
  intro s v1 v2
  unfold State.rakeStep
  have h1 := Kept.refl s
  refine Kept.trans ?_ (State.modCtrl_kept ..)
  exact h1

/-- What State.rake keeps. -/
theorem State.rake_kept : ∀ s v1 v2, Kept s (State.rake s v1 v2) := by
  intro s v1 v2
  unfold State.rake
  have h1 := Kept.refl s
  refine Kept.ifs (fun _ => ?_) (fun _ => ?_)
  · exact h1
  · split
    · refine Kept.trans ?_ (State.rakeStep_kept ..)
      exact h1
    · refine Kept.trans ?_ (State.rakeStep_kept ..)
      refine Kept.trans ?_ (State.controllerRead_kept ..)
      exact h1

/-- What execRakeRead keeps. -/
theorem execRakeRead_kept : ∀ v0 v1 s, Kept s (outOr s ((execRakeRead v0 v1 s))) := by
  intro v0 v1 s
  unfold execRakeRead
  have h1 := Kept.refl s
  refine Kept.next ?_
  refine Kept.trans ?_ (State.rake_kept ..)
  exact h1

/-- What execRakeWaitExpiry keeps. -/
theorem execRakeWaitExpiry_kept : ∀ v0 v1 s, Kept s (outOr s ((execRakeWaitExpiry v0 v1 s))) := by
  intro v0 v1 s
  unfold execRakeWaitExpiry
  have h1 := Kept.refl s
  refine Kept.next ?_
  refine Kept.trans ?_ (State.rake_kept ..)
  exact h1

/-- What State.repairReads keeps. -/
theorem State.repairReads_kept : ∀ s v1 v2 v3, Kept s (State.repairReads s v1 v2 v3) := by
  intro s v1 v2 v3
  unfold State.repairReads
  have h1 := Kept.refl s
  refine Kept.folds _ (fun t1 x1 h2 => ?_) ?_
  · try dsimp -zeta only
    refine Kept.ifs (fun _ => ?_) (fun _ => ?_)
    · exact h2
    · refine Kept.trans ?_ (State.controllerRead_kept ..)
      exact h2
  · try dsimp -zeta only
    exact h1

/-- What execRowSoftRepairComplete keeps. -/
theorem execRowSoftRepairComplete_kept : ∀ v0 s, Kept s (outOr s ((execRowSoftRepairComplete v0 s))) := by
  intro v0 s
  unfold execRowSoftRepairComplete
  have h1 := Kept.refl s
  extract_lets +onlyGivenNames -underBinder -merge x1
  try clear_value x1
  split
  · refine Kept.next ?_
    exact h1
  · extract_lets +onlyGivenNames -underBinder -merge x2
    have h2 : Kept s x2 := by
      dsimp -zeta only [x2]
      refine Kept.trans ?_ (State.repairReads_kept ..)
      exact h1
    try clear_value x2
    extract_lets +onlyGivenNames -underBinder -merge x3
    have h3 : Kept s x3 := by
      dsimp -zeta only [x3]
      refine Kept.trans ?_ (State.modCtrl_kept ..)
      exact h2
    try clear_value x3
    refine Kept.next ?_
    refine Kept.trans ?_ (State.event_kept ..)
    exact h3

/-- What execChannelSaturationPersist keeps. -/
theorem execChannelSaturationPersist_kept : ∀ v0 v1 s, Kept s (outOr s ((execChannelSaturationPersist v0 v1 s))) := by
  intro v0 v1 s
  unfold execChannelSaturationPersist
  have h1 := Kept.refl s
  refine Kept.ite (outOr s) (fun _ => ?_) (fun _ => ?_)
  · refine Kept.next ?_
    exact h1
  · refine Kept.next ?_
    refine Kept.trans ?_ (State.event_kept ..)
    refine Kept.trans ?_ (State.modCtrl_kept ..)
    exact h1

/-! ## Links -/

/-- What State.bundleEvent keeps. -/
theorem State.bundleEvent_kept : ∀ s v1 v2, Kept s (State.bundleEvent s v1 v2) := by
  intro s v1 v2
  unfold State.bundleEvent
  have h1 := Kept.refl s
  extract_lets +onlyGivenNames -underBinder -merge x1
  try clear_value x1
  extract_lets +onlyGivenNames -underBinder -merge x2
  try clear_value x2
  refine Kept.ifs (fun _ => ?_) (fun _ => ?_)
  · refine Kept.trans ?_ (State.raiseWired_kept ..)
    refine Kept.trans ?_ (State.event_kept ..)
    exact h1
  · refine Kept.trans ?_ (State.event_kept ..)
    exact h1

/-- What State.handoverIfDown keeps. -/
theorem State.handoverIfDown_kept : ∀ s v1, Kept s (State.handoverIfDown s v1) := by
  intro s v1
  unfold State.handoverIfDown
  have h1 := Kept.refl s
  refine Kept.ifs (fun _ => ?_) (fun _ => ?_)
  · refine Kept.trans ?_ (State.modLink_kept ..)
    exact h1
  · exact h1

/-- What State.logLanes keeps. -/
theorem State.logLanes_kept : ∀ s v1 v2 v3 v4 v5, Kept s (State.logLanes s v1 v2 v3 v4 v5) := by
  intro s v1 v2 v3 v4 v5
  unfold State.logLanes
  have h1 := Kept.refl s
  refine Kept.folds _ (fun t1 x1 h2 => ?_) ?_
  · try dsimp -zeta only
    refine Kept.trans ?_ (State.logNote_kept ..)
    exact h2
  · try dsimp -zeta only
    exact h1

/-- What State.startCheck keeps. -/
theorem State.startCheck_kept : ∀ s v1 v2, Kept s (State.startCheck s v1 v2) := by
  intro s v1 v2
  unfold State.startCheck
  have h1 := Kept.refl s
  extract_lets +onlyGivenNames -underBinder -merge x1
  try clear_value x1
  extract_lets +onlyGivenNames -underBinder -merge x2
  try clear_value x2
  extract_lets +onlyGivenNames -underBinder -merge x3
  try clear_value x3
  refine Kept.ifs (fun _ => ?_) (fun _ => ?_)
  · exact h1
  · refine Kept.ifs (fun _ => ?_) (fun _ => ?_)
    · refine Kept.trans ?_ (State.modLink_kept ..)
      exact h1
    · refine Kept.folds _ (fun t1 x4 h2 => ?_) ?_
      · try dsimp -zeta only
        refine Kept.trans ?_ (State.linkPump_kept ..)
        refine Kept.trans ?_ (State.modLink_kept ..)
        exact h2
      · try dsimp -zeta only
        exact h1

/-- What State.startDue keeps. -/
theorem State.startDue_kept : ∀ s v1, Kept s (State.startDue s v1) := by
  intro s v1
  unfold State.startDue
  have h1 := Kept.refl s
  split
  · refine Kept.trans ?_ (State.startCheck_kept ..)
    exact h1
  · exact h1

/-- What State.countReplay keeps. -/
theorem State.countReplay_kept : ∀ s v1 v2, Kept s (State.countReplay s v1 v2) := by
  intro s v1 v2
  unfold State.countReplay
  have h1 := Kept.refl s
  extract_lets +onlyGivenNames -underBinder -merge x1
  have h2 : Kept s x1 := by
    dsimp -zeta only [x1]
    refine Kept.trans ?_ (State.modLink_kept ..)
    exact h1
  try clear_value x1
  refine Kept.ifs (fun _ => ?_) (fun _ => ?_)
  · refine Kept.trans ?_ (State.startCheck_kept ..)
    exact h2
  · exact h2

/-- What execSpareMonitorError keeps. -/
theorem execSpareMonitorError_kept : ∀ v0 v1 s, Kept s (outOr s ((execSpareMonitorError v0 v1 s))) := by
  intro v0 v1 s
  unfold execSpareMonitorError
  have h1 := Kept.refl s
  refine Kept.ite (outOr s) (fun _ => ?_) (fun _ => ?_)
  · refine Kept.next ?_
    refine Kept.trans ?_ (State.startCheck_kept ..)
    exact h1
  · refine Kept.next ?_
    exact h1

/-- What State.bothEnds keeps. -/
theorem State.bothEnds_kept : ∀ s v1 v2 v3, Kept s (State.bothEnds s v1 v2 v3) := by
  intro s v1 v2 v3
  unfold State.bothEnds
  have h1 := Kept.refl s
  refine Kept.trans ?_ (State.modLink_kept ..)
  refine Kept.trans ?_ (State.modLink_kept ..)
  exact h1

/-- What State.moduleDone keeps. -/
theorem State.moduleDone_kept : ∀ s v1, Kept s (State.moduleDone s v1) := by
  intro s v1
  unfold State.moduleDone
  have h1 := Kept.refl s
  extract_lets +onlyGivenNames -underBinder -merge x1
  have h2 : Kept s x1 := by
    dsimp -zeta only [x1]
    refine Kept.trans ?_ (State.handoverIfDown_kept ..)
    refine Kept.trans ?_ (State.handoverIfDown_kept ..)
    exact h1
  try clear_value x1
  extract_lets +onlyGivenNames -underBinder -merge x2
  have h3 : Kept s x2 := by
    dsimp -zeta only [x2]
    refine Kept.trans ?_ (State.startDue_kept ..)
    refine Kept.trans ?_ (State.startDue_kept ..)
    exact h2
  try clear_value x2
  refine Kept.trans ?_ (State.linkPump_kept ..)
  refine Kept.trans ?_ (State.linkPump_kept ..)
  exact h3

/-- What State.checkEnd keeps. -/
theorem State.checkEnd_kept : ∀ s v1 v2 v3, Kept s (State.checkEnd s v1 v2 v3) := by
  intro s v1 v2 v3
  unfold State.checkEnd
  have h1 := Kept.refl s
  extract_lets +onlyGivenNames -underBinder -merge x1
  try clear_value x1
  extract_lets +onlyGivenNames -underBinder -merge x2
  try clear_value x2
  extract_lets +onlyGivenNames -underBinder -merge x3
  try clear_value x3
  extract_lets +onlyGivenNames -underBinder -merge x4
  try clear_value x4
  extract_lets +onlyGivenNames -underBinder -merge x5
  try clear_value x5
  extract_lets +onlyGivenNames -underBinder -merge x6
  try clear_value x6
  extract_lets +onlyGivenNames -underBinder -merge x7
  try clear_value x7
  extract_lets +onlyGivenNames -underBinder -merge x8
  have h2 : Kept s x8 := by
    dsimp -zeta only [x8]
    refine Kept.trans ?_ (State.bothEnds_kept ..)
    exact h1
  try clear_value x8
  extract_lets +onlyGivenNames -underBinder -merge x9
  have h3 : Kept s x9 := by
    dsimp -zeta only [x9]
    refine Kept.trans ?_ (State.logLanes_kept ..)
    refine Kept.trans ?_ (State.logLanes_kept ..)
    exact h2
  try clear_value x9
  refine Kept.trans ?_ (State.moduleDone_kept ..)
  refine Kept.ifs (fun _ => ?_) (fun _ => ?_)
  · refine Kept.trans ?_ (State.bundleEvent_kept ..)
    exact h3
  · exact h3

/-- What execLaneCheckEnd keeps. -/
theorem execLaneCheckEnd_kept : ∀ v0 v1 v2 s, Kept s (outOr s ((execLaneCheckEnd v0 v1 v2 s))) := by
  intro v0 v1 v2 s
  unfold execLaneCheckEnd
  have h1 := Kept.refl s
  refine Kept.ite (outOr s) (fun _ => ?_) (fun _ => ?_)
  · refine Kept.next ?_
    refine Kept.trans ?_ (State.checkEnd_kept ..)
    exact h1
  · refine Kept.next ?_
    exact h1

/-- What execModuleRetrainComplete keeps. -/
theorem execModuleRetrainComplete_kept : ∀ v0 v1 s, Kept s (outOr s ((execModuleRetrainComplete v0 v1 s))) := by
  intro v0 v1 s
  unfold execModuleRetrainComplete
  have h1 := Kept.refl s
  refine Kept.ite (outOr s) (fun _ => ?_) (fun _ => ?_)
  · refine Kept.next ?_
    exact h1
  · refine Kept.next ?_
    refine Kept.trans ?_ (State.moduleDone_kept ..)
    refine Kept.trans ?_ (State.bothEnds_kept ..)
    exact h1

/-- What execForwardedClockFailure keeps. -/
theorem execForwardedClockFailure_kept : ∀ v0 v1 s, Kept s (outOr s ((execForwardedClockFailure v0 v1 s))) := by
  intro v0 v1 s
  unfold execForwardedClockFailure
  have h1 := Kept.refl s
  refine Kept.ite (outOr s) (fun _ => ?_) (fun _ => ?_)
  · refine Kept.next ?_
    exact h1
  · extract_lets +onlyGivenNames -underBinder -merge x1
    have h2 : Kept s x1 := by
      dsimp -zeta only [x1]
      refine Kept.trans ?_ (State.bothEnds_kept ..)
      exact h1
    try clear_value x1
    extract_lets +onlyGivenNames -underBinder -merge x2
    have h3 : Kept s x2 := by
      dsimp -zeta only [x2]
      refine Kept.folds _ (fun t1 x3 h4 => ?_) ?_
      · try dsimp -zeta only
        refine Kept.trans ?_ (State.modLink_kept ..)
        exact h4
      · try dsimp -zeta only
        exact h2
    try clear_value x2
    refine Kept.next ?_
    refine Kept.trans ?_ (State.moduleDone_kept ..)
    refine Kept.trans ?_ (State.bundleEvent_kept ..)
    exact h3

/-- What execHandoverComplete keeps. -/
theorem execHandoverComplete_kept : ∀ v0 v1 s, Kept s (outOr s ((execHandoverComplete v0 v1 s))) := by
  intro v0 v1 s
  unfold execHandoverComplete
  have h1 := Kept.refl s
  refine Kept.ite (outOr s) (fun _ => ?_) (fun _ => ?_)
  · refine Kept.next ?_
    exact h1
  · extract_lets +onlyGivenNames -underBinder -merge x1
    try clear_value x1
    extract_lets +onlyGivenNames -underBinder -merge x2
    try clear_value x2
    extract_lets +onlyGivenNames -underBinder -merge x3
    try clear_value x3
    extract_lets +onlyGivenNames -underBinder -merge x4
    have h2 : Kept s x4 := by
      dsimp -zeta only [x4]
      refine Kept.trans ?_ (State.modLink_kept ..)
      exact h1
    try clear_value x4
    refine Kept.next ?_
    refine Kept.folds _ (fun t1 x5 h3 => ?_) ?_
    · try dsimp -zeta only
      refine Kept.trans ?_ (State.linkSend_kept ..)
      exact h3
    · try dsimp -zeta only
      exact h2

/-! ## Fabric -/

/-- What State.portEvent keeps. -/
theorem State.portEvent_kept : ∀ s v1, Kept s (State.portEvent s v1) := by
  intro s v1
  unfold State.portEvent
  have h1 := Kept.refl s
  refine Kept.trans ?_ (State.dieEvent_kept ..)
  exact h1

/-- What State.violation keeps. -/
theorem State.violation_kept : ∀ s v1 v2, Kept s (State.violation s v1 v2) := by
  intro s v1 v2
  unfold State.violation
  have h1 := Kept.refl s
  extract_lets +onlyGivenNames -underBinder -merge x1
  have h2 : Kept s x1 := by
    dsimp -zeta only [x1]
    refine Kept.trans ?_ (State.modPort_kept ..)
    exact h1
  try clear_value x1
  extract_lets +onlyGivenNames -underBinder -merge x2
  have h3 : Kept s x2 := by
    dsimp -zeta only [x2]
    refine Kept.trans ?_ (State.logNote_kept ..)
    exact h2
  try clear_value x2
  refine Kept.ifs (fun _ => ?_) (fun _ => ?_)
  · refine Kept.trans ?_ (State.portEvent_kept ..)
    refine Kept.trans ?_ (State.modPort_kept ..)
    exact h3
  · exact h3

/-- What State.forward keeps. -/
theorem State.forward_kept : ∀ s v1 v2, Kept s ((State.forward s v1 v2).2) := by
  intro s v1 v2
  unfold State.forward
  have h1 := Kept.refl s
  split
  · try dsimp -zeta only
    refine Kept.trans ?_ (State.enqueue_kept ..)
    exact h1
  · try dsimp -zeta only
    exact h1

/-- What State.reroute keeps. -/
theorem State.reroute_kept : ∀ s v1, Kept s (State.reroute s v1) := by
  intro s v1
  unfold State.reroute
  have h1 := Kept.refl s
  refine Kept.folds _ (fun t1 x1 h2 => ?_) ?_
  · try dsimp -zeta only
    split
    · refine Kept.trans ?_ (State.enqueue_kept ..)
      exact h2
    · refine Kept.trans ?_ (State.enqueue_kept ..)
      exact h2
  · try dsimp -zeta only
    refine Kept.trans ?_ (State.modPort_kept ..)
    exact h1

/-- What State.retrain keeps. -/
theorem State.retrain_kept : ∀ s v1, Kept s (State.retrain s v1) := by
  intro s v1
  unfold State.retrain
  have h1 := Kept.refl s
  refine Kept.ifs (fun _ => ?_) (fun _ => ?_)
  · exact h1
  · refine Kept.trans ?_ (State.reroute_kept ..)
    refine Kept.trans ?_ (State.modPort_kept ..)
    exact h1

/-- What State.answer keeps. -/
theorem State.answer_kept : ∀ s v1 v2 v3 v4 v5, Kept s (State.answer s v1 v2 v3 v4 v5) := by
  intro s v1 v2 v3 v4 v5
  unfold State.answer
  have h1 := Kept.refl s
  refine Kept.trans ?_ (State.send_kept ..)
  exact h1

/-- What State.negative keeps. -/
theorem State.negative_kept : ∀ s v1 v2 v3, Kept s (State.negative s v1 v2 v3) := by
  intro s v1 v2 v3
  unfold State.negative
  have h1 := Kept.refl s
  refine Kept.ifs (fun _ => ?_) (fun _ => ?_)
  · exact h1
  · refine Kept.trans ?_ (State.answer_kept ..)
    exact h1

/-- What State.packetIn keeps. -/
theorem State.packetIn_kept : ∀ s v1 v2 v3, Kept s (State.packetIn s v1 v2 v3) := by
  intro s v1 v2 v3
  unfold State.packetIn
  have h1 := Kept.refl s
  extract_lets +onlyGivenNames -underBinder -merge x1
  try clear_value x1
  refine Kept.ifs (fun _ => ?_) (fun _ => ?_)
  · refine Kept.trans ?_ (State.modPort_kept ..)
    refine Kept.ifs (fun _ => ?_) (fun _ => ?_)
    · refine Kept.trans ?_ (State.wake_kept ..)
      exact h1
    · exact h1
  · refine Kept.ifs (fun _ => ?_) (fun _ => ?_)
    · exact h1
    · extract_lets +onlyGivenNames -underBinder -merge x2
      try clear_value x2
      extract_lets +onlyGivenNames -underBinder -merge x3
      try clear_value x3
      refine Kept.ifs (fun _ => ?_) (fun _ => ?_)
      · refine Kept.trans ?_ (State.negative_kept ..)
        refine Kept.trans ?_ (State.violation_kept ..)
        exact h1
      · split
        · rename_i a1 q1
          have h2 : Kept s a1 := by
            have e := congrArg Prod.snd q1
            dsimp only at e
            rw [← e]
            refine Kept.trans ?_ (State.forward_kept ..)
            exact h1
          exact h2
        · rename_i a2 q2
          have h3 : Kept s a2 := by
            have e := congrArg Prod.snd q2
            dsimp only at e
            rw [← e]
            refine Kept.trans ?_ (State.forward_kept ..)
            exact h1
          refine Kept.trans ?_ (State.negative_kept ..)
          refine Kept.trans ?_ (State.violation_kept ..)
          exact h3

/-- What State.takePackets keeps. -/
theorem State.takePackets_kept : ∀ p tc flit n s, Kept s (State.takePackets p tc flit n s) := by
  intro p tc flit n
  induction n with
  | zero => intro s; exact .refl s
  | succ n ih =>
    intro s
    unfold State.takePackets
    extract_lets +onlyGivenNames l keep
    have hk : ∀ r u, Kept u (keep r u) := fun r u => State.modPort_kept ..
    clear_value keep
    refine Kept.ifs (fun _ => Kept.ifs (fun _ => hk _ _) (fun _ => .refl s)) (fun _ => Kept.ifs (fun _ => hk _ _) (fun _ => ?_))
    refine Kept.ifs (fun _ => (State.violation_kept ..).trans (hk _ _)) (fun _ => Kept.ifs (fun _ => .refl s) (fun _ => ?_))
    refine Kept.trans ?_ (ih _)
    exact Kept.ifs (fun _ => (hk _ _).trans (State.packetIn_kept ..)) (fun _ => (hk _ _).trans (State.violation_kept ..))

/-- What State.flitControl keeps. -/
theorem State.flitControl_kept : ∀ s v1 v2, Kept s (State.flitControl s v1 v2) := by
  intro s v1 v2
  unfold State.flitControl
  have h1 := Kept.refl s
  extract_lets +onlyGivenNames -underBinder -merge x1
  try clear_value x1
  extract_lets +onlyGivenNames -underBinder -merge x2
  try clear_value x2
  extract_lets +onlyGivenNames -underBinder -merge x3
  try clear_value x3
  extract_lets +onlyGivenNames -underBinder -merge x4
  try clear_value x4
  extract_lets +onlyGivenNames -underBinder -merge x5
  have h2 : Kept s x5 := by
    dsimp -zeta only [x5]
    refine Kept.trans ?_ (State.modPort_kept ..)
    exact h1
  try clear_value x5
  refine Kept.ifs (fun _ => ?_) (fun _ => ?_)
  · refine Kept.trans ?_ (State.retrain_kept ..)
    refine Kept.trans ?_ (State.violation_kept ..)
    exact h2
  · exact h2

/-- What State.timeArrives keeps. -/
theorem State.timeArrives_kept : ∀ s v1 v2 v3, Kept s (State.timeArrives s v1 v2 v3) := by
  intro s v1 v2 v3
  unfold State.timeArrives
  have h1 := Kept.refl s
  extract_lets +onlyGivenNames -underBinder -merge x1
  try clear_value x1
  extract_lets +onlyGivenNames -underBinder -merge x2
  have h2 : Kept s x2 := by
    dsimp -zeta only [x2]
    refine Kept.trans ?_ (State.modPort_kept ..)
    exact h1
  try clear_value x2
  refine Kept.ifs (fun _ => ?_) (fun _ => ?_)
  · exact h2
  · extract_lets +onlyGivenNames -underBinder -merge x3
    try clear_value x3
    extract_lets +onlyGivenNames -underBinder -merge x4
    try clear_value x4
    extract_lets +onlyGivenNames -underBinder -merge x5
    try clear_value x5
    extract_lets +onlyGivenNames -underBinder -merge x6
    try clear_value x6
    exact Kept.of (t := x2) rfl rfl rfl rfl rfl h2

/-- What State.flitGap keeps. -/
theorem State.flitGap_kept : ∀ s v1 v2 v3, Kept s (State.flitGap s v1 v2 v3) := by
  intro s v1 v2 v3
  unfold State.flitGap
  have h1 := Kept.refl s
  extract_lets +onlyGivenNames -underBinder -merge x1
  have h2 : Kept s x1 := by
    dsimp -zeta only [x1]
    refine Kept.trans ?_ (State.violation_kept ..)
    exact h1
  try clear_value x1
  refine Kept.ifs (fun _ => ?_) (fun _ => ?_)
  · refine Kept.trans ?_ (State.modPort_kept ..)
    exact h2
  · refine Kept.trans ?_ (State.retrain_kept ..)
    exact h2

/-- What execFabricFlitReceive keeps. -/
theorem execFabricFlitReceive_kept : ∀ v0 v1 s, Kept s (outOr s ((execFabricFlitReceive v0 v1 s))) := by
  intro v0 v1 s
  unfold execFabricFlitReceive
  have h1 := Kept.refl s
  extract_lets +onlyGivenNames -underBinder -merge x1
  try clear_value x1
  refine Kept.ite (outOr s) (fun _ => ?_) (fun _ => ?_)
  · refine Kept.next ?_
    exact h1
  · refine Kept.ite (outOr s) (fun _ => ?_) (fun _ => ?_)
    · refine Kept.next ?_
      refine Kept.trans ?_ (State.modPort_kept ..)
      refine Kept.trans ?_ (State.violation_kept ..)
      exact h1
    · refine Kept.ite (outOr s) (fun _ => ?_) (fun _ => ?_)
      · refine Kept.next ?_
        refine Kept.trans ?_ (State.violation_kept ..)
        exact h1
      · extract_lets +onlyGivenNames -underBinder -merge x2
        try clear_value x2
        extract_lets +onlyGivenNames -underBinder -merge x3
        try clear_value x3
        extract_lets +onlyGivenNames -underBinder -merge x4
        try clear_value x4
        extract_lets +onlyGivenNames -underBinder -merge x5
        try clear_value x5
        refine Kept.ite (outOr s) (fun _ => ?_) (fun _ => ?_)
        · refine Kept.next ?_
          refine Kept.trans ?_ (State.retrain_kept ..)
          refine Kept.trans ?_ (State.violation_kept ..)
          exact h1
        · refine Kept.ite (outOr s) (fun _ => ?_) (fun _ => ?_)
          · extract_lets +onlyGivenNames -underBinder -merge x6
            have h2 : Kept s x6 := by
              dsimp -zeta only [x6]
              refine Kept.trans ?_ (State.flitControl_kept ..)
              exact h1
            try clear_value x6
            extract_lets +onlyGivenNames -underBinder -merge x7
            have h3 : Kept s x7 := by
              dsimp -zeta only [x7]
              refine Kept.ifs (fun _ => ?_) (fun _ => ?_)
              · refine Kept.trans ?_ (State.timeArrives_kept ..)
                exact h2
              · exact h2
            try clear_value x7
            refine Kept.next ?_
            refine Kept.ifs (fun _ => ?_) (fun _ => ?_)
            · exact h3
            · refine Kept.trans ?_ (State.modPort_kept ..)
              exact h3
          · refine Kept.ite (outOr s) (fun _ => ?_) (fun _ => ?_)
            · refine Kept.next ?_
              refine Kept.trans ?_ (State.flitGap_kept ..)
              exact h1
            · extract_lets +onlyGivenNames -underBinder -merge x8
              have h4 : Kept s x8 := by
                dsimp -zeta only [x8]
                refine Kept.trans ?_ (State.flitControl_kept ..)
                exact h1
              try clear_value x8
              refine Kept.ite (outOr s) (fun _ => ?_) (fun _ => ?_)
              · refine Kept.next ?_
                refine Kept.trans ?_ (State.modPort_kept ..)
                exact h4
              · refine Kept.ite (outOr s) (fun _ => ?_) (fun _ => ?_)
                · refine Kept.next ?_
                  refine Kept.trans ?_ (State.retrain_kept ..)
                  refine Kept.trans ?_ (State.violation_kept ..)
                  exact h4
                · extract_lets +onlyGivenNames -underBinder -merge x9
                  have h5 : Kept s x9 := by
                    dsimp -zeta only [x9]
                    refine Kept.trans ?_ (State.modPort_kept ..)
                    exact h4
                  try clear_value x9
                  refine Kept.next ?_
                  refine Kept.trans ?_ (State.takePackets_kept ..)
                  exact h5

/-- What State.trainingFailed keeps. -/
theorem State.trainingFailed_kept : ∀ s v1, Kept s (State.trainingFailed s v1) := by
  intro s v1
  unfold State.trainingFailed
  have h1 := Kept.refl s
  extract_lets +onlyGivenNames -underBinder -merge x1
  try clear_value x1
  extract_lets +onlyGivenNames -underBinder -merge x2
  have h2 : Kept s x2 := by
    dsimp -zeta only [x2]
    refine Kept.trans ?_ (State.modPort_kept ..)
    exact h1
  try clear_value x2
  refine Kept.ifs (fun _ => ?_) (fun _ => ?_)
  · refine Kept.trans ?_ (State.rewalk_kept ..)
    refine Kept.trans ?_ (State.reroute_kept ..)
    refine Kept.trans ?_ (State.portEvent_kept ..)
    refine Kept.trans ?_ (State.violation_kept ..)
    exact h2
  · exact h2

/-- What execPortTraining keeps. -/
theorem execPortTraining_kept : ∀ v0 v1 v2 v3 v4 s, Kept s (outOr s ((execPortTraining v0 v1 v2 v3 v4 s))) := by
  intro v0 v1 v2 v3 v4 s
  unfold execPortTraining
  have h1 := Kept.refl s
  extract_lets +onlyGivenNames -underBinder -merge x1
  try clear_value x1
  refine Kept.ite (outOr s) (fun _ => ?_) (fun _ => ?_)
  · refine Kept.next ?_
    exact h1
  · refine Kept.ite (outOr s) (fun _ => ?_) (fun _ => ?_)
    · refine Kept.next ?_
      refine Kept.trans ?_ (State.portEvent_kept ..)
      refine Kept.trans ?_ (State.violation_kept ..)
      refine Kept.trans ?_ (State.modPort_kept ..)
      exact h1
    · refine Kept.ite (outOr s) (fun _ => ?_) (fun _ => ?_)
      · refine Kept.next ?_
        refine Kept.trans ?_ (State.portEvent_kept ..)
        refine Kept.trans ?_ (State.violation_kept ..)
        refine Kept.trans ?_ (State.modPort_kept ..)
        exact h1
      · refine Kept.ite (outOr s) (fun _ => ?_) (fun _ => ?_)
        · refine Kept.next ?_
          refine Kept.trans ?_ (State.trainingFailed_kept ..)
          exact h1
        · extract_lets +onlyGivenNames -underBinder -merge x2
          try clear_value x2
          refine Kept.ite (outOr s) (fun _ => ?_) (fun _ => ?_)
          · refine Kept.next ?_
            refine Kept.trans ?_ (State.modPort_kept ..)
            exact h1
          · refine Kept.next ?_
            refine Kept.trans ?_ (State.rewalk_kept ..)
            refine Kept.trans ?_ (State.modPort_kept ..)
            exact h1

/-- What execPortTrainingFailure keeps. -/
theorem execPortTrainingFailure_kept : ∀ v0 s, Kept s (outOr s ((execPortTrainingFailure v0 s))) := by
  intro v0 s
  unfold execPortTrainingFailure
  have h1 := Kept.refl s
  refine Kept.ite (outOr s) (fun _ => ?_) (fun _ => ?_)
  · refine Kept.next ?_
    refine Kept.trans ?_ (State.trainingFailed_kept ..)
    exact h1
  · refine Kept.next ?_
    exact h1

/-- What execFabricPortLinkLoss keeps. -/
theorem execFabricPortLinkLoss_kept : ∀ v0 s, Kept s (outOr s ((execFabricPortLinkLoss v0 s))) := by
  intro v0 s
  unfold execFabricPortLinkLoss
  have h1 := Kept.refl s
  refine Kept.ite (outOr s) (fun _ => ?_) (fun _ => ?_)
  · refine Kept.next ?_
    refine Kept.trans ?_ (State.rewalk_kept ..)
    refine Kept.trans ?_ (State.reroute_kept ..)
    refine Kept.trans ?_ (State.modPort_kept ..)
    exact h1
  · refine Kept.next ?_
    exact h1

/-- What State.takeRx keeps. -/
theorem State.takeRx_kept : ∀ s v1, Kept s (State.takeRx s v1) := by
  intro s v1
  unfold State.takeRx
  have h1 := Kept.refl s
  split
  · refine Kept.trans ?_ (State.modPort_kept ..)
    exact h1
  · exact h1

/-- What execRemoteRead keeps. -/
theorem execRemoteRead_kept : ∀ v0 v1 s, Kept s (outOr s ((execRemoteRead v0 v1 s))) := by
  intro v0 v1 s
  unfold execRemoteRead
  have h1 := Kept.refl s
  extract_lets +onlyGivenNames -underBinder -merge x1
  try clear_value x1
  extract_lets +onlyGivenNames -underBinder -merge x2
  have h2 : Kept s x2 := by
    dsimp -zeta only [x2]
    refine Kept.trans ?_ (State.takeRx_kept ..)
    exact h1
  try clear_value x2
  refine Kept.ite (outOr s) (fun _ => ?_) (fun _ => ?_)
  · refine Kept.next ?_
    exact h2
  · split
    · rename_i a1 a2 q1
      have h3 : Kept s a2 := by
        have e := congrArg Prod.snd q1
        dsimp only at e
        rw [← e]
        refine Kept.trans ?_ (State.readMem_kept ..)
        exact h2
      refine Kept.next ?_
      refine Kept.trans ?_ (State.answer_kept ..)
      exact h3
    · rename_i a3 a4 q2
      have h4 : Kept s a4 := by
        have e := congrArg Prod.snd q2
        dsimp only at e
        rw [← e]
        refine Kept.trans ?_ (State.readMem_kept ..)
        exact h2
      refine Kept.next ?_
      refine Kept.trans ?_ (State.negative_kept ..)
      exact h4

/-- What State.remoteAnswer keeps. -/
theorem State.remoteAnswer_kept : ∀ s d op k data, Kept s (State.remoteAnswer s d op k data) := by
  intro s d op k data
  unfold State.remoteAnswer
  extract_lets +onlyGivenNames p u e
  have hu : Kept s u := State.takeRx_kept ..
  clear_value u
  exact Kept.ifs (fun _ => hu.trans (State.modDie_kept ..))
    (fun _ => hu.trans (Kept.getD (State.violation_kept ..) (fun v hv => State.orphanDone_kept _ _ _ _ hv)))

/-- What execReadData keeps. -/
theorem execReadData_kept : ∀ v0 v1 s, Kept s (outOr s ((execReadData v0 v1 s))) := by
  intro v0 v1 s
  unfold execReadData
  have h1 := Kept.refl s
  refine Kept.ite (outOr s) (fun _ => ?_) (fun _ => ?_)
  · refine Kept.next ?_
    refine Kept.trans ?_ (State.remoteAnswer_kept ..)
    exact h1
  · refine Kept.next ?_
    exact h1

/-- What execRemoteWrite keeps. -/
theorem execRemoteWrite_kept : ∀ v0 v1 s, Kept s (outOr s ((execRemoteWrite v0 v1 s))) := by
  intro v0 v1 s
  unfold execRemoteWrite
  have h1 := Kept.refl s
  extract_lets +onlyGivenNames -underBinder -merge x1
  try clear_value x1
  extract_lets +onlyGivenNames -underBinder -merge x2
  have h2 : Kept s x2 := by
    dsimp -zeta only [x2]
    refine Kept.trans ?_ (State.takeRx_kept ..)
    exact h1
  try clear_value x2
  refine Kept.ite (outOr s) (fun _ => ?_) (fun _ => ?_)
  · refine Kept.next ?_
    exact h2
  · split
    · rename_i a1 q1
      have h3 : Kept s a1 := by
        have e := congrArg Prod.snd q1
        dsimp only at e
        rw [← e]
        refine Kept.trans ?_ (State.writeMem_kept ..)
        exact h2
      refine Kept.next ?_
      refine Kept.trans ?_ (State.answer_kept ..)
      exact h3
    · rename_i a2 a3 q2
      have h4 : Kept s a3 := by
        have e := congrArg Prod.snd q2
        dsimp only at e
        rw [← e]
        refine Kept.trans ?_ (State.writeMem_kept ..)
        exact h2
      refine Kept.next ?_
      refine Kept.trans ?_ (State.negative_kept ..)
      exact h4

/-- What execWriteAcknowledgement keeps. -/
theorem execWriteAcknowledgement_kept : ∀ v0 v1 s, Kept s (outOr s ((execWriteAcknowledgement v0 v1 s))) := by
  intro v0 v1 s
  unfold execWriteAcknowledgement
  have h1 := Kept.refl s
  refine Kept.ite (outOr s) (fun _ => ?_) (fun _ => ?_)
  · refine Kept.next ?_
    refine Kept.trans ?_ (State.remoteAnswer_kept ..)
    exact h1
  · refine Kept.next ?_
    exact h1

/-- What execSemaphoreSignal keeps. -/
theorem execSemaphoreSignal_kept : ∀ v0 v1 s, Kept s (outOr s ((execSemaphoreSignal v0 v1 s))) := by
  intro v0 v1 s
  unfold execSemaphoreSignal
  have h1 := Kept.refl s
  extract_lets +onlyGivenNames -underBinder -merge x1
  have h2 : Kept s x1 := by
    dsimp -zeta only [x1]
    refine Kept.trans ?_ (State.takeRx_kept ..)
    exact h1
  try clear_value x1
  refine Kept.ite (outOr s) (fun _ => ?_) (fun _ => ?_)
  · refine Kept.next ?_
    exact h2
  · refine Kept.next ?_
    refine Kept.trans ?_ (State.answer_kept ..)
    refine Kept.trans ?_ (State.semUpdate_kept ..)
    exact h2

/-- What State.signalDone keeps. -/
theorem State.signalDone_kept : ∀ s v1 v2 v3 v4, Kept s (State.signalDone s v1 v2 v3 v4) := by
  intro s v1 v2 v3 v4
  unfold State.signalDone
  have h1 := Kept.refl s
  extract_lets +onlyGivenNames -underBinder -merge x1
  have h2 : Kept s x1 := by
    dsimp -zeta only [x1]
    refine Kept.trans ?_ (State.modDie_kept ..)
    exact h1
  try clear_value x1
  split
  · refine Kept.trans ?_ (State.finish_kept ..)
    exact h2
  · exact h2

/-- What execSignalAcknowledgement keeps. -/
theorem execSignalAcknowledgement_kept : ∀ v0 v1 s, Kept s (outOr s ((execSignalAcknowledgement v0 v1 s))) := by
  intro v0 v1 s
  unfold execSignalAcknowledgement
  have h1 := Kept.refl s
  extract_lets +onlyGivenNames -underBinder -merge x1
  try clear_value x1
  extract_lets +onlyGivenNames -underBinder -merge x2
  have h2 : Kept s x2 := by
    dsimp -zeta only [x2]
    refine Kept.trans ?_ (State.takeRx_kept ..)
    exact h1
  try clear_value x2
  refine Kept.ite (outOr s) (fun _ => ?_) (fun _ => ?_)
  · refine Kept.next ?_
    exact h2
  · split
    · refine Kept.next ?_
      refine Kept.trans ?_ (State.signalDone_kept ..)
      exact h2
    · refine Kept.next ?_
      refine Kept.trans ?_ (State.violation_kept ..)
      exact h2

/-! ## Discovery -/

/-- What State.passOn keeps. -/
theorem State.passOn_kept : ∀ s v1 v2 v3, Kept s (State.passOn s v1 v2 v3) := by
  intro s v1 v2 v3
  unfold State.passOn
  have h1 := Kept.refl s
  extract_lets +onlyGivenNames -underBinder -merge x1
  try clear_value x1
  extract_lets +onlyGivenNames -underBinder -merge x2
  try clear_value x2
  extract_lets +onlyGivenNames -underBinder -merge x3
  try clear_value x3
  extract_lets +onlyGivenNames -underBinder -merge x4
  try clear_value x4
  refine Kept.ifs (fun _ => ?_) (fun _ => ?_)
  · exact h1
  · refine Kept.trans ?_ (State.sendPort_kept ..)
    exact h1

/-- What execProbe keeps. -/
theorem execProbe_kept : ∀ v0 v1 s, Kept s (outOr s ((execProbe v0 v1 s))) := by
  intro v0 v1 s
  unfold execProbe
  have h1 := Kept.refl s
  extract_lets +onlyGivenNames -underBinder -merge x1
  have h2 : Kept s x1 := by
    dsimp -zeta only [x1]
    refine Kept.trans ?_ (State.takeRx_kept ..)
    exact h1
  try clear_value x1
  refine Kept.ite (outOr s) (fun _ => ?_) (fun _ => ?_)
  · refine Kept.next ?_
    exact h2
  · refine Kept.ite (outOr s) (fun _ => ?_) (fun _ => ?_)
    · refine Kept.next ?_
      refine Kept.trans ?_ (State.passOn_kept ..)
      exact h2
    · extract_lets +onlyGivenNames -underBinder -merge x2
      try clear_value x2
      refine Kept.next ?_
      refine Kept.trans ?_ (State.sendPort_kept ..)
      exact h2

/-- What execTopologyWalk keeps. -/
theorem execTopologyWalk_kept : ∀ v0 s, Kept s (outOr s ((execTopologyWalk v0 s))) := by
  intro v0 s
  unfold execTopologyWalk
  have h1 := Kept.refl s
  refine Kept.next ?_
  refine Kept.trans ?_ (State.walkStart_kept ..)
  exact Kept.of (t := s) rfl rfl rfl rfl rfl h1

/-- What execProbeReply keeps. -/
theorem execProbeReply_kept : ∀ v0 v1 s, Kept s (outOr s ((execProbeReply v0 v1 s))) := by
  intro v0 v1 s
  unfold execProbeReply
  have h1 := Kept.refl s
  extract_lets +onlyGivenNames -underBinder -merge x1
  have h2 : Kept s x1 := by
    dsimp -zeta only [x1]
    refine Kept.trans ?_ (State.takeRx_kept ..)
    exact h1
  try clear_value x1
  refine Kept.ite (outOr s) (fun _ => ?_) (fun _ => ?_)
  · refine Kept.next ?_
    exact h2
  · refine Kept.ite (outOr s) (fun _ => ?_) (fun _ => ?_)
    · refine Kept.next ?_
      refine Kept.trans ?_ (State.passOn_kept ..)
      exact h2
    · split
      · refine Kept.next ?_
        refine Kept.trans ?_ (State.violation_kept ..)
        exact h2
      · extract_lets +onlyGivenNames -underBinder -merge x2
        try clear_value x2
        extract_lets +onlyGivenNames -underBinder -merge x3
        try clear_value x3
        extract_lets +onlyGivenNames -underBinder -merge x4
        try clear_value x4
        extract_lets +onlyGivenNames -underBinder -merge x5
        try clear_value x5
        extract_lets +onlyGivenNames -underBinder -merge x6
        try clear_value x6
        extract_lets +onlyGivenNames -underBinder -merge x7 x8
        have h3 : Kept s x8 := by
          dsimp -zeta only [x8]
          exact Kept.of (t := x1) rfl rfl rfl rfl rfl h2
        try clear_value x7 x8
        refine Kept.next ?_
        refine Kept.trans ?_ (State.walkCheck_kept ..)
        refine Kept.ifs (fun _ => ?_) (fun _ => ?_)
        · refine Kept.trans ?_ (State.probeBeyond_kept ..)
          exact h3
        · exact h3

/-- What execConfig keeps. -/
theorem execConfig_kept : ∀ v0 v1 s, Kept s (outOr s ((execConfig v0 v1 s))) := by
  intro v0 v1 s
  unfold execConfig
  have h1 := Kept.refl s
  extract_lets +onlyGivenNames -underBinder -merge x1
  have h2 : Kept s x1 := by
    dsimp -zeta only [x1]
    refine Kept.trans ?_ (State.takeRx_kept ..)
    exact h1
  try clear_value x1
  refine Kept.ite (outOr s) (fun _ => ?_) (fun _ => ?_)
  · refine Kept.next ?_
    exact h2
  · refine Kept.ite (outOr s) (fun _ => ?_) (fun _ => ?_)
    · refine Kept.next ?_
      refine Kept.trans ?_ (State.passOn_kept ..)
      exact h2
    · refine Kept.ite (outOr s) (fun _ => ?_) (fun _ => ?_)
      · refine Kept.next ?_
        refine Kept.trans ?_ (State.violation_kept ..)
        exact h2
      · refine Kept.next ?_
        refine Kept.trans ?_ (State.configure_kept ..)
        exact h2

/-- What execManagementMessage keeps. -/
theorem execManagementMessage_kept : ∀ v0 s, Kept s (outOr s ((execManagementMessage v0 s))) := by
  intro v0 s
  unfold execManagementMessage
  have h1 := Kept.refl s
  extract_lets +onlyGivenNames -underBinder -merge x1
  have h2 : Kept s x1 := by
    dsimp -zeta only [x1]
    refine Kept.trans ?_ (State.takeRx_kept ..)
    exact h1
  try clear_value x1
  refine Kept.ite (outOr s) (fun _ => ?_) (fun _ => ?_)
  · refine Kept.next ?_
    exact Kept.of (t := x1) rfl rfl rfl rfl rfl h2
  · refine Kept.next ?_
    exact h2

/-- What State.timeEvent keeps. -/
theorem State.timeEvent_kept : ∀ s, Kept s (State.timeEvent s) := by
  intro s
  unfold State.timeEvent
  have h1 := Kept.refl s
  refine Kept.trans ?_ (State.hdEvent_kept ..)
  exact h1

/-- What execTimeFlit keeps. -/
theorem execTimeFlit_kept : ∀ v0 v1 v2 s, Kept s (outOr s ((execTimeFlit v0 v1 v2 s))) := by
  intro v0 v1 v2 s
  unfold execTimeFlit
  have h1 := Kept.refl s
  refine Kept.next ?_
  refine Kept.ifs (fun _ => ?_) (fun _ => ?_)
  · refine Kept.trans ?_ (State.timeArrives_kept ..)
    exact h1
  · exact h1

/-- What execTimeFlitSend keeps. -/
theorem execTimeFlitSend_kept : ∀ v0 s, Kept s (outOr s ((execTimeFlitSend v0 s))) := by
  intro v0 s
  unfold execTimeFlitSend
  have h1 := Kept.refl s
  refine Kept.ite (outOr s) (fun _ => ?_) (fun _ => ?_)
  · refine Kept.next ?_
    exact h1
  · refine Kept.next ?_
    refine Kept.trans ?_ (State.modPort_kept ..)
    exact h1

/-- What execUpstreamPortDown keeps. -/
theorem execUpstreamPortDown_kept : ∀ s, Kept s (outOr s ((execUpstreamPortDown s))) := by
  intro s
  unfold execUpstreamPortDown
  have h1 := Kept.refl s
  split
  · refine Kept.next ?_
    exact h1
  · extract_lets +onlyGivenNames -underBinder -merge x1
    have h2 : Kept s x1 := by
      dsimp -zeta only [x1]
      refine Kept.trans ?_ (State.modPort_kept ..)
      exact h1
    try clear_value x1
    split
    · refine Kept.ite (outOr s) (fun _ => ?_) (fun _ => ?_)
      · refine Kept.next ?_
        refine Kept.trans ?_ (State.modPort_kept ..)
        exact Kept.of (t := x1) rfl rfl rfl rfl rfl h2
      · refine Kept.next ?_
        refine Kept.trans ?_ (State.timeEvent_kept ..)
        exact Kept.of (t := x1) rfl rfl rfl rfl rfl h2
    · refine Kept.next ?_
      refine Kept.trans ?_ (State.timeEvent_kept ..)
      exact Kept.of (t := x1) rfl rfl rfl rfl rfl h2

/-- What State.jobLost keeps. -/
theorem State.jobLost_kept : ∀ s, Kept s (State.jobLost s) := by
  intro s
  unfold State.jobLost
  have h1 := Kept.refl s
  split
  · refine Kept.ifs (fun _ => ?_) (fun _ => ?_)
    · refine Kept.trans ?_ (State.jobStop_kept ..)
      exact h1
    · exact h1
  · exact h1

/-- What execHoldoverExpiry keeps. -/
theorem execHoldoverExpiry_kept : ∀ s, Kept s (outOr s ((execHoldoverExpiry s))) := by
  intro s
  unfold execHoldoverExpiry
  have h1 := Kept.refl s
  refine Kept.ite (outOr s) (fun _ => ?_) (fun _ => ?_)
  · refine Kept.next ?_
    exact h1
  · refine Kept.next ?_
    refine Kept.trans ?_ (State.jobLost_kept ..)
    refine Kept.trans ?_ (State.timeEvent_kept ..)
    exact Kept.of (t := s) rfl rfl rfl rfl rfl h1

/-! ## Beacon -/

/-- What State.beaconSend keeps. -/
theorem State.beaconSend_kept : ∀ s v1 v2 v3 v4, Kept s (State.beaconSend s v1 v2 v3 v4) := by
  intro s v1 v2 v3 v4
  unfold State.beaconSend
  have h1 := Kept.refl s
  extract_lets +onlyGivenNames -underBinder -merge x1
  try clear_value x1
  refine Kept.trans ?_ (State.send_kept ..)
  exact h1

/-- What State.beaconDown keeps. -/
theorem State.beaconDown_kept : ∀ s v1 v2 v3, Kept s (State.beaconDown s v1 v2 v3) := by
  intro s v1 v2 v3
  unfold State.beaconDown
  have h1 := Kept.refl s
  refine Kept.folds _ (fun t1 x1 h2 => ?_) ?_
  · try dsimp -zeta only
    refine Kept.trans ?_ (State.beaconSend_kept ..)
    exact h2
  · try dsimp -zeta only
    exact h1

/-- What State.modBeacon keeps. -/
theorem State.modBeacon_kept : ∀ s v1, Kept s (State.modBeacon s v1) := by
  intro s v1
  unfold State.modBeacon
  have h2272 := Kept.refl s
  exact Kept.of (t := s) rfl rfl rfl rfl rfl h2272

/-- What State.takeBeacon keeps. -/
theorem State.takeBeacon_kept : ∀ s v1 v2, Kept s (State.takeBeacon s v1 v2) := by
  intro s v1 v2
  unfold State.takeBeacon
  have h1 := Kept.refl s
  split
  · refine Kept.trans ?_ (State.takeRx_kept ..)
    exact h1
  · exact h1

/-- What State.beaconEvent keeps. -/
theorem State.beaconEvent_kept : ∀ s v1 v2, Kept s (State.beaconEvent s v1 v2) := by
  intro s v1 v2
  unfold State.beaconEvent
  have h1 := Kept.refl s
  refine Kept.trans ?_ (State.hdEvent_kept ..)
  exact h1

/-- What State.beaconAnswer keeps. -/
theorem State.beaconAnswer_kept : ∀ s v1 v2 v3, Kept s (State.beaconAnswer s v1 v2 v3) := by
  intro s v1 v2 v3
  unfold State.beaconAnswer
  have h1 := Kept.refl s
  split
  · exact h1
  · extract_lets +onlyGivenNames -underBinder -merge x1
    try clear_value x1
    extract_lets +onlyGivenNames -underBinder -merge x2 x3
    have h2 : Kept s x3 := by
      dsimp -zeta only [x3]
      refine Kept.ifs (fun _ => ?_) (fun _ => ?_)
      · refine Kept.ifs (fun _ => ?_) (fun _ => ?_)
        · refine Kept.trans ?_ (State.modJob_kept ..)
          refine Kept.trans ?_ (State.respond_kept ..)
          exact h1
        · exact h1
      · refine Kept.trans ?_ (State.respond_kept ..)
        exact h1
    try clear_value x2 x3
    refine Kept.trans ?_ (State.modBeacon_kept ..)
    exact h2

/-- What State.beaconDecide keeps. -/
theorem State.beaconDecide_kept : ∀ s v1 v2, Kept s (State.beaconDecide s v1 v2) := by
  intro s v1 v2
  unfold State.beaconDecide
  have h1 := Kept.refl s
  split
  · exact h1
  · extract_lets +onlyGivenNames -underBinder -merge x1
    try clear_value x1
    refine Kept.ifs (fun _ => ?_) (fun _ => ?_)
    · refine Kept.trans ?_ (State.beaconAnswer_kept ..)
      refine Kept.trans ?_ (State.modBeacon_kept ..)
      refine Kept.trans ?_ (State.beaconDown_kept ..)
      exact h1
    · refine Kept.trans ?_ (State.beaconEvent_kept ..)
      refine Kept.trans ?_ (State.modBeacon_kept ..)
      refine Kept.trans ?_ (State.beaconAnswer_kept ..)
      refine Kept.trans ?_ (State.beaconDown_kept ..)
      exact h1

/-- What State.beaconStep keeps. -/
theorem State.beaconStep_kept : ∀ s v1, Kept s (State.beaconStep s v1) := by
  intro s v1
  unfold State.beaconStep
  have h1 := Kept.refl s
  extract_lets +onlyGivenNames -underBinder -merge x1
  try clear_value x1
  split
  · exact h1
  · refine Kept.ifs (fun _ => ?_) (fun _ => ?_)
    · exact h1
    · split
      · refine Kept.ifs (fun _ => ?_) (fun _ => ?_)
        · refine Kept.ifs (fun _ => ?_) (fun _ => ?_)
          · refine Kept.trans ?_ (State.beaconDecide_kept ..)
            exact h1
          · exact h1
        · refine Kept.trans ?_ (State.modBeacon_kept ..)
          refine Kept.trans ?_ (State.beaconSend_kept ..)
          exact h1

/-- What State.armTake keeps. -/
theorem State.armTake_kept : ∀ s v1 v2 v3 v4, Kept s (State.armTake s v1 v2 v3 v4) := by
  intro s v1 v2 v3 v4
  unfold State.armTake
  have h1 := Kept.refl s
  extract_lets +onlyGivenNames -underBinder -merge x1
  have h2 : Kept s x1 := by
    dsimp -zeta only [x1]
    refine Kept.trans ?_ (State.beaconDown_kept ..)
    exact h1
  try clear_value x1
  extract_lets +onlyGivenNames -underBinder -merge x2
  try clear_value x2
  refine Kept.trans ?_ (State.beaconStep_kept ..)
  refine Kept.trans ?_ (State.modBeacon_kept ..)
  exact h2

/-- What State.beaconStart keeps. -/
theorem State.beaconStart_kept : ∀ s v1 v2 v3, Kept s (State.beaconStart s v1 v2 v3) := by
  intro s v1 v2 v3
  unfold State.beaconStart
  have h1 := Kept.refl s
  split
  · exact h1
  · extract_lets +onlyGivenNames -underBinder -merge x1
    try clear_value x1
    refine Kept.trans ?_ (State.armTake_kept ..)
    exact h1

/-- What execBeaconArm keeps. -/
theorem execBeaconArm_kept : ∀ v0 s, Kept s (outOr s ((execBeaconArm v0 s))) := by
  intro v0 s
  unfold execBeaconArm
  have h1 := Kept.refl s
  extract_lets +onlyGivenNames -underBinder -merge x1
  have h2 : Kept s x1 := by
    dsimp -zeta only [x1]
    refine Kept.trans ?_ (State.takeBeacon_kept ..)
    exact h1
  try clear_value x1
  split
  · refine Kept.next ?_
    refine Kept.trans ?_ (State.logNote_kept ..)
    exact h2
  · refine Kept.ite (outOr s) (fun _ => ?_) (fun _ => ?_)
    · refine Kept.next ?_
      exact h2
    · refine Kept.next ?_
      refine Kept.trans ?_ (State.armTake_kept ..)
      exact h2

/-- What execBeaconAck keeps. -/
theorem execBeaconAck_kept : ∀ v0 s, Kept s (outOr s ((execBeaconAck v0 s))) := by
  intro v0 s
  unfold execBeaconAck
  have h1 := Kept.refl s
  extract_lets +onlyGivenNames -underBinder -merge x1
  have h2 : Kept s x1 := by
    dsimp -zeta only [x1]
    refine Kept.trans ?_ (State.takeBeacon_kept ..)
    exact h1
  try clear_value x1
  split
  · refine Kept.ite (outOr s) (fun _ => ?_) (fun _ => ?_)
    · refine Kept.next ?_
      refine Kept.trans ?_ (State.beaconStep_kept ..)
      refine Kept.trans ?_ (State.modBeacon_kept ..)
      exact h2
    · refine Kept.next ?_
      exact h2
  · refine Kept.next ?_
    exact h2

/-- What execLight keeps. -/
theorem execLight_kept : ∀ v0 s, Kept s (outOr s ((execLight v0 s))) := by
  intro v0 s
  unfold execLight
  have h1 := Kept.refl s
  extract_lets +onlyGivenNames -underBinder -merge x1
  have h2 : Kept s x1 := by
    dsimp -zeta only [x1]
    refine Kept.trans ?_ (State.takeBeacon_kept ..)
    exact h1
  try clear_value x1
  split
  · refine Kept.ite (outOr s) (fun _ => ?_) (fun _ => ?_)
    · refine Kept.next ?_
      refine Kept.trans ?_ (State.modBeacon_kept ..)
      refine Kept.trans ?_ (State.beaconDown_kept ..)
      exact h2
    · refine Kept.next ?_
      exact h2
  · refine Kept.next ?_
    exact h2

/-- What execSnuff keeps. -/
theorem execSnuff_kept : ∀ v0 s, Kept s (outOr s ((execSnuff v0 s))) := by
  intro v0 s
  unfold execSnuff
  have h1 := Kept.refl s
  extract_lets +onlyGivenNames -underBinder -merge x1
  have h2 : Kept s x1 := by
    dsimp -zeta only [x1]
    refine Kept.trans ?_ (State.takeBeacon_kept ..)
    exact h1
  try clear_value x1
  split
  · refine Kept.next ?_
    exact h2
  · split
    · refine Kept.ite (outOr s) (fun _ => ?_) (fun _ => ?_)
      · refine Kept.next ?_
        refine Kept.trans ?_ (State.beaconEvent_kept ..)
        refine Kept.trans ?_ (State.modBeacon_kept ..)
        refine Kept.trans ?_ (State.beaconDown_kept ..)
        exact h2
      · refine Kept.next ?_
        exact h2
    · refine Kept.next ?_
      refine Kept.trans ?_ (State.logNote_kept ..)
      exact h2

/-- What execBeaconDeadline keeps. -/
theorem execBeaconDeadline_kept : ∀ s, Kept s (outOr s ((execBeaconDeadline s))) := by
  intro s
  unfold execBeaconDeadline
  have h1 := Kept.refl s
  split
  · refine Kept.ite (outOr s) (fun _ => ?_) (fun _ => ?_)
    · refine Kept.next ?_
      refine Kept.trans ?_ (State.beaconDecide_kept ..)
      exact h1
    · refine Kept.next ?_
      exact h1
  · refine Kept.next ?_
    exact h1

/-- What State.jobStart keeps. -/
theorem State.jobStart_kept : ∀ s v1, Kept s (State.jobStart s v1) := by
  intro s v1
  unfold State.jobStart
  have h1 := Kept.refl s
  extract_lets +onlyGivenNames -underBinder -merge x1
  try clear_value x1
  extract_lets +onlyGivenNames -underBinder -merge x2
  have h2 : Kept s x2 := by
    dsimp -zeta only [x2]
    refine Kept.folds _ (fun t1 x3 h3 => ?_) ?_
    · try dsimp -zeta only
      refine Kept.trans ?_ (State.modDie_kept ..)
      exact h3
    · try dsimp -zeta only
      exact h1
  try clear_value x2
  refine Kept.trans ?_ (State.jobCheck_kept ..)
  refine Kept.trans ?_ (State.jobEvent_kept ..)
  refine Kept.trans ?_ (State.modJob_kept ..)
  exact h2

/-- What execBeaconStartTime keeps. -/
theorem execBeaconStartTime_kept : ∀ s, Kept s (outOr s ((execBeaconStartTime s))) := by
  intro s
  unfold execBeaconStartTime
  have h1 := Kept.refl s
  extract_lets +onlyGivenNames -underBinder -merge x1
  try clear_value x1
  split
  · refine Kept.next ?_
    exact h1
  · extract_lets +onlyGivenNames -underBinder -merge x2
    have h2 : Kept s x2 := by
      dsimp -zeta only [x2]
      exact Kept.of (t := s) rfl rfl rfl rfl rfl h1
    try clear_value x2
    extract_lets +onlyGivenNames -underBinder -merge x3
    have h3 : Kept s x3 := by
      dsimp -zeta only [x3]
      refine Kept.trans ?_ (State.modBeacon_kept ..)
      exact h2
    try clear_value x3
    refine Kept.ite (outOr s) (fun _ => ?_) (fun _ => ?_)
    · refine Kept.next ?_
      refine Kept.trans ?_ (State.beaconEvent_kept ..)
      exact h3
    · extract_lets +onlyGivenNames -underBinder -merge x4
      have h4 : Kept s x4 := by
        dsimp -zeta only [x4]
        refine Kept.trans ?_ (State.beaconEvent_kept ..)
        exact h3
      try clear_value x4
      refine Kept.ite (outOr s) (fun _ => ?_) (fun _ => ?_)
      · refine Kept.next ?_
        refine Kept.trans ?_ (State.modJob_kept ..)
        exact h4
      · refine Kept.ite (outOr s) (fun _ => ?_) (fun _ => ?_)
        · refine Kept.next ?_
          refine Kept.trans ?_ (State.jobStart_kept ..)
          exact h4
        · refine Kept.next ?_
          exact h4

/-- What State.beaconCancel keeps. -/
theorem State.beaconCancel_kept : ∀ s v1, Kept s (State.beaconCancel s v1) := by
  intro s v1
  unfold State.beaconCancel
  have h1 := Kept.refl s
  split
  · exact h1
  · split
    · extract_lets +onlyGivenNames -underBinder -merge x1
      have h2 : Kept s x1 := by
        dsimp -zeta only [x1]
        refine Kept.trans ?_ (State.modBeacon_kept ..)
        exact h1
      try clear_value x1
      extract_lets +onlyGivenNames -underBinder -merge x2
      try clear_value x2
      refine Kept.trans ?_ (State.beaconDecide_kept ..)
      refine Kept.trans ?_ (State.respond_kept ..)
      exact h2
    · refine Kept.trans ?_ (State.modBeacon_kept ..)
      exact h1

/-! ## CollRows -/

/-- What State.noCredit keeps. -/
theorem State.noCredit_kept : ∀ s v1 v2, Kept s (State.noCredit s v1 v2) := by
  intro s v1 v2
  unfold State.noCredit
  have h1 := Kept.refl s
  refine Kept.trans ?_ (State.retrain_kept ..)
  refine Kept.trans ?_ (State.violation_kept ..)
  exact h1

/-- What State.peerHeard keeps. -/
theorem State.peerHeard_kept : ∀ s v1 v2 v3, Kept s (State.peerHeard s v1 v2 v3) := by
  intro s v1 v2 v3
  unfold State.peerHeard
  have h1 := Kept.refl s
  refine Kept.ifs (fun _ => ?_) (fun _ => ?_)
  · refine Kept.trans ?_ (State.modCe_kept ..)
    exact h1
  · exact h1

/-- What execCollectiveData keeps. -/
theorem execCollectiveData_kept : ∀ v0 v1 v2 s, Kept s (outOr s ((execCollectiveData v0 v1 v2 s))) := by
  intro v0 v1 v2 s
  unfold execCollectiveData
  have h1 := Kept.refl s
  extract_lets +onlyGivenNames -underBinder -merge x1
  try clear_value x1
  extract_lets +onlyGivenNames -underBinder -merge x2
  have h2 : Kept s x2 := by
    dsimp -zeta only [x2]
    refine Kept.trans ?_ (State.takeRx_kept ..)
    exact h1
  try clear_value x2
  refine Kept.ite (outOr s) (fun _ => ?_) (fun _ => ?_)
  · refine Kept.next ?_
    exact h2
  · split
    · refine Kept.next ?_
      refine Kept.trans ?_ (State.noCredit_kept ..)
      exact h2
    · extract_lets +onlyGivenNames -underBinder -merge x3
      try clear_value x3
      extract_lets +onlyGivenNames -underBinder -merge x4
      try clear_value x4
      refine Kept.ite (outOr s) (fun _ => ?_) (fun _ => ?_)
      · refine Kept.next ?_
        refine Kept.trans ?_ (State.collAbort_kept ..)
        exact h2
      · extract_lets +onlyGivenNames -underBinder -merge x5
        try clear_value x5
        extract_lets +onlyGivenNames -underBinder -merge x6
        try clear_value x6
        refine Kept.ite (outOr s) (fun _ => ?_) (fun _ => ?_)
        · refine Kept.next ?_
          refine Kept.trans ?_ (State.noCredit_kept ..)
          exact h2
        · extract_lets +onlyGivenNames -underBinder -merge x7
          have h3 : Kept s x7 := by
            dsimp -zeta only [x7]
            refine Kept.trans ?_ (State.modStep_kept ..)
            exact h2
          try clear_value x7
          refine Kept.next ?_
          refine Kept.trans ?_ (State.collGo_kept ..)
          refine Kept.trans ?_ (State.peerHeard_kept ..)
          exact h3

/-- What execCollectiveCredit keeps. -/
theorem execCollectiveCredit_kept : ∀ v0 v1 v2 s, Kept s (outOr s ((execCollectiveCredit v0 v1 v2 s))) := by
  intro v0 v1 v2 s
  unfold execCollectiveCredit
  have h1 := Kept.refl s
  extract_lets +onlyGivenNames -underBinder -merge x1
  have h2 : Kept s x1 := by
    dsimp -zeta only [x1]
    refine Kept.trans ?_ (State.takeRx_kept ..)
    exact h1
  try clear_value x1
  refine Kept.ite (outOr s) (fun _ => ?_) (fun _ => ?_)
  · refine Kept.next ?_
    exact h2
  · refine Kept.next ?_
    refine Kept.trans ?_ (State.collGo_kept ..)
    refine Kept.trans ?_ (State.peerHeard_kept ..)
    refine Kept.trans ?_ (State.creditIn_kept ..)
    exact h2

/-- What execCollectiveProbe keeps. -/
theorem execCollectiveProbe_kept : ∀ v0 v1 v2 s, Kept s (outOr s ((execCollectiveProbe v0 v1 v2 s))) := by
  intro v0 v1 v2 s
  unfold execCollectiveProbe
  have h1 := Kept.refl s
  extract_lets +onlyGivenNames -underBinder -merge x1
  have h2 : Kept s x1 := by
    dsimp -zeta only [x1]
    refine Kept.trans ?_ (State.takeRx_kept ..)
    exact h1
  try clear_value x1
  refine Kept.ite (outOr s) (fun _ => ?_) (fun _ => ?_)
  · refine Kept.next ?_
    exact h2
  · extract_lets +onlyGivenNames -underBinder -merge x2
    try clear_value x2
    split
    · extract_lets +onlyGivenNames -underBinder -merge x3
      try clear_value x3
      extract_lets +onlyGivenNames -underBinder -merge x4
      try clear_value x4
      extract_lets +onlyGivenNames -underBinder -merge x5
      try clear_value x5
      extract_lets +onlyGivenNames -underBinder -merge x6
      try clear_value x6
      extract_lets +onlyGivenNames -underBinder -merge x7
      have h3 : Kept s x7 := by
        dsimp -zeta only [x7]
        refine Kept.trans ?_ (State.send_kept ..)
        exact h2
      try clear_value x7
      split
      · refine Kept.next ?_
        exact h3
      · refine Kept.ite (outOr s) (fun _ => ?_) (fun _ => ?_)
        · refine Kept.next ?_
          refine Kept.trans ?_ (State.collAbort_kept ..)
          exact h3
        · refine Kept.ite (outOr s) (fun _ => ?_) (fun _ => ?_)
          · refine Kept.next ?_
            refine Kept.trans ?_ (State.modStep_kept ..)
            exact h3
          · refine Kept.next ?_
            exact h3

/-- What execCollectiveProbeReply keeps. -/
theorem execCollectiveProbeReply_kept : ∀ v0 v1 v2 s, Kept s (outOr s ((execCollectiveProbeReply v0 v1 v2 s))) := by
  intro v0 v1 v2 s
  unfold execCollectiveProbeReply
  have h1 := Kept.refl s
  extract_lets +onlyGivenNames -underBinder -merge x1
  try clear_value x1
  extract_lets +onlyGivenNames -underBinder -merge x2
  have h2 : Kept s x2 := by
    dsimp -zeta only [x2]
    refine Kept.trans ?_ (State.takeRx_kept ..)
    exact h1
  try clear_value x2
  refine Kept.ite (outOr s) (fun _ => ?_) (fun _ => ?_)
  · refine Kept.next ?_
    exact h2
  · split
    · refine Kept.next ?_
      refine Kept.trans ?_ (State.violation_kept ..)
      exact h2
    · extract_lets +onlyGivenNames -underBinder -merge x3
      have h3 : Kept s x3 := by
        dsimp -zeta only [x3]
        refine Kept.trans ?_ (State.modCe_kept ..)
        exact h2
      try clear_value x3
      split
      · refine Kept.next ?_
        exact h3
      · refine Kept.ite (outOr s) (fun _ => ?_) (fun _ => ?_)
        · refine Kept.next ?_
          exact h3
        · refine Kept.next ?_
          refine Kept.trans ?_ (State.collAbort_kept ..)
          exact h3

/-- What execCollectiveAbort keeps. -/
theorem execCollectiveAbort_kept : ∀ v0 v1 v2 s, Kept s (outOr s ((execCollectiveAbort v0 v1 v2 s))) := by
  intro v0 v1 v2 s
  unfold execCollectiveAbort
  have h1 := Kept.refl s
  extract_lets +onlyGivenNames -underBinder -merge x1
  have h2 : Kept s x1 := by
    dsimp -zeta only [x1]
    refine Kept.trans ?_ (State.takeRx_kept ..)
    exact h1
  try clear_value x1
  refine Kept.ite (outOr s) (fun _ => ?_) (fun _ => ?_)
  · refine Kept.next ?_
    exact h2
  · refine Kept.next ?_
    refine Kept.trans ?_ (State.abortHeard_kept ..)
    exact h2

/-- What execNegativeResponse keeps. -/
theorem execNegativeResponse_kept : ∀ d k s, Kept s (outOr s (execNegativeResponse d k s)) := by
  intro d k s
  unfold execNegativeResponse
  extract_lets +onlyGivenNames p e u st
  have hu : Kept s u := State.takeRx_kept ..
  clear_value u
  split
  · exact Kept.next hu
  · split
    · exact Kept.next ((hu.trans (State.modDie_kept ..)).trans (State.flightStatus_kept ..))
    · split
      · exact Kept.next (hu.trans (State.signalDone_kept ..))
      · split
        · exact Kept.next (hu.trans (State.collAbort_kept ..))
        · exact Kept.next (hu.trans (Kept.getD (State.violation_kept ..) (fun v hv => State.orphanDone_kept _ _ _ _ hv)))

/-- What execCePeerWaitTimeout keeps. -/
theorem execCePeerWaitTimeout_kept : ∀ v0 v1 v2 s, Kept s (outOr s ((execCePeerWaitTimeout v0 v1 v2 s))) := by
  intro v0 v1 v2 s
  unfold execCePeerWaitTimeout
  have h1 := Kept.refl s
  split
  · refine Kept.next ?_
    exact h1
  · extract_lets +onlyGivenNames -underBinder -merge x1
    try clear_value x1
    refine Kept.ite (outOr s) (fun _ => ?_) (fun _ => ?_)
    · refine Kept.next ?_
      exact h1
    · extract_lets +onlyGivenNames -underBinder -merge x2
      try clear_value x2
      extract_lets +onlyGivenNames -underBinder -merge x3
      have h2 : Kept s x3 := by
        dsimp -zeta only [x3]
        refine Kept.trans ?_ (State.modCe_kept ..)
        exact h1
      try clear_value x3
      extract_lets +onlyGivenNames -underBinder -merge x4
      have h3 : Kept s x4 := by
        dsimp -zeta only [x4]
        refine Kept.trans ?_ (State.dieEvent_kept ..)
        exact h2
      try clear_value x4
      refine Kept.ite (outOr s) (fun _ => ?_) (fun _ => ?_)
      · refine Kept.next ?_
        exact h3
      · extract_lets +onlyGivenNames -underBinder -merge x5
        try clear_value x5
        extract_lets +onlyGivenNames -underBinder -merge x6
        try clear_value x6
        extract_lets +onlyGivenNames -underBinder -merge x7
        have h4 : Kept s x7 := by
          dsimp -zeta only [x7]
          refine Kept.trans ?_ (State.send_kept ..)
          exact h3
        try clear_value x7
        refine Kept.next ?_
        refine Kept.ifs (fun _ => ?_) (fun _ => ?_)
        · refine Kept.trans ?_ (State.modStep_kept ..)
          exact h4
        · exact h4

/-- What execProbeReplyTimeout keeps. -/
theorem execProbeReplyTimeout_kept : ∀ v0 v1 v2 s, Kept s (outOr s ((execProbeReplyTimeout v0 v1 v2 s))) := by
  intro v0 v1 v2 s
  unfold execProbeReplyTimeout
  have h1 := Kept.refl s
  split
  · refine Kept.next ?_
    exact h1
  · refine Kept.ite (outOr s) (fun _ => ?_) (fun _ => ?_)
    · refine Kept.next ?_
      refine Kept.trans ?_ (State.collAbort_kept ..)
      exact h1
    · refine Kept.next ?_
      exact h1

/-- What execCollectiveStepComplete keeps. -/
theorem execCollectiveStepComplete_kept : ∀ v0 v1 s, Kept s (outOr s ((execCollectiveStepComplete v0 v1 s))) := by
  intro v0 v1 s
  unfold execCollectiveStepComplete
  have h1 := Kept.refl s
  refine Kept.next ?_
  refine Kept.trans ?_ (State.stepComplete_kept ..)
  exact h1

/-- What execCeSaturationPersist keeps. -/
theorem execCeSaturationPersist_kept : ∀ v0 v1 v2 s, Kept s (outOr s ((execCeSaturationPersist v0 v1 v2 s))) := by
  intro v0 v1 v2 s
  unfold execCeSaturationPersist
  have h1 := Kept.refl s
  refine Kept.next ?_
  refine Kept.trans ?_ (State.dieEvent_kept ..)
  refine Kept.trans ?_ (State.modCe_kept ..)
  exact h1

/-! ## HostDie -/

/-- What State.pe1Refuse keeps. -/
theorem State.pe1Refuse_kept : ∀ s v1 v2 v3, Kept s (State.pe1Refuse s v1 v2 v3) := by
  intro s v1 v2 v3
  unfold State.pe1Refuse
  have h1 := Kept.refl s
  extract_lets +onlyGivenNames -underBinder -merge x1
  have h2 : Kept s x1 := by
    dsimp -zeta only [x1]
    refine Kept.trans ?_ (State.logAccess_kept ..)
    exact h1
  try clear_value x1
  split
  · refine Kept.trans ?_ (State.reply_kept ..)
    exact h2
  · refine Kept.trans ?_ (State.reply_kept ..)
    exact h2

/-- What execPe1MsiWrite keeps. -/
theorem execPe1MsiWrite_kept : ∀ v0 v1 v2 s, Kept s (outOr s ((execPe1MsiWrite v0 v1 v2 s))) := by
  intro v0 v1 v2 s
  unfold execPe1MsiWrite
  have h1 := Kept.refl s
  extract_lets +onlyGivenNames -underBinder -merge x1
  try clear_value x1
  refine Kept.ite (outOr s) (fun _ => ?_) (fun _ => ?_)
  · refine Kept.next ?_
    exact h1
  · refine Kept.ite (outOr s) (fun _ => ?_) (fun _ => ?_)
    · refine Kept.next ?_
      refine Kept.trans ?_ (State.pe1Refuse_kept ..)
      exact h1
    · refine Kept.ite (outOr s) (fun _ => ?_) (fun _ => ?_)
      · refine Kept.next ?_
        refine Kept.trans ?_ (State.reply_kept ..)
        refine Kept.trans ?_ (State.imsicPend_kept ..)
        exact h1
      · refine Kept.next ?_
        refine Kept.trans ?_ (State.reply_kept ..)
        exact h1

/-- What State.bar2Read keeps. -/
theorem State.bar2Read_kept : ∀ acc f s a n l, Kept s (State.bar2Read acc f s a n l).2 := by
  intro acc f
  induction f with
  | zero => intro s _ _ _; exact .refl s
  | succ f ih =>
    intro s a n l
    unfold State.bar2Read
    refine Kept.ite Prod.snd (fun _ => .refl s) (fun _ => ?_)
    extract_lets k
    split
    · exact ih _ _ _ _
    · have h := State.readMem_kept s acc (a / 128 * 128) 128
      split
      · rename_i e u q
        rw [q] at h
        exact h
      · rename_i x u q
        rw [q] at h
        refine Kept.trans ?_ (ih _ _ _ _)
        exact Kept.of (t := u) rfl rfl rfl rfl rfl h

/-- What execBar2Access keeps. -/
theorem execBar2Access_kept : ∀ v0 v1 s, Kept s (outOr s ((execBar2Access v0 v1 s))) := by
  intro v0 v1 s
  unfold execBar2Access
  have h1 := Kept.refl s
  extract_lets +onlyGivenNames -underBinder -merge x1
  try clear_value x1
  refine Kept.ite (outOr s) (fun _ => ?_) (fun _ => ?_)
  · refine Kept.next ?_
    exact h1
  · refine Kept.ite (outOr s) (fun _ => ?_) (fun _ => ?_)
    · split
      · refine Kept.next ?_
        refine Kept.trans ?_ (State.reply_kept ..)
        exact h1
      · refine Kept.next ?_
        refine Kept.trans ?_ (State.reply_kept ..)
        exact Kept.of (t := s) rfl rfl rfl rfl rfl h1
    · refine Kept.ite (outOr s) (fun _ => ?_) (fun _ => ?_)
      · split
        · refine Kept.next ?_
          refine Kept.trans ?_ (State.reply_kept ..)
          exact h1
        · refine Kept.next ?_
          refine Kept.trans ?_ (State.reply_kept ..)
          exact h1
      · extract_lets +onlyGivenNames -underBinder -merge x2
        have h2 : Kept s x2 := by
          dsimp -zeta only [x2]
          refine Kept.trans ?_ (State.wake_kept ..)
          exact h1
        try clear_value x2
        split
        · split
          · rename_i a1 a2 q1
            have h3 : Kept s a2 := by
              have e := congrArg Prod.snd q1
              dsimp only at e
              rw [← e]
              refine Kept.trans ?_ (State.bar2Read_kept ..)
              exact h2
            refine Kept.next ?_
            refine Kept.trans ?_ (State.reply_kept ..)
            exact h3
          · rename_i a3 a4 q2
            have h4 : Kept s a4 := by
              have e := congrArg Prod.snd q2
              dsimp only at e
              rw [← e]
              refine Kept.trans ?_ (State.bar2Read_kept ..)
              exact h2
            refine Kept.next ?_
            refine Kept.trans ?_ (State.reply_kept ..)
            exact h4
        · extract_lets +onlyGivenNames -underBinder -merge x3
          try clear_value x3
          extract_lets +onlyGivenNames -underBinder -merge x4 x5
          have h5 : Kept s x5 := by
            dsimp -zeta only [x5]
            exact Kept.of (t := x2) rfl rfl rfl rfl rfl h2
          try clear_value x4 x5
          split
          · rename_i a5 q3
            have h6 : Kept s a5 := by
              have e := congrArg Prod.snd q3
              dsimp only at e
              rw [← e]
              refine Kept.trans ?_ (State.writeMem_kept ..)
              exact h5
            refine Kept.next ?_
            refine Kept.trans ?_ (State.reply_kept ..)
            exact h6
          · rename_i a6 a7 q4
            have h7 : Kept s a7 := by
              have e := congrArg Prod.snd q4
              dsimp only at e
              rw [← e]
              refine Kept.trans ?_ (State.writeMem_kept ..)
              exact h5
            refine Kept.next ?_
            refine Kept.trans ?_ (State.reply_kept ..)
            exact h7

/-- What execWinBaseWrite keeps. -/
theorem execWinBaseWrite_kept : ∀ v0 s, Kept s (outOr s ((execWinBaseWrite v0 s))) := by
  intro v0 s
  unfold execWinBaseWrite
  have h1 := Kept.refl s
  refine Kept.next ?_
  exact Kept.of (t := s) rfl rfl rfl rfl rfl h1

/-- What execPe1InboundDma keeps. -/
theorem execPe1InboundDma_kept : ∀ v0 v1 v2 s, Kept s (outOr s ((execPe1InboundDma v0 v1 v2 s))) := by
  intro v0 v1 v2 s
  unfold execPe1InboundDma
  have h1 := Kept.refl s
  extract_lets +onlyGivenNames -underBinder -merge x1
  try clear_value x1
  extract_lets +onlyGivenNames -underBinder -merge x2
  try clear_value x2
  refine Kept.ite (outOr s) (fun _ => ?_) (fun _ => ?_)
  · refine Kept.next ?_
    exact h1
  · split
    · refine Kept.next ?_
      refine Kept.trans ?_ (State.pe1Refuse_kept ..)
      exact h1
    · extract_lets +onlyGivenNames -underBinder -merge x3
      have h2 : Kept s x3 := by
        dsimp -zeta only [x3]
        refine Kept.trans ?_ (State.wake_kept ..)
        exact h1
      try clear_value x3
      split
      · split
        · rename_i a1 a2 q1
          have h3 : Kept s a2 := by
            have e := congrArg Prod.snd q1
            dsimp only at e
            rw [← e]
            refine Kept.trans ?_ (State.readMem_kept ..)
            exact h2
          refine Kept.next ?_
          refine Kept.trans ?_ (State.reply_kept ..)
          exact h3
        · rename_i a3 a4 q2
          have h4 : Kept s a4 := by
            have e := congrArg Prod.snd q2
            dsimp only at e
            rw [← e]
            refine Kept.trans ?_ (State.readMem_kept ..)
            exact h2
          refine Kept.next ?_
          refine Kept.trans ?_ (State.reply_kept ..)
          exact h4
      · split
        · rename_i a5 q3
          have h5 : Kept s a5 := by
            have e := congrArg Prod.snd q3
            dsimp only at e
            rw [← e]
            refine Kept.trans ?_ (State.writeMem_kept ..)
            exact h2
          refine Kept.next ?_
          refine Kept.trans ?_ (State.reply_kept ..)
          exact h5
        · rename_i a6 a7 q4
          have h6 : Kept s a7 := by
            have e := congrArg Prod.snd q4
            dsimp only at e
            rw [← e]
            refine Kept.trans ?_ (State.writeMem_kept ..)
            exact h2
          refine Kept.next ?_
          refine Kept.trans ?_ (State.reply_kept ..)
          exact h6

/-- What State.perst0 keeps. -/
theorem State.perst0_kept : ∀ s, Kept s (State.perst0 s) := by
  intro s
  unfold State.perst0
  have h1 := Kept.refl s
  extract_lets +onlyGivenNames -underBinder -merge x1 x2
  have h2 : Kept s x2 := by
    dsimp -zeta only [x2]
    exact Kept.of (t := s) rfl rfl rfl rfl rfl h1
  try clear_value x1 x2
  refine Kept.trans ?_ (State.modBox_kept ..)
  exact h2

/-- What execPerst0N keeps. -/
theorem execPerst0N_kept : ∀ s, Kept s (outOr s ((execPerst0N s))) := by
  intro s
  unfold execPerst0N
  have h1 := Kept.refl s
  extract_lets +onlyGivenNames -underBinder -merge x1
  have h2 : Kept s x1 := by
    dsimp -zeta only [x1]
    refine Kept.trans ?_ (State.perst0_kept ..)
    exact h1
  try clear_value x1
  refine Kept.next ?_
  exact Kept.of (t := x1) rfl rfl rfl rfl rfl h2

/-- What execPerst1N keeps. -/
theorem execPerst1N_kept : ∀ s, Kept s (outOr s ((execPerst1N s))) := by
  intro s
  unfold execPerst1N
  have h1 := Kept.refl s
  refine Kept.ite (outOr s) (fun _ => ?_) (fun _ => ?_)
  · refine Kept.next ?_
    exact h1
  · refine Kept.next ?_
    exact Kept.of (t := s) rfl rfl rfl rfl rfl h1

/-- What execHostHbBeat keeps. -/
theorem execHostHbBeat_kept : ∀ s, Kept s (outOr s ((execHostHbBeat s))) := by
  intro s
  unfold execHostHbBeat
  have h1 := Kept.refl s
  refine Kept.next ?_
  exact Kept.of (t := s) rfl rfl rfl rfl rfl h1

/-! ## Keys -/

/-- What State.romPass keeps. -/
theorem State.romPass_kept : ∀ s v1, Kept s (State.romPass s v1) := by
  intro s v1
  unfold State.romPass
  have h2492 := Kept.refl s
  exact Kept.of (t := s) rfl rfl rfl rfl rfl h2492

/-- What State.sealStep keeps. -/
theorem State.sealStep_kept : ∀ s v1, Kept s (State.sealStep s v1) := by
  intro s v1
  unfold State.sealStep
  have h1 := Kept.refl s
  extract_lets +onlyGivenNames -underBinder -merge x1
  try clear_value x1
  extract_lets +onlyGivenNames -underBinder -merge x2
  try clear_value x2
  extract_lets +onlyGivenNames -underBinder -merge x3
  try clear_value x3
  extract_lets +onlyGivenNames -underBinder -merge x4
  try clear_value x4
  extract_lets +onlyGivenNames -underBinder -merge x5
  try clear_value x5
  extract_lets +onlyGivenNames -underBinder -merge x6
  try clear_value x6
  extract_lets +onlyGivenNames -underBinder -merge x7
  try clear_value x7
  extract_lets +onlyGivenNames -underBinder -merge x8 x9
  have h2 : Kept s x9 := by
    dsimp -zeta only [x9]
    exact Kept.of (t := s) rfl rfl rfl rfl rfl h1
  try clear_value x8 x9
  extract_lets +onlyGivenNames -underBinder -merge x10
  have h3 : Kept s x10 := by
    dsimp -zeta only [x10]
    refine Kept.folds _ (fun t1 x11 h4 => ?_) ?_
    · try dsimp -zeta only
      refine Kept.trans ?_ (State.modKey_kept ..)
      exact h4
    · try dsimp -zeta only
      exact h2
  try clear_value x10
  extract_lets +onlyGivenNames -underBinder -merge x12
  have h5 : Kept s x12 := by
    dsimp -zeta only [x12]
    refine Kept.trans ?_ (State.destroyKeys_kept ..)
    exact h3
  try clear_value x12
  refine Kept.trans ?_ (State.freshKey_kept ..)
  exact Kept.of (t := x12) rfl rfl rfl rfl rfl h5

/-- What State.debugEnd keeps. -/
theorem State.debugEnd_kept : ∀ s, Kept s (State.debugEnd s) := by
  intro s
  unfold State.debugEnd
  have h1 := Kept.refl s
  refine Kept.ifs (fun _ => ?_) (fun _ => ?_)
  · refine Kept.trans ?_ (State.hdEvent_kept ..)
    exact Kept.of (t := s) rfl rfl rfl rfl rfl h1
  · exact Kept.of (t := s) rfl rfl rfl rfl rfl h1

/-! ## Sparing -/

/-- What State.lostGroups keeps. -/
theorem State.lostGroups_kept : ∀ s v1 v2, Kept s (State.lostGroups s v1 v2) := by
  intro s v1 v2
  unfold State.lostGroups
  have h1 := Kept.refl s
  extract_lets +onlyGivenNames -underBinder -merge x1
  try clear_value x1
  extract_lets +onlyGivenNames -underBinder -merge x2
  try clear_value x2
  extract_lets +onlyGivenNames -underBinder -merge x3
  have h2 : Kept s x3 := by
    dsimp -zeta only [x3]
    refine Kept.folds _ (fun t1 x4 h3 => ?_) ?_
    · try dsimp -zeta only
      refine Kept.trans ?_ (State.logNote_kept ..)
      exact h3
    · try dsimp -zeta only
      exact h1
  try clear_value x3
  refine Kept.ifs (fun _ => ?_) (fun _ => ?_)
  · refine Kept.trans ?_ (State.modJob_kept ..)
    exact h2
  · exact h2

/-- What State.remapDie keeps. -/
theorem State.remapDie_kept : ∀ s v1, Kept s (State.remapDie s v1) := by
  intro s v1
  unfold State.remapDie
  have h1 := Kept.refl s
  extract_lets +onlyGivenNames -underBinder -merge x1
  try clear_value x1
  extract_lets +onlyGivenNames -underBinder -merge x2
  try clear_value x2
  extract_lets +onlyGivenNames -underBinder -merge x3
  try clear_value x3
  refine Kept.ifs (fun _ => ?_) (fun _ => ?_)
  · exact h1
  · extract_lets +onlyGivenNames -underBinder -merge x4
    try clear_value x4
    extract_lets +onlyGivenNames -underBinder -merge x5
    try clear_value x5
    extract_lets +onlyGivenNames -underBinder -merge x6
    have h2 : Kept s x6 := by
      dsimp -zeta only [x6]
      refine Kept.trans ?_ (State.modDie_kept ..)
      exact h1
    try clear_value x6
    extract_lets +onlyGivenNames -underBinder -merge x7
    try clear_value x7
    refine Kept.folds _ (fun t1 x8 h3 => ?_) ?_
    · try dsimp -zeta only
      extract_lets +onlyGivenNames -underBinder -merge x9
      try clear_value x9
      extract_lets +onlyGivenNames -underBinder -merge x10
      try clear_value x10
      extract_lets +onlyGivenNames -underBinder -merge x11
      have h4 : Kept s x11 := by
        dsimp -zeta only [x11]
        refine Kept.trans ?_ (State.logNote_kept ..)
        exact h3
      try clear_value x11
      extract_lets +onlyGivenNames -underBinder -merge x12
      try clear_value x12
      extract_lets +onlyGivenNames -underBinder -merge x13
      have h5 : Kept s x13 := by
        dsimp -zeta only [x13]
        refine Kept.ifs (fun _ => ?_) (fun _ => ?_)
        · refine Kept.trans ?_ (State.modJob_kept ..)
          exact h4
        · exact h4
      try clear_value x13
      refine Kept.trans ?_ (State.modTile_kept ..)
      refine Kept.trans ?_ (State.lostGroups_kept ..)
      exact h5
    · try dsimp -zeta only
      exact h2

/-- What State.remap keeps. -/
theorem State.remap_kept : ∀ s, Kept s (State.remap s) := by
  intro s
  unfold State.remap
  have h1 := Kept.refl s
  refine Kept.folds _ (fun t1 x1 h2 => ?_) ?_
  · try dsimp -zeta only
    refine Kept.trans ?_ (State.remapDie_kept ..)
    exact h2
  · try dsimp -zeta only
    exact h1

/-! ## Power -/

/-- What State.powerLoss keeps. -/
theorem State.powerLoss_kept : ∀ s v1, Kept s (State.powerLoss s v1) := by
  intro s v1
  exact ⟨rfl, Nat.le_refl _, id, id, rfl, fun _ => rfl⟩

/-- What execInputPowerFail keeps. -/
theorem execInputPowerFail_kept : ∀ v0 s, Kept s (outOr s ((execInputPowerFail v0 s))) := by
  intro v0 s
  unfold execInputPowerFail
  have h1 := Kept.refl s
  extract_lets +onlyGivenNames -underBinder -merge x1 x2
  have h2 : Kept s x2 := by
    dsimp -zeta only [x2]
    exact Kept.of (t := s) rfl rfl rfl rfl rfl h1
  try clear_value x1 x2
  refine Kept.ite (outOr s) (fun _ => ?_) (fun _ => ?_)
  · refine Kept.next ?_
    exact h2
  · refine Kept.next ?_
    refine Kept.trans ?_ (State.powerLoss_kept ..)
    exact h2

/-- What execThermalTrip keeps. -/
theorem execThermalTrip_kept : ∀ s, Kept s (outOr s ((execThermalTrip s))) := by
  intro s
  unfold execThermalTrip
  have h1 := Kept.refl s
  refine Kept.ite (outOr s) (fun _ => ?_) (fun _ => ?_)
  · refine Kept.next ?_
    exact h1
  · refine Kept.next ?_
    refine Kept.trans ?_ (State.powerLoss_kept ..)
    exact Kept.of (t := s) rfl rfl rfl rfl rfl h1

/-- What execResetNAssert keeps. -/
theorem execResetNAssert_kept : ∀ s, Kept s (outOr s ((execResetNAssert s))) := by
  intro s
  unfold execResetNAssert
  have h1 := Kept.refl s
  refine Kept.next ?_
  refine Kept.trans ?_ (State.powerLoss_kept ..)
  exact Kept.of (t := s) rfl rfl rfl rfl rfl h1

/-- What execCoreRailPowerGood keeps. -/
theorem execCoreRailPowerGood_kept : ∀ v0 v1 s, Kept s (outOr s ((execCoreRailPowerGood v0 v1 s))) := by
  intro v0 v1 s
  unfold execCoreRailPowerGood
  have h1 := Kept.refl s
  refine Kept.ite (outOr s) (fun _ => ?_) (fun _ => ?_)
  · refine Kept.next ?_
    exact h1
  · refine Kept.next ?_
    refine Kept.trans ?_ (State.modDie_kept ..)
    exact h1

/-- What execSlotIdChange keeps. -/
theorem execSlotIdChange_kept : ∀ v0 s, Kept s (outOr s ((execSlotIdChange v0 s))) := by
  intro v0 s
  unfold execSlotIdChange
  have h1 := Kept.refl s
  extract_lets +onlyGivenNames -underBinder -merge x1 x2
  have h2 : Kept s x2 := by
    dsimp -zeta only [x2]
    exact Kept.of (t := s) rfl rfl rfl rfl rfl h1
  try clear_value x1 x2
  refine Kept.ite (outOr s) (fun _ => ?_) (fun _ => ?_)
  · refine Kept.next ?_
    exact h2
  · refine Kept.next ?_
    refine Kept.trans ?_ (State.logNote_kept ..)
    exact h2

/-- What execRefclkLoss keeps. -/
theorem execRefclkLoss_kept : ∀ s, Kept s (outOr s ((execRefclkLoss s))) := by
  intro s
  unfold execRefclkLoss
  have h1 := Kept.refl s
  extract_lets +onlyGivenNames -underBinder -merge x1 x2
  have h2 : Kept s x2 := by
    dsimp -zeta only [x2]
    exact Kept.of (t := s) rfl rfl rfl rfl rfl h1
  try clear_value x1 x2
  refine Kept.ite (outOr s) (fun _ => ?_) (fun _ => ?_)
  · refine Kept.next ?_
    refine Kept.trans ?_ (State.timeEvent_kept ..)
    exact Kept.of (t := x2) rfl rfl rfl rfl rfl h2
  · refine Kept.next ?_
    exact h2

/-- What execPe0LinkReady keeps. -/
theorem execPe0LinkReady_kept : ∀ s, Kept s (outOr s ((execPe0LinkReady s))) := by
  intro s
  unfold execPe0LinkReady
  have h1 := Kept.refl s
  refine Kept.ite (outOr s) (fun _ => ?_) (fun _ => ?_)
  · refine Kept.next ?_
    exact h1
  · refine Kept.next ?_
    exact Kept.of (t := s) rfl rfl rfl rfl rfl h1

/-- What State.brakeApply keeps. -/
theorem State.brakeApply_kept : ∀ s v1, Kept s (State.brakeApply s v1) := by
  intro s v1
  unfold State.brakeApply
  have h1 := Kept.refl s
  refine Kept.trans ?_ (State.noteClocks_kept ..)
  refine Kept.trans ?_ (State.brakeOn_kept ..)
  exact h1

/-- What State.brakeRelease keeps. -/
theorem State.brakeRelease_kept : ∀ s, Kept s (State.brakeRelease s) := by
  intro s
  unfold State.brakeRelease
  have h1 := Kept.refl s
  extract_lets +onlyGivenNames -underBinder -merge x1
  try clear_value x1
  refine Kept.trans ?_ (State.brakeEvent_kept ..)
  exact Kept.of (t := s) rfl rfl rfl rfl rfl h1

/-- What State.brakeReset keeps. -/
theorem State.brakeReset_kept : ∀ s, Kept s (State.brakeReset s) := by
  intro s
  unfold State.brakeReset
  have h1 := Kept.refl s
  refine Kept.ifs (fun _ => ?_) (fun _ => ?_)
  · exact Kept.of (t := s) rfl rfl rfl rfl rfl h1
  · exact h1

/-- What execInputUnderVoltage keeps. -/
theorem execInputUnderVoltage_kept : ∀ s, Kept s (outOr s ((execInputUnderVoltage s))) := by
  intro s
  unfold execInputUnderVoltage
  have h1 := Kept.refl s
  refine Kept.ite (outOr s) (fun _ => ?_) (fun _ => ?_)
  · refine Kept.next ?_
    exact h1
  · refine Kept.next ?_
    refine Kept.trans ?_ (State.noteClocks_kept ..)
    refine Kept.trans ?_ (State.brakeEvent_kept ..)
    exact Kept.of (t := s) rfl rfl rfl rfl rfl h1

/-- What execUnderVoltageEnd keeps. -/
theorem execUnderVoltageEnd_kept : ∀ s, Kept s (outOr s ((execUnderVoltageEnd s))) := by
  intro s
  unfold execUnderVoltageEnd
  have h1 := Kept.refl s
  refine Kept.ite (outOr s) (fun _ => ?_) (fun _ => ?_)
  · refine Kept.next ?_
    exact h1
  · refine Kept.next ?_
    refine Kept.trans ?_ (State.brakeEvent_kept ..)
    exact Kept.of (t := s) rfl rfl rfl rfl rfl h1

/-- What execDroopDetect keeps. -/
theorem execDroopDetect_kept : ∀ v0 s, Kept s (outOr s ((execDroopDetect v0 s))) := by
  intro v0 s
  unfold execDroopDetect
  have h1 := Kept.refl s
  refine Kept.ite (outOr s) (fun _ => ?_) (fun _ => ?_)
  · refine Kept.next ?_
    exact h1
  · refine Kept.next ?_
    refine Kept.trans ?_ (State.noteClock_kept ..)
    refine Kept.trans ?_ (State.modDiePower_kept ..)
    exact h1

/-- What execDroopRecovery keeps. -/
theorem execDroopRecovery_kept : ∀ v0 s, Kept s (outOr s ((execDroopRecovery v0 s))) := by
  intro v0 s
  unfold execDroopRecovery
  have h1 := Kept.refl s
  refine Kept.next ?_
  refine Kept.trans ?_ (State.modDiePower_kept ..)
  exact h1

/-- What execPmbusPoll keeps. -/
theorem execPmbusPoll_kept : ∀ v0 s, Kept s (outOr s ((execPmbusPoll v0 s))) := by
  intro v0 s
  unfold execPmbusPoll
  have h1 := Kept.refl s
  refine Kept.ite (outOr s) (fun _ => ?_) (fun _ => ?_)
  · refine Kept.next ?_
    exact h1
  · refine Kept.next ?_
    exact Kept.of (t := s) rfl rfl rfl rfl rfl h1

/-- What execInputSample keeps. -/
theorem execInputSample_kept : ∀ v0 v1 v2 v3 s, Kept s (outOr s ((execInputSample v0 v1 v2 v3 s))) := by
  intro v0 v1 v2 v3 s
  unfold execInputSample
  have h1 := Kept.refl s
  extract_lets +onlyGivenNames -underBinder -merge x1
  try clear_value x1
  extract_lets +onlyGivenNames -underBinder -merge x2
  try clear_value x2
  extract_lets +onlyGivenNames -underBinder -merge x3
  try clear_value x3
  extract_lets +onlyGivenNames -underBinder -merge x4
  try clear_value x4
  extract_lets +onlyGivenNames -underBinder -merge x5
  try clear_value x5
  extract_lets +onlyGivenNames -underBinder -merge x6
  try clear_value x6
  extract_lets +onlyGivenNames -underBinder -merge x7
  try clear_value x7
  refine Kept.ite (outOr s) (fun _ => ?_) (fun _ => ?_)
  · refine Kept.next ?_
    exact h1
  · refine Kept.next ?_
    refine Kept.trans ?_ (State.noteClocks_kept ..)
    exact Kept.of (t := s) rfl rfl rfl rfl rfl h1

/-- What execCapExcursionLimit keeps. -/
theorem execCapExcursionLimit_kept : ∀ s, Kept s (outOr s ((execCapExcursionLimit s))) := by
  intro s
  unfold execCapExcursionLimit
  have h1 := Kept.refl s
  refine Kept.ite (outOr s) (fun _ => ?_) (fun _ => ?_)
  · refine Kept.next ?_
    refine Kept.trans ?_ (State.noteClocks_kept ..)
    exact Kept.of (t := s) rfl rfl rfl rfl rfl h1
  · refine Kept.next ?_
    exact h1

/-- What execPwrbrakeAssert keeps. -/
theorem execPwrbrakeAssert_kept : ∀ s, Kept s (outOr s ((execPwrbrakeAssert s))) := by
  intro s
  unfold execPwrbrakeAssert
  have h1 := Kept.refl s
  refine Kept.ite (outOr s) (fun _ => ?_) (fun _ => ?_)
  · refine Kept.next ?_
    exact h1
  · extract_lets +onlyGivenNames -underBinder -merge x1
    try clear_value x1
    extract_lets +onlyGivenNames -underBinder -merge x2 x3
    have h2 : Kept s x3 := by
      dsimp -zeta only [x3]
      exact Kept.of (t := s) rfl rfl rfl rfl rfl h1
    try clear_value x2 x3
    refine Kept.ite (outOr s) (fun _ => ?_) (fun _ => ?_)
    · refine Kept.next ?_
      refine Kept.trans ?_ (State.brakeApply_kept ..)
      exact Kept.of (t := x3) rfl rfl rfl rfl rfl h2
    · refine Kept.next ?_
      exact Kept.of (t := x3) rfl rfl rfl rfl rfl h2

/-- What execPwrbrakeDeassert keeps. -/
theorem execPwrbrakeDeassert_kept : ∀ s, Kept s (outOr s ((execPwrbrakeDeassert s))) := by
  intro s
  unfold execPwrbrakeDeassert
  have h1 := Kept.refl s
  refine Kept.ite (outOr s) (fun _ => ?_) (fun _ => ?_)
  · refine Kept.next ?_
    exact h1
  · extract_lets +onlyGivenNames -underBinder -merge x1 x2
    have h2 : Kept s x2 := by
      dsimp -zeta only [x2]
      exact Kept.of (t := s) rfl rfl rfl rfl rfl h1
    try clear_value x1 x2
    refine Kept.ite (outOr s) (fun _ => ?_) (fun _ => ?_)
    · refine Kept.next ?_
      refine Kept.trans ?_ (State.brakeRelease_kept ..)
      exact h2
    · refine Kept.next ?_
      exact h2

/-- What execBrakeReleaseStep keeps. -/
theorem execBrakeReleaseStep_kept : ∀ s, Kept s (outOr s ((execBrakeReleaseStep s))) := by
  intro s
  unfold execBrakeReleaseStep
  have h1 := Kept.refl s
  refine Kept.ite (outOr s) (fun _ => ?_) (fun _ => ?_)
  · refine Kept.next ?_
    exact h1
  · refine Kept.next ?_
    exact Kept.of (t := s) rfl rfl rfl rfl rfl h1

/-- What execToggleHoldExpiry keeps. -/
theorem execToggleHoldExpiry_kept : ∀ s, Kept s (outOr s ((execToggleHoldExpiry s))) := by
  intro s
  unfold execToggleHoldExpiry
  have h1 := Kept.refl s
  refine Kept.ite (outOr s) (fun _ => ?_) (fun _ => ?_)
  · refine Kept.next ?_
    refine Kept.trans ?_ (State.brakeRelease_kept ..)
    exact h1
  · refine Kept.next ?_
    exact h1

/-- What execBrakeHeldTimeout keeps. -/
theorem execBrakeHeldTimeout_kept : ∀ s, Kept s (outOr s ((execBrakeHeldTimeout s))) := by
  intro s
  unfold execBrakeHeldTimeout
  have h1 := Kept.refl s
  refine Kept.ite (outOr s) (fun _ => ?_) (fun _ => ?_)
  · refine Kept.next ?_
    refine Kept.trans ?_ (State.hdEvent_kept ..)
    exact Kept.of (t := s) rfl rfl rfl rfl rfl h1
  · refine Kept.next ?_
    exact h1

/-- What State.thermalEvent keeps. -/
theorem State.thermalEvent_kept : ∀ s v1 v2, Kept s (State.thermalEvent s v1 v2) := by
  intro s v1 v2
  unfold State.thermalEvent
  have h1 := Kept.refl s
  refine Kept.trans ?_ (State.raiseWired_kept ..)
  refine Kept.ifs (fun _ => ?_) (fun _ => ?_)
  · refine Kept.trans ?_ (State.event_kept ..)
    exact h1
  · refine Kept.trans ?_ (State.hdEvent_kept ..)
    exact h1

/-- What State.setTemp keeps. -/
theorem State.setTemp_kept : ∀ s v1 v2 v3, Kept s (State.setTemp s v1 v2 v3) := by
  intro s v1 v2 v3
  unfold State.setTemp
  have h2590 := Kept.refl s
  exact Kept.of (t := s) rfl rfl rfl rfl rfl h2590

/-- What execThrottleDeepen keeps. -/
theorem execThrottleDeepen_kept : ∀ v0 v1 s, Kept s (outOr s ((execThrottleDeepen v0 v1 s))) := by
  intro v0 v1 s
  unfold execThrottleDeepen
  have h1 := Kept.refl s
  refine Kept.ite (outOr s) (fun _ => ?_) (fun _ => ?_)
  · refine Kept.next ?_
    exact h1
  · extract_lets +onlyGivenNames -underBinder -merge x1
    have h2 : Kept s x1 := by
      dsimp -zeta only [x1]
      refine Kept.trans ?_ (State.setTemp_kept ..)
      exact h1
    try clear_value x1
    refine Kept.dite (outOr s) (fun _ => ?_) (fun _ => ?_)
    · extract_lets +onlyGivenNames -underBinder -merge x2
      try clear_value x2
      extract_lets +onlyGivenNames -underBinder -merge x3
      try clear_value x3
      extract_lets +onlyGivenNames -underBinder -merge x4
      have h3 : Kept s x4 := by
        dsimp -zeta only [x4]
        refine Kept.trans ?_ (State.modDiePower_kept ..)
        exact h2
      try clear_value x4
      refine Kept.next ?_
      refine Kept.trans ?_ (State.noteClock_kept ..)
      refine Kept.ifs (fun _ => ?_) (fun _ => ?_)
      · refine Kept.trans ?_ (State.thermalEvent_kept ..)
        exact h3
      · exact h3
    · extract_lets +onlyGivenNames -underBinder -merge x5
      try clear_value x5
      extract_lets +onlyGivenNames -underBinder -merge x6 x7
      have h4 : Kept s x7 := by
        dsimp -zeta only [x7]
        exact Kept.of (t := x1) rfl rfl rfl rfl rfl h2
      try clear_value x6 x7
      refine Kept.next ?_
      refine Kept.ifs (fun _ => ?_) (fun _ => ?_)
      · refine Kept.trans ?_ (State.thermalEvent_kept ..)
        exact h4
      · exact h4

/-- What execThrottleRelax keeps. -/
theorem execThrottleRelax_kept : ∀ v0 v1 s, Kept s (outOr s ((execThrottleRelax v0 v1 s))) := by
  intro v0 v1 s
  unfold execThrottleRelax
  have h1 := Kept.refl s
  refine Kept.ite (outOr s) (fun _ => ?_) (fun _ => ?_)
  · refine Kept.next ?_
    exact h1
  · extract_lets +onlyGivenNames -underBinder -merge x1
    have h2 : Kept s x1 := by
      dsimp -zeta only [x1]
      refine Kept.trans ?_ (State.setTemp_kept ..)
      exact h1
    try clear_value x1
    refine Kept.ite (outOr s) (fun _ => ?_) (fun _ => ?_)
    · extract_lets +onlyGivenNames -underBinder -merge x2
      try clear_value x2
      refine Kept.ite (outOr s) (fun _ => ?_) (fun _ => ?_)
      · refine Kept.next ?_
        exact h2
      · extract_lets +onlyGivenNames -underBinder -merge x3
        have h3 : Kept s x3 := by
          dsimp -zeta only [x3]
          refine Kept.trans ?_ (State.modDiePower_kept ..)
          exact h2
        try clear_value x3
        refine Kept.next ?_
        refine Kept.ifs (fun _ => ?_) (fun _ => ?_)
        · refine Kept.trans ?_ (State.thermalEvent_kept ..)
          exact h3
        · exact h3
    · refine Kept.ite (outOr s) (fun _ => ?_) (fun _ => ?_)
      · refine Kept.next ?_
        exact h2
      · extract_lets +onlyGivenNames -underBinder -merge x4
        try clear_value x4
        extract_lets +onlyGivenNames -underBinder -merge x5 x6
        have h4 : Kept s x6 := by
          dsimp -zeta only [x6]
          exact Kept.of (t := x1) rfl rfl rfl rfl rfl h2
        try clear_value x5 x6
        refine Kept.next ?_
        refine Kept.ifs (fun _ => ?_) (fun _ => ?_)
        · refine Kept.trans ?_ (State.thermalEvent_kept ..)
          exact h4
        · exact h4

/-- What execThermalDeepRatio keeps. -/
theorem execThermalDeepRatio_kept : ∀ v0 s, Kept s (outOr s ((execThermalDeepRatio v0 s))) := by
  intro v0 s
  unfold execThermalDeepRatio
  have h1 := Kept.refl s
  refine Kept.ite (outOr s) (fun _ => ?_) (fun _ => ?_)
  · refine Kept.next ?_
    refine Kept.trans ?_ (State.noteClock_kept ..)
    refine Kept.trans ?_ (State.modDiePower_kept ..)
    exact h1
  · refine Kept.next ?_
    exact h1

/-- What execPwrCpu keeps. -/
theorem execPwrCpu_kept : ∀ v0 s, Kept s (outOr s ((execPwrCpu v0 s))) := by
  intro v0 s
  unfold execPwrCpu
  have h1 := Kept.refl s
  refine Kept.next ?_
  exact Kept.of (t := s) rfl rfl rfl rfl rfl h1

/-- What State.setCode keeps. -/
theorem State.setCode_kept : ∀ s v1 v2, Kept s (State.setCode s v1 v2) := by
  intro s v1 v2
  unfold State.setCode
  have h1 := Kept.refl s
  extract_lets +onlyGivenNames -underBinder -merge x1
  try clear_value x1
  refine Kept.trans ?_ (State.modDiePower_kept ..)
  refine Kept.trans ?_ (State.modDie_kept ..)
  exact h1

/-- What State.freqDone keeps. -/
theorem State.freqDone_kept : ∀ s, Kept s (State.freqDone s) := by
  intro s
  unfold State.freqDone
  have h1 := Kept.refl s
  split
  · exact h1
  · refine Kept.ifs (fun _ => ?_) (fun _ => ?_)
    · refine Kept.trans ?_ (State.modJob_kept ..)
      split
      · refine Kept.trans ?_ (State.respond_kept ..)
        exact h1
      · exact h1
    · refine Kept.ifs (fun _ => ?_) (fun _ => ?_)
      · extract_lets +onlyGivenNames -underBinder -merge x1
        have h2 : Kept s x1 := by
          dsimp -zeta only [x1]
          split
          · refine Kept.trans ?_ (State.respond_kept ..)
            exact h1
          · exact h1
        try clear_value x1
        refine Kept.trans ?_ (State.modJob_kept ..)
        exact h2
      · exact h1

/-- What execFrequencySwitch keeps. -/
theorem execFrequencySwitch_kept : ∀ v0 s, Kept s (outOr s ((execFrequencySwitch v0 s))) := by
  intro v0 s
  unfold execFrequencySwitch
  have h1 := Kept.refl s
  split
  · refine Kept.next ?_
    exact h1
  · split
    · refine Kept.next ?_
      exact h1
    · extract_lets +onlyGivenNames -underBinder -merge x1
      try clear_value x1
      refine Kept.ite (outOr s) (fun _ => ?_) (fun _ => ?_)
      · extract_lets +onlyGivenNames -underBinder -merge x2
        have h2 : Kept s x2 := by
          dsimp -zeta only [x2]
          refine Kept.trans ?_ (State.setCode_kept ..)
          exact h1
        try clear_value x2
        refine Kept.next ?_
        refine Kept.trans ?_ (State.freqDone_kept ..)
        refine Kept.trans ?_ (State.modJob_kept ..)
        exact h2
      · refine Kept.next ?_
        refine Kept.trans ?_ (State.freqDone_kept ..)
        exact h1

/-- What execFlarePhaseSet keeps. -/
theorem execFlarePhaseSet_kept : ∀ v0 s, Kept s (outOr s ((execFlarePhaseSet v0 s))) := by
  intro v0 s
  unfold execFlarePhaseSet
  have h1 := Kept.refl s
  extract_lets +onlyGivenNames -underBinder -merge x1
  try clear_value x1
  extract_lets +onlyGivenNames -underBinder -merge x2
  try clear_value x2
  extract_lets +onlyGivenNames -underBinder -merge x3
  try clear_value x3
  extract_lets +onlyGivenNames -underBinder -merge x4
  try clear_value x4
  refine Kept.next ?_
  refine Kept.trans ?_ (State.modDiePower_kept ..)
  refine Kept.trans ?_ (State.modDie_kept ..)
  exact h1

/-- What execTGateEntry keeps. -/
theorem execTGateEntry_kept : ∀ v0 v1 s, Kept s (outOr s ((execTGateEntry v0 v1 s))) := by
  intro v0 v1 s
  unfold execTGateEntry
  have h1 := Kept.refl s
  refine Kept.ite (outOr s) (fun _ => ?_) (fun _ => ?_)
  · refine Kept.next ?_
    refine Kept.trans ?_ (State.modTile_kept ..)
    exact h1
  · refine Kept.next ?_
    exact h1

/-- What State.tileSleeps keeps. -/
theorem State.tileSleeps_kept : ∀ s v1 v2 v3, Kept s (State.tileSleeps s v1 v2 v3) := by
  intro s v1 v2 v3
  unfold State.tileSleeps
  have h1 := Kept.refl s
  refine Kept.trans ?_ (State.modTile_kept ..)
  exact h1

/-- What execTileIdle keeps. -/
theorem execTileIdle_kept : ∀ v0 v1 s, Kept s (outOr s ((execTileIdle v0 v1 s))) := by
  intro v0 v1 s
  unfold execTileIdle
  have h1 := Kept.refl s
  extract_lets +onlyGivenNames -underBinder -merge x1
  try clear_value x1
  extract_lets +onlyGivenNames -underBinder -merge x2
  try clear_value x2
  refine Kept.ite (outOr s) (fun _ => ?_) (fun _ => ?_)
  · refine Kept.next ?_
    exact h1
  · extract_lets +onlyGivenNames -underBinder -merge x3
    try clear_value x3
    split
    · refine Kept.next ?_
      refine Kept.trans ?_ (State.tileSleeps_kept ..)
      exact h1
    · extract_lets +onlyGivenNames -underBinder -merge x4
      try clear_value x4
      refine Kept.ite (outOr s) (fun _ => ?_) (fun _ => ?_)
      · refine Kept.next ?_
        refine Kept.trans ?_ (State.tileSleeps_kept ..)
        exact h1
      · refine Kept.ite (outOr s) (fun _ => ?_) (fun _ => ?_)
        · refine Kept.next ?_
          refine Kept.trans ?_ (State.tileSleeps_kept ..)
          exact h1
        · refine Kept.next ?_
          exact h1

/-- What execTileWake keeps. -/
theorem execTileWake_kept : ∀ v0 v1 s, Kept s (outOr s ((execTileWake v0 v1 s))) := by
  intro v0 v1 s
  unfold execTileWake
  have h1 := Kept.refl s
  refine Kept.ite (outOr s) (fun _ => ?_) (fun _ => ?_)
  · refine Kept.next ?_
    exact h1
  · refine Kept.next ?_
    refine Kept.trans ?_ (State.modTile_kept ..)
    refine Kept.trans ?_ (State.restoreTs_kept ..)
    exact h1

/-- What execTileQueueIdle keeps. -/
theorem execTileQueueIdle_kept : ∀ v0 v1 v2 s, Kept s (outOr s ((execTileQueueIdle v0 v1 v2 s))) := by
  intro v0 v1 v2 s
  unfold execTileQueueIdle
  have h1 := Kept.refl s
  extract_lets +onlyGivenNames -underBinder -merge x1
  try clear_value x1
  extract_lets +onlyGivenNames -underBinder -merge x2
  try clear_value x2
  extract_lets +onlyGivenNames -underBinder -merge x3
  try clear_value x3
  refine Kept.ite (outOr s) (fun _ => ?_) (fun _ => ?_)
  · refine Kept.next ?_
    exact h1
  · refine Kept.ite (outOr s) (fun _ => ?_) (fun _ => ?_)
    · refine Kept.next ?_
      refine Kept.trans ?_ (State.tileSleeps_kept ..)
      exact h1
    · refine Kept.ite (outOr s) (fun _ => ?_) (fun _ => ?_)
      · refine Kept.next ?_
        refine Kept.trans ?_ (State.tileSleeps_kept ..)
        exact h1
      · refine Kept.next ?_
        exact h1

/-- What execToffIdleExpiry keeps. -/
theorem execToffIdleExpiry_kept : ∀ v0 v1 s, Kept s (outOr s ((execToffIdleExpiry v0 v1 s))) := by
  intro v0 v1 s
  unfold execToffIdleExpiry
  have h1 := Kept.refl s
  refine Kept.ite (outOr s) (fun _ => ?_) (fun _ => ?_)
  · refine Kept.next ?_
    refine Kept.trans ?_ (State.tileSleeps_kept ..)
    exact h1
  · refine Kept.next ?_
    exact h1

/-- What State.enterIdle keeps. -/
theorem State.enterIdle_kept : ∀ s, Kept s (State.enterIdle s) := by
  intro s
  unfold State.enterIdle
  have h1 := Kept.refl s
  extract_lets +onlyGivenNames -underBinder -merge x1
  have h2 : Kept s x1 := by
    dsimp -zeta only [x1]
    refine Kept.trans ?_ (State.settleAll_kept ..)
    refine Kept.folds _ (fun t1 x2 h3 => ?_) ?_
    · try dsimp -zeta only
      refine Kept.trans ?_ (State.wcDrainAll_kept ..)
      exact h3
    · try dsimp -zeta only
      exact h1
  try clear_value x1
  refine Kept.trans ?_ (State.selfRefresh_kept ..)
  refine Kept.trans ?_ (State.tilesEnter_kept ..)
  exact Kept.of (t := x1) rfl rfl rfl rfl rfl h2

/-- What execModuleAutoIdle keeps. -/
theorem execModuleAutoIdle_kept : ∀ s, Kept s (outOr s ((execModuleAutoIdle s))) := by
  intro s
  unfold execModuleAutoIdle
  have h1 := Kept.refl s
  refine Kept.ite (outOr s) (fun _ => ?_) (fun _ => ?_)
  · refine Kept.next ?_
    refine Kept.trans ?_ (State.enterIdle_kept ..)
    exact h1
  · refine Kept.next ?_
    exact h1

/-- What execModuleWake keeps. -/
theorem execModuleWake_kept : ∀ v0 s, Kept s (outOr s ((execModuleWake v0 s))) := by
  intro v0 s
  unfold execModuleWake
  have h1 := Kept.refl s
  refine Kept.next ?_
  refine Kept.trans ?_ (State.wake_kept ..)
  exact h1

/-! ## Startup -/

/-- What State.logsCopy keeps. -/
theorem State.logsCopy_kept : ∀ s, Kept s (State.logsCopy s) := by
  intro s
  unfold State.logsCopy
  have h2662 := Kept.refl s
  exact Kept.of (t := s) rfl rfl rfl rfl rfl h2662

/-- What State.fwEvent keeps. -/
theorem State.fwEvent_kept : ∀ s v1, Kept s (State.fwEvent s v1) := by
  intro s v1
  unfold State.fwEvent
  have h1 := Kept.refl s
  refine Kept.trans ?_ (State.hdEvent_kept ..)
  exact h1

/-- What State.pilotAt keeps. -/
theorem State.pilotAt_kept : ∀ s v1, Kept s (State.pilotAt s v1) := by
  intro s v1
  unfold State.pilotAt
  have h1 := Kept.refl s
  refine Kept.trans ?_ (State.logsCopy_kept ..)
  refine Kept.trans ?_ (State.hdEvent_kept ..)
  exact Kept.of (t := s) rfl rfl rfl rfl rfl h1

/-- What State.hdReset keeps. -/
theorem State.hdReset_kept : ∀ s, Kept s (State.hdReset s) := by
  intro s
  unfold State.hdReset
  have h1 := Kept.refl s
  extract_lets +onlyGivenNames -underBinder -merge x1
  have h2 : Kept s x1 := by
    dsimp -zeta only [x1]
    refine Kept.folds _ (fun t1 x2 h3 => ?_) ?_
    · try dsimp -zeta only
      refine Kept.trans ?_ (State.modCtrl_kept ..)
      exact h3
    · try dsimp -zeta only
      exact h1
  try clear_value x1
  extract_lets +onlyGivenNames -underBinder -merge x3
  have h4 : Kept s x3 := by
    dsimp -zeta only [x3]
    refine Kept.trans ?_ (State.clearCaches_kept ..)
    exact h2
  try clear_value x3
  exact Kept.of (t := x3) rfl rfl rfl rfl rfl h4

/-- What State.domainsOff keeps. -/
theorem State.domainsOff_kept : ∀ s, Kept s (State.domainsOff s) := by
  intro s
  unfold State.domainsOff
  have h1 := Kept.refl s
  extract_lets +onlyGivenNames -underBinder -merge x1
  have h2 : Kept s x1 := by
    dsimp -zeta only [x1]
    refine Kept.trans ?_ (State.hdReset_kept ..)
    refine Kept.trans ?_ (State.selfRefresh_kept ..)
    exact h1
  try clear_value x1
  extract_lets +onlyGivenNames -underBinder -merge x2
  have h3 : Kept s x2 := by
    dsimp -zeta only [x2]
    exact Kept.of (t := x1) rfl rfl rfl rfl rfl h2
  try clear_value x2
  refine Kept.trans ?_ (State.jobSettle_kept ..)
  exact h3

/-- What State.enterPilot keeps. -/
theorem State.enterPilot_kept : ∀ s v1, Kept s (State.enterPilot s v1) := by
  intro s v1
  unfold State.enterPilot
  have h1 := Kept.refl s
  extract_lets +onlyGivenNames -underBinder -merge x1
  have h2 : Kept s x1 := by
    dsimp -zeta only [x1]
    refine Kept.folds _ (fun t1 x2 h3 => ?_) ?_
    · try dsimp -zeta only
      refine Kept.trans ?_ (State.dcFlushAll_kept ..)
      exact h3
    · try dsimp -zeta only
      refine Kept.trans ?_ (State.drainHd_kept ..)
      exact h1
  try clear_value x1
  extract_lets +onlyGivenNames -underBinder -merge x3 x4
  have h4 : Kept s x4 := by
    dsimp -zeta only [x4]
    exact Kept.of (t := x1) rfl rfl rfl rfl rfl h2
  try clear_value x3 x4
  refine Kept.trans ?_ (State.pilotAt_kept ..)
  refine Kept.trans ?_ (State.debugEnd_kept ..)
  refine Kept.trans ?_ (State.domainsOff_kept ..)
  refine Kept.trans ?_ (State.sealStep_kept ..)
  exact h4

/-- What State.darkDies keeps. -/
theorem State.darkDies_kept : ∀ s, Kept s (State.darkDies s) := by
  intro s
  unfold State.darkDies
  have h2687 := Kept.refl s
  exact Kept.of (t := s) rfl rfl rfl rfl rfl h2687

/-- What State.darkPool keeps. -/
theorem State.darkPool_kept : ∀ s, Kept s (State.darkPool s) := by
  intro s
  exact ⟨rfl, Nat.le_refl _, id, id, rfl, fun _ => rfl⟩

/-- What State.failStart keeps. -/
theorem State.failStart_kept : ∀ s v1, Kept s (State.failStart s v1) := by
  intro s v1
  unfold State.failStart
  have h1 := Kept.refl s
  extract_lets +onlyGivenNames -underBinder -merge x1
  have h2 : Kept s x1 := by
    dsimp -zeta only [x1]
    refine Kept.trans ?_ (State.darkPool_kept ..)
    refine Kept.trans ?_ (State.darkDies_kept ..)
    refine Kept.trans ?_ (State.domainsOff_kept ..)
    exact h1
  try clear_value x1
  refine Kept.trans ?_ (State.pilotAt_kept ..)
  refine Kept.trans ?_ (State.debugEnd_kept ..)
  exact Kept.of (t := x1) rfl rfl rfl rfl rfl h2

/-- What State.bootOs keeps. -/
theorem State.bootOs_kept : ∀ s v1 v2, Kept s (State.bootOs s v1 v2) := by
  intro s v1 v2
  unfold State.bootOs
  have h1 := Kept.refl s
  extract_lets +onlyGivenNames -underBinder -merge x1
  try clear_value x1
  extract_lets +onlyGivenNames -underBinder -merge x2 x3 x4 x5 x6
  have h2 : Kept s x6 := by
    dsimp -zeta only [x6]
    exact Kept.of (t := s) rfl rfl rfl rfl rfl h1
  try clear_value x2 x3 x4 x5 x6
  extract_lets +onlyGivenNames -underBinder -merge x7
  have h3 : Kept s x7 := by
    dsimp -zeta only [x7]
    refine Kept.trans ?_ (State.selfRefresh_kept ..)
    exact h2
  try clear_value x7
  refine Kept.ifs (fun _ => ?_) (fun _ => ?_)
  · refine Kept.trans ?_ (State.brakeApply_kept ..)
    exact Kept.of (t := x7) rfl rfl rfl rfl rfl h3
  · exact h3

/-- What State.osStep keeps. -/
theorem State.osStep_kept : ∀ s v1, Kept s ((State.osStep s v1).1) := by
  intro s v1
  unfold State.osStep
  have h1 := Kept.refl s
  split
  · try dsimp -zeta only
    exact h1
  · split
    · try dsimp -zeta only
      exact h1
    · try dsimp -zeta only
      refine Kept.trans ?_ (State.bootOs_kept ..)
      exact h1

/-- What State.railsUp keeps. -/
theorem State.railsUp_kept : ∀ s v1, Kept s (State.railsUp s v1) := by
  intro s v1
  unfold State.railsUp
  have h1 := Kept.refl s
  extract_lets +onlyGivenNames -underBinder -merge x1
  have h2 : Kept s x1 := by
    dsimp -zeta only [x1]
    refine Kept.folds _ (fun t1 x2 h3 => ?_) ?_
    · try dsimp -zeta only
      refine Kept.trans ?_ (State.modDie_kept ..)
      exact h3
    · try dsimp -zeta only
      exact h1
  try clear_value x1
  refine Kept.folds _ (fun t2 x3 h4 => ?_) ?_
  · try dsimp -zeta only
    refine Kept.trans ?_ (State.modPort_kept ..)
    exact h4
  · try dsimp -zeta only
    exact h2

/-- What State.exchangeCodes keeps. -/
theorem State.exchangeCodes_kept : ∀ s v1, Kept s (State.exchangeCodes s v1) := by
  intro s v1
  unfold State.exchangeCodes
  have h1 := Kept.refl s
  refine Kept.folds _ (fun t1 x1 h2 => ?_) ?_
  · try dsimp -zeta only
    extract_lets +onlyGivenNames -underBinder -merge x2
    try clear_value x2
    extract_lets +onlyGivenNames -underBinder -merge x3
    try clear_value x3
    extract_lets +onlyGivenNames -underBinder -merge x4
    try clear_value x4
    extract_lets +onlyGivenNames -underBinder -merge x5
    try clear_value x5
    extract_lets +onlyGivenNames -underBinder -merge x6
    try clear_value x6
    extract_lets +onlyGivenNames -underBinder -merge x7
    try clear_value x7
    extract_lets +onlyGivenNames -underBinder -merge x8
    try clear_value x8
    extract_lets +onlyGivenNames -underBinder -merge x9
    have h3 : Kept s x9 := by
      dsimp -zeta only [x9]
      refine Kept.trans ?_ (State.modDie_kept ..)
      exact h2
    try clear_value x9
    extract_lets +onlyGivenNames -underBinder -merge x10
    try clear_value x10
    exact Kept.of (t := x9) rfl rfl rfl rfl rfl h3
  · try dsimp -zeta only
    exact h1

/-- What State.stepPosition keeps. -/
theorem State.stepPosition_kept : ∀ s v1, Kept s ((State.stepPosition s v1).1) := by
  intro s v1
  unfold State.stepPosition
  have h1 := Kept.refl s
  extract_lets +onlyGivenNames -underBinder -merge x1
  have h2 : Kept s x1 := by
    dsimp -zeta only [x1]
    refine Kept.trans ?_ (State.exchangeCodes_kept ..)
    exact h1
  try clear_value x1
  extract_lets +onlyGivenNames -underBinder -merge x2
  try clear_value x2
  extract_lets +onlyGivenNames -underBinder -merge x3
  have h3 : Kept s x3 := by
    dsimp -zeta only [x3]
    refine Kept.ifs (fun _ => ?_) (fun _ => ?_)
    · refine Kept.folds _ (fun t1 x4 h4 => ?_) ?_
      · try dsimp -zeta only
        refine Kept.ifs (fun _ => ?_) (fun _ => ?_)
        · refine Kept.trans ?_ (State.logNote_kept ..)
          exact h4
        · exact h4
      · try dsimp -zeta only
        exact h2
    · exact h2
  try clear_value x3
  try dsimp -zeta only
  exact h3

/-- What State.laneSweep keeps. -/
theorem State.laneSweep_kept : ∀ s r, Kept s (State.laneSweep s r) := by
  intro s r
  unfold State.laneSweep
  refine Kept.folds _ (fun t em h => ?_) (.refl s)
  extract_lets +onlyGivenNames f base st u v
  have hv : Kept s v := ((h.trans (State.modLink_kept ..)).trans (State.logLanes_kept ..)).trans (State.logLanes_kept ..)
  clear_value v
  exact Kept.ifs (fun _ => hv) (fun _ => hv.trans (State.logNote_kept ..))

/-- What State.halvesRetired keeps. -/
theorem State.halvesRetired_kept : ∀ s, Kept s (State.halvesRetired s) := by
  intro s
  unfold State.halvesRetired
  have h1 := Kept.refl s
  refine Kept.folds _ (fun t1 x1 h2 => ?_) ?_
  · try dsimp -zeta only
    refine Kept.trans ?_ (State.modLink_kept ..)
    exact h2
  · try dsimp -zeta only
    exact h1

/-- What State.capExchange keeps. -/
theorem State.capExchange_kept : ∀ s, Kept s ((State.capExchange s).1) := by
  intro s
  unfold State.capExchange
  have h1 := Kept.refl s
  extract_lets +onlyGivenNames -underBinder -merge x1
  try clear_value x1
  extract_lets +onlyGivenNames -underBinder -merge x2
  try clear_value x2
  extract_lets +onlyGivenNames -underBinder -merge x3
  try clear_value x3
  extract_lets +onlyGivenNames -underBinder -merge x4
  try clear_value x4
  extract_lets +onlyGivenNames -underBinder -merge x5
  try clear_value x5
  extract_lets +onlyGivenNames -underBinder -merge x6
  try clear_value x6
  extract_lets +onlyGivenNames -underBinder -merge x7
  try clear_value x7
  extract_lets +onlyGivenNames -underBinder -merge x8
  try clear_value x8
  refine Kept.ite Prod.fst (fun _ => ?_) (fun _ => ?_)
  · try dsimp -zeta only
    exact h1
  · refine Kept.ite Prod.fst (fun _ => ?_) (fun _ => ?_)
    · try dsimp -zeta only
      exact h1
    · extract_lets +onlyGivenNames -underBinder -merge x9
      try clear_value x9
      extract_lets +onlyGivenNames -underBinder -merge x10 x11
      have h2 : Kept s x11 := by
        dsimp -zeta only [x11]
        exact Kept.of (t := s) rfl rfl rfl rfl rfl h1
      try clear_value x10 x11
      extract_lets +onlyGivenNames -underBinder -merge x12
      have h3 : Kept s x12 := by
        dsimp -zeta only [x12]
        refine Kept.ifs (fun _ => ?_) (fun _ => ?_)
        · exact h2
        · refine Kept.trans ?_ (State.logNote_kept ..)
          exact h2
      try clear_value x12
      extract_lets +onlyGivenNames -underBinder -merge x13
      have h4 : Kept s x13 := by
        dsimp -zeta only [x13]
        refine Kept.ifs (fun _ => ?_) (fun _ => ?_)
        · exact h3
        · refine Kept.trans ?_ (State.halvesRetired_kept ..)
          exact h3
      try clear_value x13
      try dsimp -zeta only
      exact h4

/-- What State.stepLinks keeps. -/
theorem State.stepLinks_kept : ∀ s v1, Kept s ((State.stepLinks s v1).1) := by
  intro s v1
  unfold State.stepLinks
  have h1 := Kept.refl s
  extract_lets +onlyGivenNames -underBinder -merge x1
  have h2 : Kept s x1 := by
    dsimp -zeta only [x1]
    refine Kept.trans ?_ (State.laneSweep_kept ..)
    exact h1
  try clear_value x1
  extract_lets +onlyGivenNames -underBinder -merge x2
  have h3 : Kept s x2 := by
    dsimp -zeta only [x2]
    refine Kept.folds _ (fun t1 x3 h4 => ?_) ?_
    · try dsimp -zeta only
      refine Kept.trans ?_ (State.modDie_kept ..)
      exact h4
    · try dsimp -zeta only
      exact h2
  try clear_value x2
  extract_lets +onlyGivenNames -underBinder -merge x4
  try clear_value x4
  refine Kept.ite Prod.fst (fun _ => ?_) (fun _ => ?_)
  · try dsimp -zeta only
    exact h3
  · refine Kept.trans ?_ (State.capExchange_kept ..)
    exact Kept.of (t := x2) rfl rfl rfl rfl rfl h3

/-- What State.stepMemory keeps. -/
theorem State.stepMemory_kept : ∀ s r, Kept s (State.stepMemory s r).1 := by
  intro s r
  unfold State.stepMemory
  extract_lets +onlyGivenNames ctrls
  split
  · exact .refl s
  · extract_lets +onlyGivenNames u gone v
    have hu : Kept s u := Kept.folds _ (fun _ _ h => h.trans (State.modCtrl_kept ..)) (.refl s)
    clear_value u
    have hv : Kept s v := Kept.folds _ (fun _ _ h => (h.trans (State.logNote_kept ..)).trans (State.logNote_kept ..)) hu
    clear_value v
    exact hv.trans ⟨rfl, Nat.le_refl _, id, id, rfl, fun _ => rfl⟩

/-- What State.stepUnits keeps. -/
theorem State.stepUnits_kept : ∀ s v1, Kept s (State.stepUnits s v1) := by
  intro s v1
  unfold State.stepUnits
  have h1 := Kept.refl s
  refine Kept.folds _ (fun t1 x1 h2 => ?_) ?_
  · try dsimp -zeta only
    extract_lets +onlyGivenNames -underBinder -merge x2
    try clear_value x2
    extract_lets +onlyGivenNames -underBinder -merge x3
    try clear_value x3
    extract_lets +onlyGivenNames -underBinder -merge x4
    have h3 : Kept s x4 := by
      dsimp -zeta only [x4]
      refine Kept.trans ?_ (State.modDie_kept ..)
      exact h2
    try clear_value x4
    refine Kept.folds _ (fun t2 x5 h4 => ?_) ?_
    · try dsimp -zeta only
      refine Kept.trans ?_ (State.logNote_kept ..)
      exact h4
    · try dsimp -zeta only
      exact h3
  · try dsimp -zeta only
    exact h1

/-- What State.andThen keeps. -/
theorem State.andThen_kept {s : State} {p : State × Nat} (f : State → State × Nat) (h : Kept s p.1) (hf : ∀ t, Kept t (f t).1) :
    Kept s (State.andThen p f).1 := by
  unfold State.andThen
  exact Kept.ite Prod.fst (fun _ => h.trans (hf _)) (fun _ => h)

/-- What State.selfTest keeps. -/
theorem State.selfTest_kept : ∀ s v1, Kept s ((State.selfTest s v1).1) := by
  intro s v1
  unfold State.selfTest
  have h1 := Kept.refl s
  extract_lets +onlyGivenNames -underBinder -merge x1
  have h2 : Kept s x1.1 := by
    dsimp -zeta only [x1]
    try dsimp -zeta only
    refine Kept.trans ?_ (State.railsUp_kept ..)
    exact h1
  try clear_value x1
  extract_lets +onlyGivenNames -underBinder -merge x2
  have h3 : Kept s x2.1 := by
    dsimp -zeta only [x2]
    refine State.andThen_kept _ ?_ (fun t => ?_)
    · exact h2
    · try dsimp -zeta only
      have h4 := Kept.refl t
      refine Kept.trans ?_ (State.stepPosition_kept ..)
      exact h4
  try clear_value x2
  extract_lets +onlyGivenNames -underBinder -merge x3
  have h5 : Kept s x3.1 := by
    dsimp -zeta only [x3]
    refine State.andThen_kept _ ?_ (fun t => ?_)
    · exact h3
    · try dsimp -zeta only
      have h6 := Kept.refl t
      refine Kept.trans ?_ (State.stepLinks_kept ..)
      exact h6
  try clear_value x3
  extract_lets +onlyGivenNames -underBinder -merge x4
  have h7 : Kept s x4.1 := by
    dsimp -zeta only [x4]
    refine State.andThen_kept _ ?_ (fun t => ?_)
    · exact h5
    · try dsimp -zeta only
      have h8 := Kept.refl t
      refine Kept.trans ?_ (State.stepMemory_kept ..)
      exact h8
  try clear_value x4
  extract_lets +onlyGivenNames -underBinder -merge x5
  have h9 : Kept s x5.1 := by
    dsimp -zeta only [x5]
    refine State.andThen_kept _ ?_ (fun t => ?_)
    · exact h7
    · try dsimp -zeta only
      have h10 := Kept.refl t
      try dsimp -zeta only
      exact h10
  try clear_value x5
  extract_lets +onlyGivenNames -underBinder -merge x6
  have h11 : Kept s x6.1 := by
    dsimp -zeta only [x6]
    refine State.andThen_kept _ ?_ (fun t => ?_)
    · exact h9
    · try dsimp -zeta only
      have h12 := Kept.refl t
      try dsimp -zeta only
      refine Kept.trans ?_ (State.stepUnits_kept ..)
      exact h12
  try clear_value x6
  extract_lets +onlyGivenNames -underBinder -merge x7
  have h13 : Kept s x7.1 := by
    dsimp -zeta only [x7]
    refine State.andThen_kept _ ?_ (fun t => ?_)
    · exact h11
    · try dsimp -zeta only
      have h14 := Kept.refl t
      try dsimp -zeta only
      refine Kept.trans ?_ (State.freshKey_kept ..)
      exact h14
  try clear_value x7
  refine State.andThen_kept _ ?_ (fun t => ?_)
  · exact h13
  · try dsimp -zeta only
    have h15 := Kept.refl t
    refine Kept.trans ?_ (State.osStep_kept ..)
    exact h15

/-- What State.started keeps. -/
theorem State.started_kept : ∀ s r b, Kept s (State.started s r b) := by
  intro s r b
  unfold State.started
  extract_lets +onlyGivenNames u x v
  have hu : Kept s u := Kept.folds _ (fun _ _ h => h.trans (State.modCtrl_kept ..)) (.refl s)
  clear_value u
  have hv : Kept s v := Kept.of (t := u) rfl rfl rfl rfl rfl hu
  clear_value x v
  refine Kept.ifs (fun _ => Kept.trans ?_ (State.fwEvent_kept ..)) (fun _ => Kept.ifs (fun _ => ?_) (fun _ => hv))
  · exact Kept.of (t := v) rfl rfl rfl rfl rfl hv
  · exact hv.trans ⟨rfl, Nat.le_max_left _ _, id, id, rfl, id⟩

/-- What State.romBoot keeps. -/
theorem State.romBoot_kept : ∀ s v1, Kept s (State.romBoot s v1).1 := by
  intro s v1
  unfold State.romBoot
  dsimp only
  refine Kept.ite Prod.fst (fun _ => Kept.of (t := s) rfl rfl rfl rfl rfl (.refl s)) (fun _ => ?_)
  split
  · exact Kept.of (t := s) rfl rfl rfl rfl rfl (.refl s)
  · exact Kept.ite Prod.fst (fun _ => Kept.of (t := s) rfl rfl rfl rfl rfl (.refl s)) (fun _ => Kept.of (t := s) rfl rfl rfl rfl rfl (.refl s))

/-- What State.fullStart keeps. -/
theorem State.fullStart_kept : ∀ s v1 v2, Kept s (State.fullStart s v1 v2) := by
  intro s v1 v2
  unfold State.fullStart
  have h1 := Kept.refl s
  extract_lets +onlyGivenNames -underBinder -merge x1 x2 x3
  have h2 : Kept s x3 := by
    dsimp -zeta only [x3]
    exact Kept.of (t := s) rfl rfl rfl rfl rfl h1
  try clear_value x1 x2 x3
  extract_lets +onlyGivenNames -underBinder -merge x4
  have h3 : Kept s x4.1 := by
    dsimp -zeta only [x4]
    refine State.andThen_kept _ ?_ (fun t => ?_)
    · refine Kept.trans ?_ (State.romBoot_kept ..)
      exact h2
    · try dsimp -zeta only
      have h4 := Kept.refl t
      refine Kept.trans ?_ (State.selfTest_kept ..)
      exact h4
  try clear_value x4
  refine Kept.ifs (fun _ => ?_) (fun _ => ?_)
  · refine Kept.trans ?_ (State.started_kept ..)
    exact h3
  · refine Kept.trans ?_ (State.failStart_kept ..)
    exact h3

/-- What State.coldStart keeps. -/
theorem State.coldStart_kept : ∀ s v1, Kept s (State.coldStart s v1) := by
  intro s v1
  unfold State.coldStart
  have h1 := Kept.refl s
  extract_lets +onlyGivenNames -underBinder -merge x1 x2
  have h2 : Kept s x2 := by
    dsimp -zeta only [x2]
    exact Kept.of (t := s) rfl rfl rfl rfl rfl h1
  try clear_value x1 x2
  refine Kept.trans ?_ (State.fullStart_kept ..)
  refine Kept.trans ?_ (State.logReset_kept ..)
  exact h2

/-- What execPowerOn keeps. -/
theorem execPowerOn_kept : ∀ v0 s, Kept s (outOr s ((execPowerOn v0 s))) := by
  intro v0 s
  unfold execPowerOn
  have h1 := Kept.refl s
  refine Kept.ite (outOr s) (fun _ => ?_) (fun _ => ?_)
  · refine Kept.next ?_
    exact h1
  · extract_lets +onlyGivenNames -underBinder -merge x1 x2
    have h2 : Kept s x2 := by
      dsimp -zeta only [x2]
      exact Kept.of (t := s) rfl rfl rfl rfl rfl h1
    try clear_value x1 x2
    refine Kept.next ?_
    refine Kept.ifs (fun _ => ?_) (fun _ => ?_)
    · refine Kept.trans ?_ (State.coldStart_kept ..)
      exact h2
    · exact h2

/-- What execResetNRelease keeps. -/
theorem execResetNRelease_kept : ∀ v0 s, Kept s (outOr s ((execResetNRelease v0 s))) := by
  intro v0 s
  unfold execResetNRelease
  have h1 := Kept.refl s
  refine Kept.ite (outOr s) (fun _ => ?_) (fun _ => ?_)
  · refine Kept.next ?_
    exact h1
  · extract_lets +onlyGivenNames -underBinder -merge x1 x2
    have h2 : Kept s x2 := by
      dsimp -zeta only [x2]
      exact Kept.of (t := s) rfl rfl rfl rfl rfl h1
    try clear_value x1 x2
    refine Kept.next ?_
    refine Kept.ifs (fun _ => ?_) (fun _ => ?_)
    · refine Kept.trans ?_ (State.coldStart_kept ..)
      exact h2
    · exact h2

/-- What State.startLost keeps. -/
theorem State.startLost_kept : ∀ s v1, Kept s (State.startLost s v1) := by
  intro s v1
  unfold State.startLost
  have h1 := Kept.refl s
  refine Kept.ifs (fun _ => ?_) (fun _ => ?_)
  · exact h1
  · refine Kept.trans ?_ (State.failStart_kept ..)
    exact h1

/-- What execCapabilityExchangeTimeout keeps. -/
theorem execCapabilityExchangeTimeout_kept : ∀ v0 s, Kept s (outOr s ((execCapabilityExchangeTimeout v0 s))) := by
  intro v0 s
  unfold execCapabilityExchangeTimeout
  have h1 := Kept.refl s
  refine Kept.next ?_
  refine Kept.trans ?_ (State.startLost_kept ..)
  exact h1

/-- What execSelfTestStepTimeout keeps. -/
theorem execSelfTestStepTimeout_kept : ∀ v0 s, Kept s (outOr s ((execSelfTestStepTimeout v0 s))) := by
  intro v0 s
  unfold execSelfTestStepTimeout
  have h1 := Kept.refl s
  refine Kept.ite (outOr s) (fun _ => ?_) (fun _ => ?_)
  · refine Kept.next ?_
    exact h1
  · refine Kept.next ?_
    refine Kept.trans ?_ (State.startLost_kept ..)
    exact h1

/-- What execFirmwareRecoveryTimeout keeps. -/
theorem execFirmwareRecoveryTimeout_kept : ∀ v0 s, Kept s (outOr s ((execFirmwareRecoveryTimeout v0 s))) := by
  intro v0 s
  unfold execFirmwareRecoveryTimeout
  have h1 := Kept.refl s
  refine Kept.ite (outOr s) (fun _ => ?_) (fun _ => ?_)
  · refine Kept.next ?_
    exact h1
  · extract_lets +onlyGivenNames -underBinder -merge x1 x2 x3
    have h2 : Kept s x3 := by
      dsimp -zeta only [x3]
      exact Kept.of (t := s) rfl rfl rfl rfl rfl h1
    try clear_value x1 x2 x3
    refine Kept.next ?_
    refine Kept.trans ?_ (State.startLost_kept ..)
    exact h2

/-- What State.linksBack keeps. -/
theorem State.linksBack_kept : ∀ s v1, Kept s (State.linksBack s v1) := by
  intro s v1
  unfold State.linksBack
  have h1 := Kept.refl s
  refine Kept.folds _ (fun t1 x1 h2 => ?_) ?_
  · try dsimp -zeta only
    extract_lets +onlyGivenNames -underBinder -merge x2
    try clear_value x2
    refine Kept.trans ?_ (State.modLink_kept ..)
    exact h2
  · try dsimp -zeta only
    exact h1

/-- What State.chansUnfenced keeps. -/
theorem State.chansUnfenced_kept : ∀ s, Kept s (State.chansUnfenced s) := by
  intro s
  unfold State.chansUnfenced
  have h1 := Kept.refl s
  refine Kept.folds _ (fun t1 x1 h2 => ?_) ?_
  · try dsimp -zeta only
    refine Kept.trans ?_ (State.modCtrl_kept ..)
    exact h2
  · try dsimp -zeta only
    exact h1

/-- What State.channelsFail keeps. -/
theorem State.channelsFail_kept : ∀ s r, Kept s (State.channelsFail s r) := by
  intro s r
  unfold State.channelsFail
  refine Kept.folds _ (fun t e h => ?_) (.refl s)
  have g : Kept s ((maskBits (ctrlChans e.1) e.2.toNat).foldl (fun s ch => s.fenceChannel e.1 ch) t) :=
    Kept.folds _ (fun _ _ h => h.trans (State.fenceChannel_kept ..)) h
  generalize (maskBits (ctrlChans e.1) e.2.toNat).foldl (fun s ch => s.fenceChannel e.1 ch) t = u at g
  exact Kept.ifs (fun _ => g) (fun _ => Kept.of (t := u) rfl rfl rfl rfl rfl g)

/-- What State.exitEarly keeps. -/
theorem State.exitEarly_kept : ∀ s v1, Kept s ((State.exitEarly s v1).1) := by
  intro s v1
  unfold State.exitEarly
  have h1 := Kept.refl s
  extract_lets +onlyGivenNames -underBinder -merge x1
  have h2 : Kept s x1.1 := by
    dsimp -zeta only [x1]
    refine Kept.trans ?_ (State.stepPosition_kept ..)
    exact h1
  try clear_value x1
  try dsimp -zeta only
  exact h2

/-- What State.exitLate keeps. -/
theorem State.exitLate_kept : ∀ s v1, Kept s ((State.exitLate s v1).1) := by
  intro s v1
  unfold State.exitLate
  have h1 := Kept.refl s
  extract_lets +onlyGivenNames -underBinder -merge x1
  have h2 : Kept s x1 := by
    dsimp -zeta only [x1]
    refine Kept.trans ?_ (State.linksBack_kept ..)
    exact h1
  try clear_value x1
  try dsimp -zeta only
  exact h2

/-- What State.exitBoot keeps. -/
theorem State.exitBoot_kept : ∀ s v1, Kept s ((State.exitBoot s v1).1) := by
  intro s v1
  unfold State.exitBoot
  have h1 := Kept.refl s
  extract_lets +onlyGivenNames -underBinder -merge x1
  have h2 : Kept s x1 := by
    dsimp -zeta only [x1]
    refine Kept.trans ?_ (State.debugEnd_kept ..)
    refine Kept.trans ?_ (State.freshKey_kept ..)
    refine Kept.trans ?_ (State.destroyKeys_kept ..)
    refine Kept.trans ?_ (State.channelsFail_kept ..)
    refine Kept.trans ?_ (State.chansUnfenced_kept ..)
    exact h1
  try clear_value x1
  refine Kept.trans ?_ (State.osStep_kept ..)
  exact Kept.of (t := x1) rfl rfl rfl rfl rfl h2

/-- What State.warmExit keeps. -/
theorem State.warmExit_kept : ∀ s v1, Kept s (State.warmExit s v1) := by
  intro s v1
  unfold State.warmExit
  have h1 := Kept.refl s
  extract_lets +onlyGivenNames -underBinder -merge x1
  have h2 : Kept s x1.1 := by
    dsimp -zeta only [x1]
    refine State.andThen_kept _ ?_ (fun t => ?_)
    · refine Kept.trans ?_ (State.exitEarly_kept ..)
      refine Kept.trans ?_ (State.railsUp_kept ..)
      exact h1
    · try dsimp -zeta only
      have h3 := Kept.refl t
      refine Kept.trans ?_ (State.exitLate_kept ..)
      exact h3
  try clear_value x1
  extract_lets +onlyGivenNames -underBinder -merge x2
  have h4 : Kept s x2.1 := by
    dsimp -zeta only [x2]
    refine State.andThen_kept _ ?_ (fun t => ?_)
    · exact h2
    · try dsimp -zeta only
      have h5 := Kept.refl t
      refine Kept.trans ?_ (State.exitBoot_kept ..)
      exact h5
  try clear_value x2
  refine Kept.ifs (fun _ => ?_) (fun _ => ?_)
  · exact h4
  · refine Kept.trans ?_ (State.pilotAt_kept ..)
    refine Kept.trans ?_ (State.domainsOff_kept ..)
    exact h4

/-- What State.pilotExit keeps. -/
theorem State.pilotExit_kept : ∀ s v1, Kept s (State.pilotExit s v1) := by
  intro s v1
  unfold State.pilotExit
  have h1 := Kept.refl s
  extract_lets +onlyGivenNames -underBinder -merge x1 x2 x3
  have h2 : Kept s x3 := by
    dsimp -zeta only [x3]
    exact Kept.of (t := s) rfl rfl rfl rfl rfl h1
  try clear_value x1 x2 x3
  refine Kept.ifs (fun _ => ?_) (fun _ => ?_)
  · refine Kept.trans ?_ (State.warmExit_kept ..)
    exact h2
  · extract_lets +onlyGivenNames -underBinder -merge x4
    have h3 : Kept s x4 := by
      dsimp -zeta only [x4]
      refine Kept.trans ?_ (State.darkPool_kept ..)
      refine Kept.trans ?_ (State.darkDies_kept ..)
      refine Kept.trans ?_ (State.debugEnd_kept ..)
      refine Kept.trans ?_ (State.destroyKeys_kept ..)
      exact h2
    try clear_value x4
    refine Kept.trans ?_ (State.fullStart_kept ..)
    exact Kept.of (t := x4) rfl rfl rfl rfl rfl h3

/-- What State.haltRecords keeps. -/
theorem State.haltRecords_kept : ∀ s, Kept s (State.haltRecords s) := by
  intro s
  unfold State.haltRecords
  have h1 := Kept.refl s
  refine Kept.folds _ (fun t1 x1 h2 => ?_) ?_
  · try dsimp -zeta only
    refine Kept.folds _ (fun t2 x2 h3 => ?_) ?_
    · try dsimp -zeta only
      split
      · refine Kept.trans ?_ (State.wqRecord_kept ..)
        exact h3
      · exact h3
    · try dsimp -zeta only
      exact h2
  · try dsimp -zeta only
    exact h1

/-- What State.haltAborts keeps. -/
theorem State.haltAborts_kept : ∀ s, Kept s (State.haltAborts s) := by
  intro s
  unfold State.haltAborts
  have h1 := Kept.refl s
  refine Kept.folds _ (fun t1 x1 h2 => ?_) ?_
  · try dsimp -zeta only
    refine Kept.folds _ (fun t2 x2 h3 => ?_) ?_
    · try dsimp -zeta only
      refine Kept.folds _ (fun t3 x3 h4 => ?_) ?_
      · try dsimp -zeta only
        extract_lets +onlyGivenNames -underBinder -merge x4
        try clear_value x4
        refine Kept.ifs (fun _ => ?_) (fun _ => ?_)
        · exact h4
        · refine Kept.trans ?_ (State.recordAbort_kept ..)
          exact h4
      · try dsimp -zeta only
        exact h3
    · try dsimp -zeta only
      exact h2
  · try dsimp -zeta only
    exact h1

/-- What State.cancelControls keeps. -/
theorem State.cancelControls_kept : ∀ s v1, Kept s (State.cancelControls s v1) := by
  intro s v1
  unfold State.cancelControls
  have h1 := Kept.refl s
  extract_lets +onlyGivenNames -underBinder -merge x1
  have h2 : Kept s x1 := by
    dsimp -zeta only [x1]
    refine Kept.trans ?_ (State.beaconCancel_kept ..)
    exact h1
  try clear_value x1
  split
  · exact h2
  · extract_lets +onlyGivenNames -underBinder -merge x2
    have h3 : Kept s x2 := by
      dsimp -zeta only [x2]
      split
      · refine Kept.trans ?_ (State.respond_kept ..)
        exact h2
      · exact h2
    try clear_value x2
    extract_lets +onlyGivenNames -underBinder -merge x3
    have h4 : Kept s x3 := by
      dsimp -zeta only [x3]
      split
      · refine Kept.trans ?_ (State.respond_kept ..)
        exact h3
      · exact h3
    try clear_value x3
    refine Kept.trans ?_ (State.modJob_kept ..)
    exact h4

/-- What State.haltAll keeps. -/
theorem State.haltAll_kept : ∀ s, Kept s (State.haltAll s) := by
  intro s
  unfold State.haltAll
  have h1 := Kept.refl s
  extract_lets +onlyGivenNames -underBinder -merge x1
  have h2 : Kept s x1 := by
    dsimp -zeta only [x1]
    refine Kept.trans ?_ (State.cancelControls_kept ..)
    exact h1
  try clear_value x1
  extract_lets +onlyGivenNames -underBinder -merge x2
  try clear_value x2
  extract_lets +onlyGivenNames -underBinder -merge x3
  have h3 : Kept s x3 := by
    dsimp -zeta only [x3]
    refine Kept.trans ?_ (State.haltAborts_kept ..)
    exact h2
  try clear_value x3
  extract_lets +onlyGivenNames -underBinder -merge x4
  have h4 : Kept s x4 := by
    dsimp -zeta only [x4]
    refine Kept.folds _ (fun t1 x5 h5 => ?_) ?_
    · try dsimp -zeta only
      refine Kept.trans ?_ (State.send_kept ..)
      exact h5
    · try dsimp -zeta only
      exact h3
  try clear_value x4
  extract_lets +onlyGivenNames -underBinder -merge x6
  have h6 : Kept s x6 := by
    dsimp -zeta only [x6]
    refine Kept.trans ?_ (State.haltRecords_kept ..)
    exact h4
  try clear_value x6
  extract_lets +onlyGivenNames -underBinder -merge x7
  try clear_value x7
  extract_lets +onlyGivenNames -underBinder -merge x8
  have h7 : Kept s x8 := by
    dsimp -zeta only [x8]
    refine Kept.trans ?_ (State.mapWork_kept ..)
    exact h6
  try clear_value x8
  refine Kept.ifs (fun _ => ?_) (fun _ => ?_)
  · refine Kept.trans ?_ (State.jobEnds_kept ..)
    refine Kept.trans ?_ (State.modJob_kept ..)
    exact h7
  · exact h7

/-- What State.restartDown keeps. -/
theorem State.restartDown_kept : ∀ s v1, Kept s (State.restartDown s v1) := by
  intro s v1
  unfold State.restartDown
  have h1 := Kept.refl s
  extract_lets +onlyGivenNames -underBinder -merge x1 x2
  have h2 : Kept s x2 := by
    dsimp -zeta only [x2]
    exact Kept.of (t := s) rfl rfl rfl rfl rfl h1
  try clear_value x1 x2
  extract_lets +onlyGivenNames -underBinder -merge x3
  have h3 : Kept s x3 := by
    dsimp -zeta only [x3]
    refine Kept.trans ?_ (State.hdEvent_kept ..)
    exact h2
  try clear_value x3
  extract_lets +onlyGivenNames -underBinder -merge x4
  have h4 : Kept s x4 := by
    dsimp -zeta only [x4]
    refine Kept.trans ?_ (State.haltAll_kept ..)
    exact h3
  try clear_value x4
  extract_lets +onlyGivenNames -underBinder -merge x5
  have h5 : Kept s x5 := by
    dsimp -zeta only [x5]
    refine Kept.folds _ (fun t1 x6 h6 => ?_) ?_
    · try dsimp -zeta only
      refine Kept.trans ?_ (State.dcFlushAll_kept ..)
      exact h6
    · try dsimp -zeta only
      refine Kept.trans ?_ (State.drainHd_kept ..)
      exact h4
  try clear_value x5
  extract_lets +onlyGivenNames -underBinder -merge x7
  have h7 : Kept s x7 := by
    dsimp -zeta only [x7]
    refine Kept.trans ?_ (State.logReset_kept ..)
    exact h5
  try clear_value x7
  extract_lets +onlyGivenNames -underBinder -merge x8 x9 x10
  have h8 : Kept s x10 := by
    dsimp -zeta only [x10]
    exact Kept.of (t := x7) rfl rfl rfl rfl rfl h7
  try clear_value x8 x9 x10
  extract_lets +onlyGivenNames -underBinder -merge x11
  have h9 : Kept s x11 := by
    dsimp -zeta only [x11]
    refine Kept.trans ?_ (State.hdReset_kept ..)
    refine Kept.trans ?_ (State.selfRefresh_kept ..)
    refine Kept.trans ?_ (State.sealStep_kept ..)
    exact h8
  try clear_value x11
  refine Kept.trans ?_ (State.logsCopy_kept ..)
  exact Kept.of (t := x11) rfl rfl rfl rfl rfl h9

/-- What State.hostRestart keeps. -/
theorem State.hostRestart_kept : ∀ s v1 v2, Kept s (State.hostRestart s v1 v2) := by
  intro s v1 v2
  unfold State.hostRestart
  have h1 := Kept.refl s
  extract_lets +onlyGivenNames -underBinder -merge x1
  have h2 : Kept s x1 := by
    dsimp -zeta only [x1]
    refine Kept.trans ?_ (State.restartDown_kept ..)
    exact h1
  try clear_value x1
  refine Kept.ifs (fun _ => ?_) (fun _ => ?_)
  · refine Kept.trans ?_ (State.pilotAt_kept ..)
    refine Kept.trans ?_ (State.debugEnd_kept ..)
    refine Kept.trans ?_ (State.domainsOff_kept ..)
    exact h2
  · extract_lets +onlyGivenNames -underBinder -merge x2
    have h3 : Kept s x2.1 := by
      dsimp -zeta only [x2]
      refine Kept.trans ?_ (State.osStep_kept ..)
      refine Kept.trans ?_ (State.chansUnfenced_kept ..)
      exact h2
    try clear_value x2
    refine Kept.ifs (fun _ => ?_) (fun _ => ?_)
    · extract_lets +onlyGivenNames -underBinder -merge x3 x4 x5
      have h4 : Kept s x3 := by
        dsimp -zeta only [x3]
        exact h3
      have h5 : Kept s x5 := by
        dsimp -zeta only [x5]
        exact Kept.of (t := x3) rfl rfl rfl rfl rfl h4
      try clear_value x3 x4 x5
      refine Kept.trans ?_ (State.hdEvent_kept ..)
      exact h5
    · refine Kept.trans ?_ (State.pilotAt_kept ..)
      refine Kept.trans ?_ (State.debugEnd_kept ..)
      refine Kept.trans ?_ (State.domainsOff_kept ..)
      exact h2

/-- What execHeartbeatPeriodExpiry keeps. -/
theorem execHeartbeatPeriodExpiry_kept : ∀ v0 s, Kept s (outOr s ((execHeartbeatPeriodExpiry v0 s))) := by
  intro v0 s
  unfold execHeartbeatPeriodExpiry
  have h1 := Kept.refl s
  refine Kept.ite (outOr s) (fun _ => ?_) (fun _ => ?_)
  · refine Kept.next ?_
    exact h1
  · extract_lets +onlyGivenNames -underBinder -merge x1
    try clear_value x1
    extract_lets +onlyGivenNames -underBinder -merge x2 x3
    have h2 : Kept s x3 := by
      dsimp -zeta only [x3]
      exact Kept.of (t := s) rfl rfl rfl rfl rfl h1
    try clear_value x2 x3
    extract_lets +onlyGivenNames -underBinder -merge x4
    have h3 : Kept s x4 := by
      dsimp -zeta only [x4]
      refine Kept.ifs (fun _ => ?_) (fun _ => ?_)
      · refine Kept.trans ?_ (State.raiseWired_kept ..)
        exact h2
      · exact h2
    try clear_value x4
    refine Kept.next ?_
    refine Kept.ifs (fun _ => ?_) (fun _ => ?_)
    · refine Kept.trans ?_ (State.hostRestart_kept ..)
      refine Kept.trans ?_ (State.wake_kept ..)
      exact h3
    · exact h3

/-- What execHostHbRestart keeps. -/
theorem execHostHbRestart_kept : ∀ v0 s, Kept s (outOr s ((execHostHbRestart v0 s))) := by
  intro v0 s
  unfold execHostHbRestart
  have h1 := Kept.refl s
  refine Kept.ite (outOr s) (fun _ => ?_) (fun _ => ?_)
  · refine Kept.next ?_
    exact h1
  · refine Kept.next ?_
    refine Kept.trans ?_ (State.hostRestart_kept ..)
    refine Kept.trans ?_ (State.wake_kept ..)
    exact h1

/-- What execTileDieReset keeps. -/
theorem execTileDieReset_kept : ∀ v0 v1 s, Kept s (outOr s ((execTileDieReset v0 v1 s))) := by
  intro v0 v1 s
  unfold execTileDieReset
  have h1 := Kept.refl s
  extract_lets +onlyGivenNames -underBinder -merge x1
  try clear_value x1
  extract_lets +onlyGivenNames -underBinder -merge x2
  have h2 : Kept s x2 := by
    dsimp -zeta only [x2]
    refine Kept.trans ?_ (State.dcFlushAll_kept ..)
    exact h1
  try clear_value x2
  extract_lets +onlyGivenNames -underBinder -merge x3
  have h3 : Kept s x3 := by
    dsimp -zeta only [x3]
    refine Kept.trans ?_ (State.logReset_kept ..)
    exact h2
  try clear_value x3
  extract_lets +onlyGivenNames -underBinder -merge x4
  try clear_value x4
  extract_lets +onlyGivenNames -underBinder -merge x5 x6
  have h4 : Kept s x6 := by
    dsimp -zeta only [x6]
    exact Kept.of (t := x3) rfl rfl rfl rfl rfl h3
  try clear_value x5 x6
  extract_lets +onlyGivenNames -underBinder -merge x7
  have h5 : Kept s x7 := by
    dsimp -zeta only [x7]
    refine Kept.trans ?_ (State.modDie_kept ..)
    exact h4
  try clear_value x7
  extract_lets +onlyGivenNames -underBinder -merge x8
  have h6 : Kept s x8 := by
    dsimp -zeta only [x8]
    refine Kept.folds _ (fun t1 x9 h7 => ?_) ?_
    · try dsimp -zeta only
      refine Kept.trans ?_ (State.modTile_kept ..)
      exact h7
    · try dsimp -zeta only
      exact h5
  try clear_value x8
  extract_lets +onlyGivenNames -underBinder -merge x10
  have h8 : Kept s x10.1 := by
    dsimp -zeta only [x10]
    refine Kept.trans ?_ (State.capExchange_kept ..)
    refine Kept.trans ?_ (State.jobSettle_kept ..)
    exact h6
  try clear_value x10
  refine Kept.next ?_
  refine Kept.ifs (fun _ => ?_) (fun _ => ?_)
  · exact h8
  · refine Kept.trans ?_ (State.enterPilot_kept ..)
    exact h6

/-! ## Lantern -/

/-- What State.countMalformed keeps. -/
theorem State.countMalformed_kept : ∀ s v1, Kept s (State.countMalformed s v1) := by
  intro s v1
  unfold State.countMalformed
  have h1 := Kept.refl s
  extract_lets +onlyGivenNames -underBinder -merge x1
  try clear_value x1
  extract_lets +onlyGivenNames -underBinder -merge x2
  try clear_value x2
  extract_lets +onlyGivenNames -underBinder -merge x3
  have h2 : Kept s x3 := by
    dsimp -zeta only [x3]
    refine Kept.trans ?_ (State.modBox_kept ..)
    exact h1
  try clear_value x3
  refine Kept.ifs (fun _ => ?_) (fun _ => ?_)
  · refine Kept.trans ?_ (State.hdEvent_kept ..)
    refine Kept.trans ?_ (State.modBox_kept ..)
    exact h2
  · exact h2

/-- What State.reject keeps. -/
theorem State.reject_kept : ∀ s v1 v2 v3 v4 v5, Kept s (State.reject s v1 v2 v3 v4 v5) := by
  intro s v1 v2 v3 v4 v5
  unfold State.reject
  have h1 := Kept.refl s
  refine Kept.trans ?_ (State.post_kept ..)
  exact h1

/-- What State.malformedAnswer keeps. -/
theorem State.malformedAnswer_kept : ∀ s v1 v2, Kept s (State.malformedAnswer s v1 v2) := by
  intro s v1 v2
  unfold State.malformedAnswer
  have h1 := Kept.refl s
  refine Kept.trans ?_ (State.reject_kept ..)
  refine Kept.trans ?_ (State.countMalformed_kept ..)
  exact h1

/-- What State.answerNow keeps. -/
theorem State.answerNow_kept : ∀ s v1 v2 v3 v4, Kept s (State.answerNow s v1 v2 v3 v4) := by
  intro s v1 v2 v3 v4
  unfold State.answerNow
  have h1 := Kept.refl s
  refine Kept.trans ?_ (State.respond_kept ..)
  refine Kept.trans ?_ (State.modBox_kept ..)
  exact h1

/-- What State.accept keeps. -/
theorem State.accept_kept : ∀ s v1 v2, Kept s (State.accept s v1 v2) := by
  intro s v1 v2
  unfold State.accept
  have h1 := Kept.refl s
  extract_lets +onlyGivenNames -underBinder -merge x1
  try clear_value x1
  extract_lets +onlyGivenNames -underBinder -merge x2
  try clear_value x2
  refine Kept.ifs (fun _ => ?_) (fun _ => ?_)
  · refine Kept.trans ?_ (State.malformedAnswer_kept ..)
    exact h1
  · refine Kept.ifs (fun _ => ?_) (fun _ => ?_)
    · refine Kept.trans ?_ (State.reject_kept ..)
      exact h1
    · refine Kept.ifs (fun _ => ?_) (fun _ => ?_)
      · refine Kept.trans ?_ (State.answerNow_kept ..)
        exact h1
      · split
        · refine Kept.trans ?_ (State.answerNow_kept ..)
          exact h1
        · refine Kept.ifs (fun _ => ?_) (fun _ => ?_)
          · refine Kept.trans ?_ (State.answerNow_kept ..)
            exact h1
          · refine Kept.ifs (fun _ => ?_) (fun _ => ?_)
            · refine Kept.trans ?_ (State.answerNow_kept ..)
              exact h1
            · refine Kept.ifs (fun _ => ?_) (fun _ => ?_)
              · refine Kept.trans ?_ (State.malformedAnswer_kept ..)
                exact h1
              · refine Kept.ifs (fun _ => ?_) (fun _ => ?_)
                · refine Kept.trans ?_ (State.answerNow_kept ..)
                  exact h1
                · extract_lets +onlyGivenNames -underBinder -merge x3
                  have h2 : Kept s x3 := by
                    dsimp -zeta only [x3]
                    refine Kept.trans ?_ (State.modBox_kept ..)
                    exact h1
                  try clear_value x3
                  exact Kept.of (t := x3) rfl rfl rfl rfl rfl h2

/-- What State.receive keeps. -/
theorem State.receive_kept : ∀ s v1 v2, Kept s (State.receive s v1 v2) := by
  intro s v1 v2
  unfold State.receive
  have h1 := Kept.refl s
  extract_lets +onlyGivenNames -underBinder -merge x1
  try clear_value x1
  extract_lets +onlyGivenNames -underBinder -merge x2
  try clear_value x2
  refine Kept.ifs (fun _ => ?_) (fun _ => ?_)
  · refine Kept.trans ?_ (State.modBox_kept ..)
    refine Kept.trans ?_ (State.countMalformed_kept ..)
    exact h1
  · extract_lets +onlyGivenNames -underBinder -merge x3
    have h2 : Kept s x3 := by
      dsimp -zeta only [x3]
      refine Kept.ifs (fun _ => ?_) (fun _ => ?_)
      · refine Kept.trans ?_ (State.modBox_kept ..)
        exact h1
      · exact h1
    try clear_value x3
    refine Kept.ifs (fun _ => ?_) (fun _ => ?_)
    · refine Kept.trans ?_ (State.reject_kept ..)
      exact h2
    · refine Kept.trans ?_ (State.accept_kept ..)
      exact h2

/-- What execMbxReqDb keeps. -/
theorem execMbxReqDb_kept : ∀ v0 v1 s, Kept s (outOr s ((execMbxReqDb v0 v1 s))) := by
  intro v0 v1 s
  unfold execMbxReqDb
  have h1 := Kept.refl s
  extract_lets +onlyGivenNames -underBinder -merge x1
  try clear_value x1
  extract_lets +onlyGivenNames -underBinder -merge x2
  try clear_value x2
  extract_lets +onlyGivenNames -underBinder -merge x3
  try clear_value x3
  extract_lets +onlyGivenNames -underBinder -merge x4
  try clear_value x4
  refine Kept.ite (outOr s) (fun _ => ?_) (fun _ => ?_)
  · refine Kept.next ?_
    exact h1
  · refine Kept.ite (outOr s) (fun _ => ?_) (fun _ => ?_)
    · refine Kept.next ?_
      refine Kept.trans ?_ (State.countMalformed_kept ..)
      exact h1
    · refine Kept.ite (outOr s) (fun _ => ?_) (fun _ => ?_)
      · refine Kept.next ?_
        refine Kept.trans ?_ (State.modBox_kept ..)
        exact h1
      · refine Kept.next ?_
        refine Kept.trans ?_ (State.receive_kept ..)
        exact h1

/-- What execMgRequest keeps. -/
theorem execMgRequest_kept : ∀ v0 v1 s, Kept s (outOr s ((execMgRequest v0 v1 s))) := by
  intro v0 v1 s
  unfold execMgRequest
  have h1 := Kept.refl s
  refine Kept.ite (outOr s) (fun _ => ?_) (fun _ => ?_)
  · refine Kept.next ?_
    exact h1
  · extract_lets +onlyGivenNames -underBinder -merge x1
    have h2 : Kept s x1 := by
      dsimp -zeta only [x1]
      split
      · exact Kept.of (t := s) rfl rfl rfl rfl rfl h1
      · exact h1
    try clear_value x1
    refine Kept.ite (outOr s) (fun _ => ?_) (fun _ => ?_)
    · refine Kept.next ?_
      refine Kept.trans ?_ (State.modBox_kept ..)
      exact h2
    · refine Kept.next ?_
      refine Kept.trans ?_ (State.receive_kept ..)
      exact h2

/-- What State.takeHeld keeps. -/
theorem State.takeHeld_kept : ∀ s, Kept s (State.takeHeld s) := by
  intro s
  unfold State.takeHeld
  have h1 := Kept.refl s
  refine Kept.folds _ (fun t1 x1 h2 => ?_) ?_
  · try dsimp -zeta only
    extract_lets +onlyGivenNames -underBinder -merge x2
    try clear_value x2
    refine Kept.folds _ (fun t2 x3 h3 => ?_) ?_
    · try dsimp -zeta only
      refine Kept.trans ?_ (State.receive_kept ..)
      exact h3
    · try dsimp -zeta only
      refine Kept.trans ?_ (State.modBox_kept ..)
      exact h2
  · try dsimp -zeta only
    exact h1

/-- What execDtlsAssociationClose keeps. -/
theorem execDtlsAssociationClose_kept : ∀ v0 s, Kept s (outOr s ((execDtlsAssociationClose v0 s))) := by
  intro v0 s
  unfold execDtlsAssociationClose
  have h1 := Kept.refl s
  extract_lets +onlyGivenNames -underBinder -merge x1
  have h2 : Kept s x1 := by
    dsimp -zeta only [x1]
    refine Kept.trans ?_ (State.modBox_kept ..)
    exact h1
  try clear_value x1
  refine Kept.next ?_
  exact Kept.of (t := x1) rfl rfl rfl rfl rfl h2

/-- What execMbxRspAck keeps. -/
theorem execMbxRspAck_kept : ∀ v0 s, Kept s (outOr s ((execMbxRspAck v0 s))) := by
  intro v0 s
  unfold execMbxRspAck
  have h1 := Kept.refl s
  extract_lets +onlyGivenNames -underBinder -merge x1
  try clear_value x1
  split
  · refine Kept.next ?_
    exact h1
  · extract_lets +onlyGivenNames -underBinder -merge x2
    have h2 : Kept s x2 := by
      dsimp -zeta only [x2]
      refine Kept.trans ?_ (State.modBox_kept ..)
      exact h1
    try clear_value x2
    refine Kept.next ?_
    refine Kept.ifs (fun _ => ?_) (fun _ => ?_)
    · refine Kept.trans ?_ (State.rspNotify_kept ..)
      exact h2
    · exact h2

/-- What execMbxEvtTail keeps. -/
theorem execMbxEvtTail_kept : ∀ v0 v1 s, Kept s (outOr s ((execMbxEvtTail v0 v1 s))) := by
  intro v0 v1 s
  unfold execMbxEvtTail
  have h1 := Kept.refl s
  extract_lets +onlyGivenNames -underBinder -merge x1
  try clear_value x1
  extract_lets +onlyGivenNames -underBinder -merge x2
  try clear_value x2
  refine Kept.ite (outOr s) (fun _ => ?_) (fun _ => ?_)
  · refine Kept.next ?_
    refine Kept.trans ?_ (State.modBox_kept ..)
    exact h1
  · refine Kept.next ?_
    refine Kept.trans ?_ (State.countMalformed_kept ..)
    exact h1

/-- What execMailboxThrottleEnd keeps. -/
theorem execMailboxThrottleEnd_kept : ∀ v0 s, Kept s (outOr s ((execMailboxThrottleEnd v0 s))) := by
  intro v0 s
  unfold execMailboxThrottleEnd
  have h1 := Kept.refl s
  extract_lets +onlyGivenNames -underBinder -merge x1
  try clear_value x1
  extract_lets +onlyGivenNames -underBinder -merge x2
  try clear_value x2
  refine Kept.ite (outOr s) (fun _ => ?_) (fun _ => ?_)
  · refine Kept.next ?_
    exact h1
  · refine Kept.next ?_
    refine Kept.trans ?_ (State.hdEvent_kept ..)
    refine Kept.trans ?_ (State.modBox_kept ..)
    exact h1

/-- What State.serve keeps. -/
theorem State.serve_kept (f : State → State) (hf : ∀ s, Kept s (f s)) : ∀ s cmd r, Kept s (State.serve s cmd r f) := by
  intro s cmd r
  unfold State.serve
  refine Kept.ifs (fun _ => .refl s) (fun _ => ?_)
  extract_lets +onlyGivenNames x u refused
  have h : Kept s u := Kept.of (t := s) rfl rfl rfl rfl rfl (.refl s)
  exact Kept.ifs (fun _ => h.trans (State.respond_kept ..)) (fun _ => h.trans (hf _))

/-- What State.serveNow keeps. -/
theorem State.serveNow_kept (f : State → State × Nat × List Byte) (hf : ∀ s, Kept s (f s).1) : ∀ s cmd r, Kept s (State.serveNow s cmd r f) :=
  fun _ _ _ => State.serve_kept _ (fun s => (hf s).trans (State.respond_kept ..)) _ _ _

/-! ## RegMap -/

/-- What State.regClear keeps. -/
theorem State.regClear_kept : ∀ s v1, Kept s (State.regClear s v1) := by
  intro s v1
  unfold State.regClear
  have h1 := Kept.refl s
  split
  · refine Kept.ifs (fun _ => ?_) (fun _ => ?_)
    · refine Kept.trans ?_ (State.modWq_kept ..)
      exact h1
    · exact h1
  · refine Kept.ifs (fun _ => ?_) (fun _ => ?_)
    · refine Kept.trans ?_ (State.modDie_kept ..)
      exact h1
    · refine Kept.ifs (fun _ => ?_) (fun _ => ?_)
      · refine Kept.ifs (fun _ => ?_) (fun _ => ?_)
        · refine Kept.trans ?_ (State.modDie_kept ..)
          exact h1
        · refine Kept.trans ?_ (State.modDie_kept ..)
          exact h1
      · exact h1
  · refine Kept.ifs (fun _ => ?_) (fun _ => ?_)
    · refine Kept.trans ?_ (State.modLink_kept ..)
      exact h1
    · exact h1
  · refine Kept.ifs (fun _ => ?_) (fun _ => ?_)
    · refine Kept.trans ?_ (State.modPort_kept ..)
      exact h1
    · exact h1
  · refine Kept.ifs (fun _ => ?_) (fun _ => ?_)
    · refine Kept.trans ?_ (State.modCe_kept ..)
      exact h1
    · exact h1
  · refine Kept.ifs (fun _ => ?_) (fun _ => ?_)
    · refine Kept.trans ?_ (State.modCtrl_kept ..)
      exact h1
    · exact h1
  · refine Kept.ifs (fun _ => ?_) (fun _ => ?_)
    · refine Kept.trans ?_ (State.modBox_kept ..)
      exact h1
    · refine Kept.ifs (fun _ => ?_) (fun _ => ?_)
      · refine Kept.trans ?_ (State.modBox_kept ..)
        exact h1
      · exact h1
  · exact h1

/-- What State.regRead keeps. -/
theorem State.regRead_kept : ∀ s v1 v2, Kept s ((State.regRead s v1 v2).2) := by
  intro s v1 v2
  unfold State.regRead
  have h1 := Kept.refl s
  extract_lets +onlyGivenNames -underBinder -merge x1
  have h2 : Kept s x1 := by
    dsimp -zeta only [x1]
    split
    · refine Kept.ifs (fun _ => ?_) (fun _ => ?_)
      · exact h1
      · refine Kept.trans ?_ (State.logNote_kept ..)
        refine Kept.trans ?_ (State.logAccess_kept ..)
        exact h1
    · exact h1
  try clear_value x1
  split
  · try dsimp -zeta only
    refine Kept.trans ?_ (State.regClear_kept ..)
    exact h2
  · split
    · rename_i a1 a2 q1
      have h3 : Kept s a2 := by
        have e := congrArg Prod.snd q1
        dsimp only at e
        rw [← e]
        refine Kept.trans ?_ (State.free_kept ..)
        exact h2
      try dsimp -zeta only
      exact h3

/-- What State.readRow keeps. -/
theorem State.readRow_kept : ∀ s v1, Kept s (State.readRow s v1) := by
  intro s v1
  unfold State.readRow
  have h1 := Kept.refl s
  refine Kept.ifs (fun _ => ?_) (fun _ => ?_)
  · extract_lets +onlyGivenNames -underBinder -merge x1
    have h2 : Kept s x1.2 := by
      dsimp -zeta only [x1]
      refine Kept.trans ?_ (State.regRead_kept ..)
      exact h1
    try clear_value x1
    refine Kept.trans ?_ (State.reply_kept ..)
    exact h2
  · refine Kept.trans ?_ (State.reply_kept ..)
    exact h1

/-- What execWqEarlyCnt keeps. -/
theorem execWqEarlyCnt_kept : ∀ v0 v1 s, Kept s (outOr s ((execWqEarlyCnt v0 v1 s))) := by
  intro v0 v1 s
  unfold execWqEarlyCnt
  have h1 := Kept.refl s
  refine Kept.next ?_
  refine Kept.trans ?_ (State.readRow_kept ..)
  exact h1

/-- What execDcHit keeps. -/
theorem execDcHit_kept : ∀ v0 v1 v2 s, Kept s (outOr s ((execDcHit v0 v1 v2 s))) := by
  intro v0 v1 v2 s
  unfold execDcHit
  have h1 := Kept.refl s
  refine Kept.next ?_
  refine Kept.trans ?_ (State.readRow_kept ..)
  exact h1

/-- What execDcPfCnt keeps. -/
theorem execDcPfCnt_kept : ∀ v0 s, Kept s (outOr s ((execDcPfCnt v0 s))) := by
  intro v0 s
  unfold execDcPfCnt
  have h1 := Kept.refl s
  refine Kept.next ?_
  refine Kept.trans ?_ (State.readRow_kept ..)
  exact h1

/-- What execMcEccCnt keeps. -/
theorem execMcEccCnt_kept : ∀ v0 s, Kept s (outOr s ((execMcEccCnt v0 s))) := by
  intro v0 s
  unfold execMcEccCnt
  have h1 := Kept.refl s
  refine Kept.next ?_
  refine Kept.trans ?_ (State.readRow_kept ..)
  exact h1

/-- What execD2dBcnt keeps. -/
theorem execD2dBcnt_kept : ∀ v0 s, Kept s (outOr s ((execD2dBcnt v0 s))) := by
  intro v0 s
  unfold execD2dBcnt
  have h1 := Kept.refl s
  refine Kept.next ?_
  refine Kept.trans ?_ (State.readRow_kept ..)
  exact h1

/-- What execFabPcnt keeps. -/
theorem execFabPcnt_kept : ∀ v0 s, Kept s (outOr s ((execFabPcnt v0 s))) := by
  intro v0 s
  unfold execFabPcnt
  have h1 := Kept.refl s
  refine Kept.next ?_
  refine Kept.trans ?_ (State.readRow_kept ..)
  exact h1

/-- What execCeCnt keeps. -/
theorem execCeCnt_kept : ∀ v0 v1 s, Kept s (outOr s ((execCeCnt v0 v1 s))) := by
  intro v0 v1 s
  unfold execCeCnt
  have h1 := Kept.refl s
  refine Kept.next ?_
  refine Kept.trans ?_ (State.readRow_kept ..)
  exact h1

/-- What execMbxEvtLost keeps. -/
theorem execMbxEvtLost_kept : ∀ v0 s, Kept s (outOr s ((execMbxEvtLost v0 s))) := by
  intro v0 s
  unfold execMbxEvtLost
  have h1 := Kept.refl s
  refine Kept.next ?_
  refine Kept.trans ?_ (State.readRow_kept ..)
  exact h1

/-- What execMbxMalformed keeps. -/
theorem execMbxMalformed_kept : ∀ v0 s, Kept s (outOr s ((execMbxMalformed v0 s))) := by
  intro v0 s
  unfold execMbxMalformed
  have h1 := Kept.refl s
  refine Kept.next ?_
  refine Kept.trans ?_ (State.readRow_kept ..)
  exact h1

/-! ## JobLoad -/

/-- What State.takeImage keeps. -/
theorem State.takeImage_kept : ∀ s v1, Kept s (State.takeImage s v1) := by
  intro s v1
  unfold State.takeImage
  have h1 := Kept.refl s
  refine Kept.trans ?_ (State.jobEvent_kept ..)
  refine Kept.trans ?_ (State.modJob_kept ..)
  refine Kept.folds _ (fun t1 x1 h2 => ?_) ?_
  · try dsimp -zeta only
    refine Kept.trans ?_ (State.modDie_kept ..)
    exact h2
  · try dsimp -zeta only
    exact h1

/-! ## YesiaJob -/

/-- What execDevQuery keeps. -/
theorem execDevQuery_kept : ∀ v0 s, Kept s (outOr s ((execDevQuery v0 s))) := by
  intro v0 s
  unfold execDevQuery
  have h1 := Kept.refl s
  refine Kept.next ?_
  refine Kept.trans ?_ (State.serveNow_kept _ (?_) _ _ _)
  · exact h1
  · intro t1
    try dsimp -zeta only
    have h2 := Kept.refl t1
    try dsimp -zeta only
    exact h2

/-- What execDevIdentify keeps. -/
theorem execDevIdentify_kept : ∀ v0 s, Kept s (outOr s ((execDevIdentify v0 s))) := by
  intro v0 s
  unfold execDevIdentify
  have h1 := Kept.refl s
  refine Kept.next ?_
  refine Kept.trans ?_ (State.serveNow_kept _ (?_) _ _ _)
  · exact h1
  · intro t1
    try dsimp -zeta only
    have h2 := Kept.refl t1
    try dsimp -zeta only
    exact h2

/-- What execDevHalt keeps. -/
theorem execDevHalt_kept : ∀ v0 s, Kept s (outOr s ((execDevHalt v0 s))) := by
  intro v0 s
  unfold execDevHalt
  have h1 := Kept.refl s
  refine Kept.next ?_
  refine Kept.trans ?_ (State.serve_kept _ (?_) _ _ _)
  · exact h1
  · intro t1
    try dsimp -zeta only
    have h2 := Kept.refl t1
    extract_lets +onlyGivenNames -underBinder -merge x1
    have h3 : Kept t1 x1 := by
      dsimp -zeta only [x1]
      refine Kept.ifs (fun _ => ?_) (fun _ => ?_)
      · exact h2
      · refine Kept.trans ?_ (State.haltAll_kept ..)
        exact h2
    try clear_value x1
    exact Kept.of (t := x1) rfl rfl rfl rfl rfl h3

/-- What execDevHaltQuiesced keeps. -/
theorem execDevHaltQuiesced_kept : ∀ s, Kept s (outOr s ((execDevHaltQuiesced s))) := by
  intro s
  unfold execDevHaltQuiesced
  have h1 := Kept.refl s
  refine Kept.ite (outOr s) (fun _ => ?_) (fun _ => ?_)
  · refine Kept.next ?_
    exact h1
  · extract_lets +onlyGivenNames -underBinder -merge x1
    try clear_value x1
    extract_lets +onlyGivenNames -underBinder -merge x2
    try clear_value x2
    extract_lets +onlyGivenNames -underBinder -merge x3 x4
    have h2 : Kept s x4 := by
      dsimp -zeta only [x4]
      exact Kept.of (t := s) rfl rfl rfl rfl rfl h1
    try clear_value x3 x4
    refine Kept.next ?_
    refine Kept.folds _ (fun t1 x5 h3 => ?_) ?_
    · try dsimp -zeta only
      refine Kept.trans ?_ (State.respond_kept ..)
      exact h3
    · try dsimp -zeta only
      exact h2

/-- What State.jobCreate keeps. -/
theorem State.jobCreate_kept : ∀ s v1, Kept s ((State.jobCreate s v1).1) := by
  intro s v1
  unfold State.jobCreate
  have h1 := Kept.refl s
  extract_lets +onlyGivenNames -underBinder -merge x1
  try clear_value x1
  extract_lets +onlyGivenNames -underBinder -merge x2
  try clear_value x2
  refine Kept.ite Prod.fst (fun _ => ?_) (fun _ => ?_)
  · try dsimp -zeta only
    exact h1
  · refine Kept.ite Prod.fst (fun _ => ?_) (fun _ => ?_)
    · try dsimp -zeta only
      exact h1
    · refine Kept.ite Prod.fst (fun _ => ?_) (fun _ => ?_)
      · try dsimp -zeta only
        exact h1
      · refine Kept.ite Prod.fst (fun _ => ?_) (fun _ => ?_)
        · try dsimp -zeta only
          exact h1
        · extract_lets +onlyGivenNames -underBinder -merge x3
          have h2 : Kept s x3 := by
            dsimp -zeta only [x3]
            refine Kept.folds _ (fun t1 x4 h3 => ?_) ?_
            · try dsimp -zeta only
              refine Kept.trans ?_ (State.freshKey_kept ..)
              exact h3
            · try dsimp -zeta only
              exact h1
          try clear_value x3
          extract_lets +onlyGivenNames -underBinder -merge x5
          try clear_value x5
          extract_lets +onlyGivenNames -underBinder -merge x6
          try clear_value x6
          extract_lets +onlyGivenNames -underBinder -merge x7
          try clear_value x7
          extract_lets +onlyGivenNames -underBinder -merge x8
          have h4 : Kept s x8 := by
            dsimp -zeta only [x8]
            refine Kept.trans ?_ (State.remap_kept ..)
            exact h2
          try clear_value x8
          extract_lets +onlyGivenNames -underBinder -merge x9 x10
          have h5 : Kept s x10 := by
            dsimp -zeta only [x10]
            exact Kept.of (t := x8) rfl rfl rfl rfl rfl h4
          try clear_value x9 x10
          try dsimp -zeta only
          refine Kept.trans ?_ (State.jobEvent_kept ..)
          exact h5

/-- What execJobCreate keeps. -/
theorem execJobCreate_kept : ∀ v0 s, Kept s (outOr s ((execJobCreate v0 s))) := by
  intro v0 s
  unfold execJobCreate
  have h1 := Kept.refl s
  refine Kept.next ?_
  refine Kept.trans ?_ (State.serveNow_kept _ (?_) _ _ _)
  · exact h1
  · intro t1
    try dsimp -zeta only
    have h2 := Kept.refl t1
    refine Kept.trans ?_ (State.jobCreate_kept ..)
    exact h2

/-- What State.forJob keeps. -/
theorem State.forJob_kept (s : State) (f : Job → State × Nat × List Byte) (hf : ∀ j, Kept s (f j).1) : ∀ r, Kept s (State.forJob s r f).1 := by
  intro r
  unfold State.forJob
  split
  · exact .refl s
  · exact hf _

/-- What State.jobLoad keeps. -/
theorem State.jobLoad_kept : ∀ s v1 v2, Kept s ((State.jobLoad s v1 v2).1) := by
  intro s v1 v2
  unfold State.jobLoad
  have h1 := Kept.refl s
  extract_lets +onlyGivenNames -underBinder -merge x1
  try clear_value x1
  extract_lets +onlyGivenNames -underBinder -merge x2
  try clear_value x2
  refine Kept.ite Prod.fst (fun _ => ?_) (fun _ => ?_)
  · try dsimp -zeta only
    exact h1
  · refine Kept.ite Prod.fst (fun _ => ?_) (fun _ => ?_)
    · try dsimp -zeta only
      exact h1
    · refine Kept.ite Prod.fst (fun _ => ?_) (fun _ => ?_)
      · try dsimp -zeta only
        exact h1
      · split
        · rename_i a1 a2 q1
          have h2 : Kept s a2 := by
            have e := congrArg Prod.snd q1
            dsimp only at e
            rw [← e]
            refine Kept.trans ?_ (State.readMem_kept ..)
            refine Kept.trans ?_ (State.wake_kept ..)
            exact h1
          try dsimp -zeta only
          exact h2
        · rename_i a3 a4 q2
          have h3 : Kept s a4 := by
            have e := congrArg Prod.snd q2
            dsimp only at e
            rw [← e]
            refine Kept.trans ?_ (State.readMem_kept ..)
            refine Kept.trans ?_ (State.wake_kept ..)
            exact h1
          split
          · rename_i a5 a6 q3
            have h4 : Kept s a6 := by
              have e := congrArg Prod.snd q3
              dsimp only at e
              rw [← e]
              refine Kept.trans ?_ (State.writeMem_kept ..)
              exact h3
            try dsimp -zeta only
            exact h4
          · rename_i a7 q4
            have h5 : Kept s a7 := by
              have e := congrArg Prod.snd q4
              dsimp only at e
              rw [← e]
              refine Kept.trans ?_ (State.writeMem_kept ..)
              exact h3
            split
            · try dsimp -zeta only
              exact h5
            · try dsimp -zeta only
              refine Kept.trans ?_ (State.takeImage_kept ..)
              refine Kept.trans ?_ (State.release_kept ..)
              exact h5

/-- What execJobLoad keeps. -/
theorem execJobLoad_kept : ∀ v0 s, Kept s (outOr s ((execJobLoad v0 s))) := by
  intro v0 s
  unfold execJobLoad
  have h1 := Kept.refl s
  refine Kept.next ?_
  refine Kept.trans ?_ (State.serveNow_kept _ (?_) _ _ _)
  · exact h1
  · intro t1
    try dsimp -zeta only
    have h2 := Kept.refl t1
    refine State.forJob_kept _ _ (fun _ => ?_) _
    refine Kept.trans ?_ (State.jobLoad_kept ..)
    exact h2

/-- What State.armDies keeps. -/
theorem State.armDies_kept : ∀ s v1, Kept s (State.armDies s v1) := by
  intro s v1
  unfold State.armDies
  have h1 := Kept.refl s
  refine Kept.folds _ (fun t1 x1 h2 => ?_) ?_
  · try dsimp -zeta only
    refine Kept.trans ?_ (State.setCode_kept ..)
    refine Kept.trans ?_ (State.modDie_kept ..)
    exact h2
  · try dsimp -zeta only
    exact h1

/-- What State.armAnswer keeps. -/
theorem State.armAnswer_kept : ∀ s v1 v2 v3 v4, Kept s (State.armAnswer s v1 v2 v3 v4) := by
  intro s v1 v2 v3 v4
  unfold State.armAnswer
  have h1 := Kept.refl s
  refine Kept.ifs (fun _ => ?_) (fun _ => ?_)
  · refine Kept.trans ?_ (State.respond_kept ..)
    exact h1
  · refine Kept.trans ?_ (State.beaconStart_kept ..)
    exact h1

/-- What State.jobArm keeps. -/
theorem State.jobArm_kept : ∀ s v1, Kept s (State.jobArm s v1) := by
  intro s v1
  unfold State.jobArm
  have h1 := Kept.refl s
  extract_lets +onlyGivenNames -underBinder -merge x1
  try clear_value x1
  split
  · refine Kept.trans ?_ (State.respond_kept ..)
    exact h1
  · refine Kept.ifs (fun _ => ?_) (fun _ => ?_)
    · refine Kept.trans ?_ (State.respond_kept ..)
      exact h1
    · refine Kept.ifs (fun _ => ?_) (fun _ => ?_)
      · refine Kept.trans ?_ (State.respond_kept ..)
        exact h1
      · extract_lets +onlyGivenNames -underBinder -merge x2
        have h2 : Kept s x2 := by
          dsimp -zeta only [x2]
          refine Kept.trans ?_ (State.wake_kept ..)
          exact h1
        try clear_value x2
        extract_lets +onlyGivenNames -underBinder -merge x3
        have h3 : Kept s x3 := by
          dsimp -zeta only [x3]
          refine Kept.ifs (fun _ => ?_) (fun _ => ?_)
          · refine Kept.trans ?_ (State.jobEvent_kept ..)
            refine Kept.trans ?_ (State.modJob_kept ..)
            refine Kept.trans ?_ (State.armDies_kept ..)
            exact h2
          · exact h2
        try clear_value x3
        refine Kept.trans ?_ (State.armAnswer_kept ..)
        exact h3

/-- What execJobArm keeps. -/
theorem execJobArm_kept : ∀ v0 s, Kept s (outOr s ((execJobArm v0 s))) := by
  intro v0 s
  unfold execJobArm
  have h1 := Kept.refl s
  refine Kept.next ?_
  refine Kept.trans ?_ (State.serve_kept _ (?_) _ _ _)
  · exact h1
  · intro t1
    try dsimp -zeta only
    have h2 := Kept.refl t1
    refine Kept.trans ?_ (State.jobArm_kept ..)
    exact h2

/-- What State.jobSuspend keeps. -/
theorem State.jobSuspend_kept : ∀ s v1, Kept s (State.jobSuspend s v1) := by
  intro s v1
  unfold State.jobSuspend
  have h1 := Kept.refl s
  split
  · refine Kept.trans ?_ (State.respond_kept ..)
    exact h1
  · refine Kept.ifs (fun _ => ?_) (fun _ => ?_)
    · refine Kept.trans ?_ (State.respond_kept ..)
      exact h1
    · refine Kept.trans ?_ (State.modJob_kept ..)
      exact h1

/-- What execJobSuspend keeps. -/
theorem execJobSuspend_kept : ∀ v0 s, Kept s (outOr s ((execJobSuspend v0 s))) := by
  intro v0 s
  unfold execJobSuspend
  have h1 := Kept.refl s
  refine Kept.next ?_
  refine Kept.trans ?_ (State.serve_kept _ (?_) _ _ _)
  · exact h1
  · intro t1
    try dsimp -zeta only
    have h2 := Kept.refl t1
    refine Kept.trans ?_ (State.jobSuspend_kept ..)
    exact h2

/-- What execJobSuspendQuiesce keeps. -/
theorem execJobSuspendQuiesce_kept : ∀ s, Kept s (outOr s ((execJobSuspendQuiesce s))) := by
  intro s
  unfold execJobSuspendQuiesce
  have h1 := Kept.refl s
  split
  · refine Kept.next ?_
    exact h1
  · split
    · refine Kept.next ?_
      exact h1
    · extract_lets +onlyGivenNames -underBinder -merge x1
      refine Kept.ite (outOr s) (fun _ => ?_) (fun _ => ?_)
      · refine Kept.next ?_
        refine Kept.trans ?_ (State.respond_kept ..)
        dsimp -zeta only [x1]
        refine Kept.trans ?_ (State.modJob_kept ..)
        exact h1
      · refine Kept.ite (outOr s) (fun _ => ?_) (fun _ => ?_)
        · refine Kept.next ?_
          exact h1
        · extract_lets +onlyGivenNames -underBinder -merge x2
          try clear_value x2
          extract_lets +onlyGivenNames -underBinder -merge x3
          try clear_value x3
          refine Kept.next ?_
          refine Kept.trans ?_ (State.respond_kept ..)
          refine Kept.trans ?_ (State.jobEvent_kept ..)
          refine Kept.trans ?_ (State.remap_kept ..)
          refine Kept.trans ?_ (State.modJob_kept ..)
          dsimp -zeta only [x1]
          refine Kept.trans ?_ (State.modJob_kept ..)
          exact h1

/-- What State.jobResume keeps. -/
theorem State.jobResume_kept : ∀ s v1, Kept s (State.jobResume s v1) := by
  intro s v1
  unfold State.jobResume
  have h1 := Kept.refl s
  extract_lets +onlyGivenNames -underBinder -merge x1
  try clear_value x1
  split
  · refine Kept.trans ?_ (State.respond_kept ..)
    exact h1
  · refine Kept.ifs (fun _ => ?_) (fun _ => ?_)
    · refine Kept.trans ?_ (State.respond_kept ..)
      exact h1
    · refine Kept.ifs (fun _ => ?_) (fun _ => ?_)
      · refine Kept.trans ?_ (State.respond_kept ..)
        exact h1
      · extract_lets +onlyGivenNames -underBinder -merge x2
        have h2 : Kept s x2 := by
          dsimp -zeta only [x2]
          refine Kept.trans ?_ (State.modJob_kept ..)
          refine Kept.trans ?_ (State.wake_kept ..)
          exact h1
        try clear_value x2
        split
        · refine Kept.trans ?_ (State.armAnswer_kept ..)
          exact h2
        · exact h2

/-- What execJobResume keeps. -/
theorem execJobResume_kept : ∀ v0 s, Kept s (outOr s ((execJobResume v0 s))) := by
  intro v0 s
  unfold execJobResume
  have h1 := Kept.refl s
  refine Kept.next ?_
  refine Kept.trans ?_ (State.serve_kept _ (?_) _ _ _)
  · exact h1
  · intro t1
    try dsimp -zeta only
    have h2 := Kept.refl t1
    refine Kept.trans ?_ (State.jobResume_kept ..)
    exact h2

/-- What State.abortWork keeps. -/
theorem State.abortWork_kept : ∀ s v1, Kept s (State.abortWork s v1) := by
  intro s v1
  unfold State.abortWork
  have h1 := Kept.refl s
  refine Kept.ifs (fun _ => ?_) (fun _ => ?_)
  · refine Kept.trans ?_ (State.jobStop_kept ..)
    refine Kept.trans ?_ (State.beaconCancel_kept ..)
    exact h1
  · exact h1

/-- What State.jobAbort keeps. -/
theorem State.jobAbort_kept : ∀ s v1, Kept s (State.jobAbort s v1) := by
  intro s v1
  unfold State.jobAbort
  have h1 := Kept.refl s
  split
  · refine Kept.trans ?_ (State.respond_kept ..)
    exact h1
  · refine Kept.ifs (fun _ => ?_) (fun _ => ?_)
    · refine Kept.trans ?_ (State.respond_kept ..)
      exact h1
    · extract_lets +onlyGivenNames -underBinder -merge x1
      have h2 : Kept s x1 := by
        dsimp -zeta only [x1]
        refine Kept.trans ?_ (State.abortWork_kept ..)
        exact h1
      try clear_value x1
      split
      · refine Kept.ifs (fun _ => ?_) (fun _ => ?_)
        · refine Kept.trans ?_ (State.modJob_kept ..)
          exact h2
        · refine Kept.trans ?_ (State.abortDone_kept ..)
          exact h2
      · exact h2

/-- What execJobAbort keeps. -/
theorem execJobAbort_kept : ∀ v0 s, Kept s (outOr s ((execJobAbort v0 s))) := by
  intro v0 s
  unfold execJobAbort
  have h1 := Kept.refl s
  refine Kept.ite (outOr s) (fun _ => ?_) (fun _ => ?_)
  · refine Kept.next ?_
    refine Kept.trans ?_ (State.serve_kept _ (?_) _ _ _)
    · exact h1
    · intro t1
      try dsimp -zeta only
      have h2 := Kept.refl t1
      refine Kept.trans ?_ (State.jobAbort_kept ..)
      exact h2
  · refine Kept.next ?_
    exact h1

/-- What State.jobEnd keeps. -/
theorem State.jobEnd_kept : ∀ s v1, Kept s (State.jobEnd s v1) := by
  intro s v1
  unfold State.jobEnd
  have h1 := Kept.refl s
  split
  · refine Kept.trans ?_ (State.respond_kept ..)
    exact h1
  · extract_lets +onlyGivenNames -underBinder -merge x1
    have h2 : Kept s x1 := by
      dsimp -zeta only [x1]
      refine Kept.trans ?_ (State.remap_kept ..)
      refine Kept.trans ?_ (State.abortWork_kept ..)
      exact h1
    try clear_value x1
    split
    · refine Kept.ifs (fun _ => ?_) (fun _ => ?_)
      · refine Kept.trans ?_ (State.modJob_kept ..)
        exact h2
      · refine Kept.trans ?_ (State.abortDone_kept ..)
        exact h2
    · exact h2

/-- What execJobEnd keeps. -/
theorem execJobEnd_kept : ∀ v0 s, Kept s (outOr s ((execJobEnd v0 s))) := by
  intro v0 s
  unfold execJobEnd
  have h1 := Kept.refl s
  refine Kept.ite (outOr s) (fun _ => ?_) (fun _ => ?_)
  · refine Kept.next ?_
    refine Kept.trans ?_ (State.serve_kept _ (?_) _ _ _)
    · exact h1
    · intro t1
      try dsimp -zeta only
      have h2 := Kept.refl t1
      refine Kept.trans ?_ (State.jobEnd_kept ..)
      exact h2
  · refine Kept.next ?_
    exact h1

/-- What execJobStatus keeps. -/
theorem execJobStatus_kept : ∀ v0 s, Kept s (outOr s ((execJobStatus v0 s))) := by
  intro v0 s
  unfold execJobStatus
  have h1 := Kept.refl s
  refine Kept.next ?_
  refine Kept.trans ?_ (State.serveNow_kept _ (?_) _ _ _)
  · exact h1
  · intro t1
    try dsimp -zeta only
    have h2 := Kept.refl t1
    split
    · try dsimp -zeta only
      exact h2
    · refine Kept.ite Prod.fst (fun _ => ?_) (fun _ => ?_)
      · try dsimp -zeta only
        exact h2
      · try dsimp -zeta only
        exact h2

/-! ## YesiaMem -/

/-- What execMemMap keeps. -/
theorem execMemMap_kept : ∀ v0 s, Kept s (outOr s ((execMemMap v0 s))) := by
  intro v0 s
  unfold execMemMap
  have h1 := Kept.refl s
  refine Kept.next ?_
  refine Kept.trans ?_ (State.serveNow_kept _ (?_) _ _ _)
  · exact h1
  · intro t1
    try dsimp -zeta only
    have h2 := Kept.refl t1
    try dsimp -zeta only
    exact h2

/-- What State.memKeep keeps. -/
theorem State.memKeep_kept (f : State → State × Nat) (hf : ∀ s, Kept s (f s).1) : ∀ s op r, Kept s (State.memKeep s op r f) :=
  fun s _ _ => Kept.ifs (fun _ => .refl s) (fun _ => State.serveNow_kept _ (fun s => hf s) _ _ _)

/-- What State.keepDeclare keeps. -/
theorem State.keepDeclare_kept : ∀ s v1, Kept s ((State.keepDeclare s v1).1) := by
  intro s v1
  unfold State.keepDeclare
  have h1 := Kept.refl s
  extract_lets +onlyGivenNames -underBinder -merge x1
  try clear_value x1
  refine Kept.ite Prod.fst (fun _ => ?_) (fun _ => ?_)
  · try dsimp -zeta only
    exact h1
  · refine Kept.ite Prod.fst (fun _ => ?_) (fun _ => ?_)
    · try dsimp -zeta only
      exact h1
    · try dsimp -zeta only
      exact Kept.of (t := s) rfl rfl rfl rfl rfl h1

/-- What execMemKeepDeclare keeps. -/
theorem execMemKeepDeclare_kept : ∀ v0 s, Kept s (outOr s ((execMemKeepDeclare v0 s))) := by
  intro v0 s
  unfold execMemKeepDeclare
  have h1 := Kept.refl s
  refine Kept.next ?_
  refine Kept.trans ?_ (State.memKeep_kept _ (?_) _ _ _)
  · exact h1
  · intro t1
    try dsimp -zeta only
    have h2 := Kept.refl t1
    refine Kept.trans ?_ (State.keepDeclare_kept ..)
    exact h2

/-- What execMemKeepReadRecord keeps. -/
theorem execMemKeepReadRecord_kept : ∀ v0 s, Kept s (outOr s ((execMemKeepReadRecord v0 s))) := by
  intro v0 s
  unfold execMemKeepReadRecord
  have h1 := Kept.refl s
  refine Kept.next ?_
  refine Kept.trans ?_ (State.memKeep_kept _ (?_) _ _ _)
  · exact h1
  · intro t1
    try dsimp -zeta only
    have h2 := Kept.refl t1
    try dsimp -zeta only
    exact h2

/-- What State.keepRelease keeps. -/
theorem State.keepRelease_kept : ∀ s, Kept s ((State.keepRelease s).1) := by
  intro s
  unfold State.keepRelease
  have h1 := Kept.refl s
  refine Kept.ite Prod.fst (fun _ => ?_) (fun _ => ?_)
  · try dsimp -zeta only
    exact h1
  · extract_lets +onlyGivenNames -underBinder -merge x1
    try clear_value x1
    extract_lets +onlyGivenNames -underBinder -merge x2
    try clear_value x2
    extract_lets +onlyGivenNames -underBinder -merge x3 x4
    have h2 : Kept s x4 := by
      dsimp -zeta only [x4]
      exact Kept.of (t := s) rfl rfl rfl rfl rfl h1
    try clear_value x3 x4
    refine Kept.ite Prod.fst (fun _ => ?_) (fun _ => ?_)
    · extract_lets +onlyGivenNames -underBinder -merge x5
      try clear_value x5
      extract_lets +onlyGivenNames -underBinder -merge x6
      have h3 : Kept s x6 := by
        dsimp -zeta only [x6]
        refine Kept.folds _ (fun t1 x7 h4 => ?_) ?_
        · try dsimp -zeta only
          refine Kept.trans ?_ (State.modKey_kept ..)
          exact h4
        · try dsimp -zeta only
          exact h2
      try clear_value x6
      try dsimp -zeta only
      exact Kept.of (t := x6) rfl rfl rfl rfl rfl h3
    · try dsimp -zeta only
      refine Kept.trans ?_ (State.destroyKeys_kept ..)
      exact h2

/-- What execMemKeepRelease keeps. -/
theorem execMemKeepRelease_kept : ∀ v0 s, Kept s (outOr s ((execMemKeepRelease v0 s))) := by
  intro v0 s
  unfold execMemKeepRelease
  have h1 := Kept.refl s
  refine Kept.next ?_
  refine Kept.trans ?_ (State.memKeep_kept _ (?_) _ _ _)
  · exact h1
  · intro t1
    try dsimp -zeta only
    have h2 := Kept.refl t1
    refine Kept.trans ?_ (State.keepRelease_kept ..)
    exact h2

/-- What State.keepDrop keeps. -/
theorem State.keepDrop_kept : ∀ s v1, Kept s ((State.keepDrop s v1).1) := by
  intro s v1
  unfold State.keepDrop
  have h1 := Kept.refl s
  extract_lets +onlyGivenNames -underBinder -merge x1
  try clear_value x1
  extract_lets +onlyGivenNames -underBinder -merge x2
  try clear_value x2
  refine Kept.ite Prod.fst (fun _ => ?_) (fun _ => ?_)
  · extract_lets +onlyGivenNames -underBinder -merge x3
    try clear_value x3
    try dsimp -zeta only
    exact Kept.of (t := s) rfl rfl rfl rfl rfl h1
  · try dsimp -zeta only
    exact h1

/-- What execMemKeepDropRegion keeps. -/
theorem execMemKeepDropRegion_kept : ∀ v0 s, Kept s (outOr s ((execMemKeepDropRegion v0 s))) := by
  intro v0 s
  unfold execMemKeepDropRegion
  have h1 := Kept.refl s
  refine Kept.next ?_
  refine Kept.trans ?_ (State.memKeep_kept _ (?_) _ _ _)
  · exact h1
  · intro t1
    try dsimp -zeta only
    have h2 := Kept.refl t1
    refine Kept.trans ?_ (State.keepDrop_kept ..)
    exact h2

/-- What State.memRepair keeps. -/
theorem State.memRepair_kept (f : State → Nat → State × Nat × List Byte) (hf : ∀ s c, Kept s (f s c).1) :
    ∀ s op r, Kept s (State.memRepair s op r f) := by
  intro s op r
  refine Kept.ifs (fun _ => .refl s) (fun _ => State.serveNow_kept _ (fun s => ?_) _ _ _)
  split
  · exact hf _ _
  · exact .refl s

/-- What execMemRepairQuery keeps. -/
theorem execMemRepairQuery_kept : ∀ v0 s, Kept s (outOr s ((execMemRepairQuery v0 s))) := by
  intro v0 s
  unfold execMemRepairQuery
  have h1 := Kept.refl s
  refine Kept.next ?_
  refine Kept.trans ?_ (State.memRepair_kept _ (?_) _ _ _)
  · exact h1
  · intro t1 y1
    try dsimp -zeta only
    have h2 := Kept.refl t1
    try dsimp -zeta only
    exact h2

/-- What State.rowSoft keeps. -/
theorem State.rowSoft_kept : ∀ s v1 v2, Kept s ((State.rowSoft s v1 v2).1) := by
  intro s v1 v2
  unfold State.rowSoft
  have h1 := Kept.refl s
  split
  · try dsimp -zeta only
    exact h1
  · extract_lets +onlyGivenNames -underBinder -merge x1
    have h2 : Kept s x1.2 := by
      dsimp -zeta only [x1]
      refine Kept.trans ?_ (State.softRepair_kept ..)
      exact h1
    try clear_value x1
    try dsimp -zeta only
    exact h2

/-- What execRowSoft keeps. -/
theorem execRowSoft_kept : ∀ v0 s, Kept s (outOr s ((execRowSoft v0 s))) := by
  intro v0 s
  unfold execRowSoft
  have h1 := Kept.refl s
  refine Kept.next ?_
  refine Kept.trans ?_ (State.memRepair_kept _ (?_) _ _ _)
  · exact h1
  · intro t1 y1
    try dsimp -zeta only
    have h2 := Kept.refl t1
    refine Kept.trans ?_ (State.rowSoft_kept ..)
    exact h2

/-- What State.rowHard keeps. -/
theorem State.rowHard_kept : ∀ s v1 v2, Kept s ((State.rowHard s v1 v2).1) := by
  intro s v1 v2
  unfold State.rowHard
  have h1 := Kept.refl s
  split
  · try dsimp -zeta only
    exact h1
  · try dsimp -zeta only
    refine Kept.trans ?_ (State.modCtrl_kept ..)
    exact h1

/-- What execRowHard keeps. -/
theorem execRowHard_kept : ∀ v0 s, Kept s (outOr s ((execRowHard v0 s))) := by
  intro v0 s
  unfold execRowHard
  have h1 := Kept.refl s
  refine Kept.next ?_
  refine Kept.trans ?_ (State.memRepair_kept _ (?_) _ _ _)
  · exact h1
  · intro t1 y1
    try dsimp -zeta only
    have h2 := Kept.refl t1
    refine Kept.trans ?_ (State.rowHard_kept ..)
    exact h2

/-- What State.onChannel keeps. -/
theorem State.onChannel_kept (f : State → Nat → Nat → State) (h : ∀ t a b, Kept t (f t a b)) : ∀ s r c, Kept s (State.onChannel s r c f).1 := by
  intro s r c
  unfold State.onChannel
  exact Kept.ite Prod.fst (fun _ => .refl s) (fun _ => h ..)

/-- What execChannelFence keeps. -/
theorem execChannelFence_kept : ∀ v0 s, Kept s (outOr s ((execChannelFence v0 s))) := by
  intro v0 s
  unfold execChannelFence
  have h1 := Kept.refl s
  refine Kept.next ?_
  refine Kept.trans ?_ (State.memRepair_kept _ (?_) _ _ _)
  · exact h1
  · intro t1 y1
    try dsimp -zeta only
    have h2 := Kept.refl t1
    refine Kept.trans ?_ (State.onChannel_kept _ (?_) _ _ _)
    · exact h2
    · intro t2 y2 y3
      try dsimp -zeta only
      have h3 := Kept.refl t2
      refine Kept.trans ?_ (State.fenceChannel_kept ..)
      exact h3

/-- What State.retireMark keeps. -/
theorem State.retireMark_kept : ∀ s v1 v2, Kept s (State.retireMark s v1 v2) := by
  intro s v1 v2
  unfold State.retireMark
  have h1 := Kept.refl s
  refine Kept.trans ?_ (State.modCtrl_kept ..)
  exact h1

/-- What execChannelRetire keeps. -/
theorem execChannelRetire_kept : ∀ v0 s, Kept s (outOr s ((execChannelRetire v0 s))) := by
  intro v0 s
  unfold execChannelRetire
  have h1 := Kept.refl s
  refine Kept.next ?_
  refine Kept.trans ?_ (State.memRepair_kept _ (?_) _ _ _)
  · exact h1
  · intro t1 y1
    try dsimp -zeta only
    have h2 := Kept.refl t1
    refine Kept.trans ?_ (State.onChannel_kept _ (?_) _ _ _)
    · exact h2
    · intro t2 y2 y3
      try dsimp -zeta only
      have h3 := Kept.refl t2
      refine Kept.trans ?_ (State.retireMark_kept ..)
      exact h3

/-- What State.retireUnmark keeps. -/
theorem State.retireUnmark_kept : ∀ s v1 v2, Kept s (State.retireUnmark s v1 v2) := by
  intro s v1 v2
  unfold State.retireUnmark
  have h1 := Kept.refl s
  refine Kept.trans ?_ (State.modCtrl_kept ..)
  exact h1

/-- What execChannelKeep keeps. -/
theorem execChannelKeep_kept : ∀ v0 s, Kept s (outOr s ((execChannelKeep v0 s))) := by
  intro v0 s
  unfold execChannelKeep
  have h1 := Kept.refl s
  refine Kept.next ?_
  refine Kept.trans ?_ (State.memRepair_kept _ (?_) _ _ _)
  · exact h1
  · intro t1 y1
    try dsimp -zeta only
    have h2 := Kept.refl t1
    refine Kept.trans ?_ (State.onChannel_kept _ (?_) _ _ _)
    · exact h2
    · intro t2 y2 y3
      try dsimp -zeta only
      have h3 := Kept.refl t2
      refine Kept.trans ?_ (State.retireUnmark_kept ..)
      exact h3

/-- What State.autoSet keeps. -/
theorem State.autoSet_kept : ∀ s v1 v2, Kept s ((State.autoSet s v1 v2).1) := by
  intro s v1 v2
  unfold State.autoSet
  have h1 := Kept.refl s
  refine Kept.ite Prod.fst (fun _ => ?_) (fun _ => ?_)
  · try dsimp -zeta only
    exact h1
  · try dsimp -zeta only
    refine Kept.trans ?_ (State.modCtrl_kept ..)
    exact h1

/-- What execAuto keeps. -/
theorem execAuto_kept : ∀ v0 s, Kept s (outOr s ((execAuto v0 s))) := by
  intro v0 s
  unfold execAuto
  have h1 := Kept.refl s
  refine Kept.next ?_
  refine Kept.trans ?_ (State.memRepair_kept _ (?_) _ _ _)
  · exact h1
  · intro t1 y1
    try dsimp -zeta only
    have h2 := Kept.refl t1
    refine Kept.trans ?_ (State.autoSet_kept ..)
    exact h2

/-- What State.repairWindow keeps. -/
theorem State.repairWindow_kept : ∀ s v1 v2 v3, Kept s (State.repairWindow s v1 v2 v3) := by
  intro s v1 v2 v3
  unfold State.repairWindow
  have h1 := Kept.refl s
  extract_lets +onlyGivenNames -underBinder -merge x1
  try clear_value x1
  split
  · refine Kept.trans ?_ (State.rowSoft_kept ..)
    exact h1
  · refine Kept.trans ?_ (State.rowHard_kept ..)
    exact h1
  · refine Kept.trans ?_ (State.onChannel_kept _ (?_) _ _ _)
    · exact h1
    · intro t1 y1 y2
      try dsimp -zeta only
      have h2 := Kept.refl t1
      refine Kept.trans ?_ (State.fenceChannel_kept ..)
      exact h2
  · refine Kept.trans ?_ (State.onChannel_kept _ (?_) _ _ _)
    · exact h1
    · intro t2 y3 y4
      try dsimp -zeta only
      have h3 := Kept.refl t2
      refine Kept.trans ?_ (State.retireMark_kept ..)
      exact h3
  · refine Kept.trans ?_ (State.onChannel_kept _ (?_) _ _ _)
    · exact h1
    · intro t3 y5 y6
      try dsimp -zeta only
      have h4 := Kept.refl t3
      refine Kept.trans ?_ (State.retireUnmark_kept ..)
      exact h4
  · refine Kept.trans ?_ (State.autoSet_kept ..)
    exact h1
  · exact h1

/-- What State.memScrub keeps. -/
theorem State.memScrub_kept (f : State → Nat → State × Nat) (hf : ∀ s c, Kept s (f s c).1) : ∀ s op r, Kept s (State.memScrub s op r f) := by
  intro s op r
  refine Kept.ifs (fun _ => .refl s) (fun _ => State.serveNow_kept _ (fun s => ?_) _ _ _)
  split
  · exact hf _ _
  · exact .refl s

/-- What execMemScrubRead keeps. -/
theorem execMemScrubRead_kept : ∀ v0 s, Kept s (outOr s ((execMemScrubRead v0 s))) := by
  intro v0 s
  unfold execMemScrubRead
  have h1 := Kept.refl s
  refine Kept.next ?_
  refine Kept.trans ?_ (State.memScrub_kept _ (?_) _ _ _)
  · exact h1
  · intro t1 y1
    try dsimp -zeta only
    have h2 := Kept.refl t1
    try dsimp -zeta only
    exact h2

/-- What execMemScrubSetPeriod keeps. -/
theorem execMemScrubSetPeriod_kept : ∀ v0 s, Kept s (outOr s ((execMemScrubSetPeriod v0 s))) := by
  intro v0 s
  unfold execMemScrubSetPeriod
  have h1 := Kept.refl s
  refine Kept.next ?_
  refine Kept.trans ?_ (State.memScrub_kept _ (?_) _ _ _)
  · exact h1
  · intro t1 y1
    try dsimp -zeta only
    have h2 := Kept.refl t1
    extract_lets +onlyGivenNames -underBinder -merge x1
    try clear_value x1
    refine Kept.ite Prod.fst (fun _ => ?_) (fun _ => ?_)
    · try dsimp -zeta only
      exact h2
    · try dsimp -zeta only
      refine Kept.trans ?_ (State.modCtrl_kept ..)
      exact h2

/-- What State.scrubPass keeps. -/
theorem State.scrubPass_kept : ∀ s v1 v2 v3 v4, Kept s (State.scrubPass s v1 v2 v3 v4) := by
  intro s v1 v2 v3 v4
  unfold State.scrubPass
  have h1 := Kept.refl s
  refine Kept.folds _ (fun t1 x1 h2 => ?_) ?_
  · try dsimp -zeta only
    refine Kept.ifs (fun _ => ?_) (fun _ => ?_)
    · exact h2
    · refine Kept.trans ?_ (State.controllerRead_kept ..)
      exact h2
  · try dsimp -zeta only
    exact h1

/-- What execMemScrubPass keeps. -/
theorem execMemScrubPass_kept : ∀ v0 v1 s, Kept s (outOr s ((execMemScrubPass v0 v1 s))) := by
  intro v0 v1 s
  unfold execMemScrubPass
  have h1 := Kept.refl s
  refine Kept.next ?_
  refine Kept.trans ?_ (State.memScrub_kept _ (?_) _ _ _)
  · exact h1
  · intro t1 y1
    try dsimp -zeta only
    have h2 := Kept.refl t1
    extract_lets +onlyGivenNames -underBinder -merge x1
    try clear_value x1
    extract_lets +onlyGivenNames -underBinder -merge x2
    try clear_value x2
    refine Kept.ite Prod.fst (fun _ => ?_) (fun _ => ?_)
    · try dsimp -zeta only
      exact h2
    · try dsimp -zeta only
      refine Kept.trans ?_ (State.scrubPass_kept ..)
      exact h2

/-! ## YesiaPower -/

/-- What State.pwrCap keeps. -/
theorem State.pwrCap_kept : ∀ s v1, Kept s ((State.pwrCap s v1).1) := by
  intro s v1
  unfold State.pwrCap
  have h1 := Kept.refl s
  extract_lets +onlyGivenNames -underBinder -merge x1
  try clear_value x1
  extract_lets +onlyGivenNames -underBinder -merge x2
  try clear_value x2
  refine Kept.ite Prod.fst (fun _ => ?_) (fun _ => ?_)
  · try dsimp -zeta only
    exact h1
  · extract_lets +onlyGivenNames -underBinder -merge x3 x4
    have h2 : Kept s x4 := by
      dsimp -zeta only [x4]
      refine Kept.trans ?_ (State.brakeReset_kept ..)
      exact Kept.of (t := s) rfl rfl rfl rfl rfl h1
    try clear_value x3 x4
    try dsimp -zeta only
    exact h2

/-- What execPwrCap keeps. -/
theorem execPwrCap_kept : ∀ v0 s, Kept s (outOr s ((execPwrCap v0 s))) := by
  intro v0 s
  unfold execPwrCap
  have h1 := Kept.refl s
  refine Kept.next ?_
  refine Kept.trans ?_ (State.serveNow_kept _ (?_) _ _ _)
  · exact h1
  · intro t1
    try dsimp -zeta only
    have h2 := Kept.refl t1
    refine Kept.trans ?_ (State.pwrCap_kept ..)
    exact h2

/-- What State.toActive keeps. -/
theorem State.toActive_kept : ∀ s v1, Kept s ((State.toActive s v1).1) := by
  intro s v1
  unfold State.toActive
  have h1 := Kept.refl s
  split
  · extract_lets +onlyGivenNames -underBinder -merge x1
    have h2 : Kept s x1 := by
      dsimp -zeta only [x1]
      refine Kept.trans ?_ (State.pilotExit_kept ..)
      exact h1
    try clear_value x1
    try dsimp -zeta only
    exact h2
  · try dsimp -zeta only
    refine Kept.trans ?_ (State.wake_kept ..)
    exact h1

/-- What State.pwrState keeps. -/
theorem State.pwrState_kept : ∀ s v1 v2, Kept s ((State.pwrState s v1 v2).1) := by
  intro s v1 v2
  unfold State.pwrState
  have h1 := Kept.refl s
  extract_lets +onlyGivenNames -underBinder -merge x1
  refine Kept.ite Prod.fst (fun _ => ?_) (fun _ => ?_)
  · try dsimp -zeta only
    exact h1
  · split
    · dsimp -zeta only [x1]
      try dsimp -zeta only
      refine Kept.trans ?_ (State.toActive_kept ..)
      exact h1
    · split
      · dsimp -zeta only [x1]
        try dsimp -zeta only
        try dsimp -zeta only
        refine Kept.trans ?_ (State.enterIdle_kept ..)
        exact h1
      · dsimp -zeta only [x1]
        try dsimp -zeta only
        try dsimp -zeta only
        exact h1
      · try dsimp -zeta only
        exact h1
    · dsimp -zeta only [x1]
      try dsimp -zeta only
      try dsimp -zeta only
      refine Kept.ifs (fun _ => ?_) (fun _ => ?_)
      · exact h1
      · refine Kept.trans ?_ (State.enterPilot_kept ..)
        exact h1
    · dsimp -zeta only [x1]
      try dsimp -zeta only
      try dsimp -zeta only
      refine Kept.trans ?_ (State.powerLoss_kept ..)
      exact h1
    · try dsimp -zeta only
      exact h1

/-- What execPwrState keeps. -/
theorem execPwrState_kept : ∀ v0 v1 s, Kept s (outOr s ((execPwrState v0 v1 s))) := by
  intro v0 v1 s
  unfold execPwrState
  have h1 := Kept.refl s
  refine Kept.next ?_
  refine Kept.trans ?_ (State.serveNow_kept _ (?_) _ _ _)
  · exact h1
  · intro t1
    try dsimp -zeta only
    have h2 := Kept.refl t1
    refine Kept.trans ?_ (State.pwrState_kept ..)
    exact h2

/-- What State.pwrFreq keeps. -/
theorem State.pwrFreq_kept : ∀ s v1, Kept s (State.pwrFreq s v1) := by
  intro s v1
  unfold State.pwrFreq
  have h1 := Kept.refl s
  extract_lets +onlyGivenNames -underBinder -merge x1
  try clear_value x1
  extract_lets +onlyGivenNames -underBinder -merge x2
  try clear_value x2
  refine Kept.ifs (fun _ => ?_) (fun _ => ?_)
  · refine Kept.trans ?_ (State.respond_kept ..)
    exact Kept.of (t := s) rfl rfl rfl rfl rfl h1
  · split
    · refine Kept.trans ?_ (State.respond_kept ..)
      exact h1
    · refine Kept.ifs (fun _ => ?_) (fun _ => ?_)
      · refine Kept.trans ?_ (State.respond_kept ..)
        exact h1
      · refine Kept.ifs (fun _ => ?_) (fun _ => ?_)
        · refine Kept.trans ?_ (State.respond_kept ..)
          exact h1
        · refine Kept.trans ?_ (State.beaconStart_kept ..)
          refine Kept.trans ?_ (State.modJob_kept ..)
          exact h1

/-- What execPwrFreq keeps. -/
theorem execPwrFreq_kept : ∀ v0 s, Kept s (outOr s ((execPwrFreq v0 s))) := by
  intro v0 s
  unfold execPwrFreq
  have h1 := Kept.refl s
  refine Kept.next ?_
  refine Kept.trans ?_ (State.serve_kept _ (?_) _ _ _)
  · exact h1
  · intro t1
    try dsimp -zeta only
    have h2 := Kept.refl t1
    refine Kept.trans ?_ (State.pwrFreq_kept ..)
    exact h2

/-- What execPowerEntryRefused keeps. -/
theorem execPowerEntryRefused_kept : ∀ v0 s, Kept s (outOr s ((execPowerEntryRefused v0 s))) := by
  intro v0 s
  unfold execPowerEntryRefused
  have h1 := Kept.refl s
  split
  · refine Kept.next ?_
    refine Kept.trans ?_ (State.modTile_kept ..)
    exact h1
  · refine Kept.next ?_
    refine Kept.trans ?_ (State.serveNow_kept _ (?_) _ _ _)
    · exact h1
    · intro t1
      try dsimp -zeta only
      have h2 := Kept.refl t1
      try dsimp -zeta only
      exact h2

/-! ## YesiaSec -/

/-- What execSecAttest keeps. -/
theorem execSecAttest_kept : ∀ v0 s, Kept s (outOr s ((execSecAttest v0 s))) := by
  intro v0 s
  unfold execSecAttest
  have h1 := Kept.refl s
  refine Kept.next ?_
  refine Kept.trans ?_ (State.serveNow_kept _ (?_) _ _ _)
  · exact h1
  · intro t1
    try dsimp -zeta only
    have h2 := Kept.refl t1
    try dsimp -zeta only
    exact h2

/-- What State.secKey keeps. -/
theorem State.secKey_kept (f : State → State × Nat × List Byte) (hf : ∀ s, Kept s (f s).1) : ∀ s op r, Kept s (State.secKey s op r f) :=
  fun s _ _ => Kept.ifs (fun _ => .refl s) (fun _ => State.serveNow_kept _ hf _ _ _)

/-- What execSecKeyQuery keeps. -/
theorem execSecKeyQuery_kept : ∀ v0 s, Kept s (outOr s ((execSecKeyQuery v0 s))) := by
  intro v0 s
  unfold execSecKeyQuery
  have h1 := Kept.refl s
  refine Kept.next ?_
  refine Kept.trans ?_ (State.secKey_kept _ (?_) _ _ _)
  · exact h1
  · intro t1
    try dsimp -zeta only
    have h2 := Kept.refl t1
    extract_lets +onlyGivenNames -underBinder -merge x1
    try clear_value x1
    refine Kept.ite Prod.fst (fun _ => ?_) (fun _ => ?_)
    · try dsimp -zeta only
      exact h2
    · refine Kept.ite Prod.fst (fun _ => ?_) (fun _ => ?_)
      · try dsimp -zeta only
        exact h2
      · try dsimp -zeta only
        exact h2

/-- What State.allocKeep keeps. -/
theorem State.allocKeep_kept : ∀ s v1, Kept s ((State.allocKeep s v1).1) := by
  intro s v1
  unfold State.allocKeep
  have h1 := Kept.refl s
  extract_lets +onlyGivenNames -underBinder -merge x1
  try clear_value x1
  refine Kept.ite Prod.fst (fun _ => ?_) (fun _ => ?_)
  · try dsimp -zeta only
    exact h1
  · refine Kept.ite Prod.fst (fun _ => ?_) (fun _ => ?_)
    · try dsimp -zeta only
      exact h1
    · split
      · try dsimp -zeta only
        refine Kept.trans ?_ (State.freshKey_kept ..)
        exact h1
      · try dsimp -zeta only
        exact h1

/-- What execAllocKeep keeps. -/
theorem execAllocKeep_kept : ∀ v0 s, Kept s (outOr s ((execAllocKeep v0 s))) := by
  intro v0 s
  unfold execAllocKeep
  have h1 := Kept.refl s
  refine Kept.next ?_
  refine Kept.trans ?_ (State.secKey_kept _ (?_) _ _ _)
  · exact h1
  · intro t1
    try dsimp -zeta only
    have h2 := Kept.refl t1
    refine Kept.trans ?_ (State.allocKeep_kept ..)
    exact h2

/-- What State.byHolder keeps. -/
theorem State.byHolder_kept (f : State → Nat → State × Nat × List Byte) (hf : ∀ s k, Kept s (f s k).1) :
    ∀ s r, Kept s (State.byHolder s r f).1 := by
  intro s r
  unfold State.byHolder
  extract_lets k
  exact Kept.ite Prod.fst (fun _ => .refl s) (fun _ => Kept.ite Prod.fst (fun _ => hf _ _) (fun _ => .refl s))

/-- What execGrant keeps. -/
theorem execGrant_kept : ∀ v0 s, Kept s (outOr s ((execGrant v0 s))) := by
  intro v0 s
  unfold execGrant
  have h1 := Kept.refl s
  refine Kept.next ?_
  refine Kept.trans ?_ (State.secKey_kept _ (?_) _ _ _)
  · exact h1
  · intro t1
    try dsimp -zeta only
    have h2 := Kept.refl t1
    refine Kept.trans ?_ (State.byHolder_kept _ (?_) _ _)
    · exact h2
    · intro t2 y1
      try dsimp -zeta only
      have h3 := Kept.refl t2
      extract_lets +onlyGivenNames -underBinder -merge x1
      try clear_value x1
      refine Kept.ite Prod.fst (fun _ => ?_) (fun _ => ?_)
      · try dsimp -zeta only
        exact h3
      · try dsimp -zeta only
        refine Kept.trans ?_ (State.modKey_kept ..)
        exact h3

/-- What execRevoke keeps. -/
theorem execRevoke_kept : ∀ v0 s, Kept s (outOr s ((execRevoke v0 s))) := by
  intro v0 s
  unfold execRevoke
  have h1 := Kept.refl s
  refine Kept.next ?_
  refine Kept.trans ?_ (State.secKey_kept _ (?_) _ _ _)
  · exact h1
  · intro t1
    try dsimp -zeta only
    have h2 := Kept.refl t1
    refine Kept.trans ?_ (State.byHolder_kept _ (?_) _ _)
    · exact h2
    · intro t2 y1
      try dsimp -zeta only
      have h3 := Kept.refl t2
      extract_lets +onlyGivenNames -underBinder -merge x1
      try clear_value x1
      refine Kept.ite Prod.fst (fun _ => ?_) (fun _ => ?_)
      · try dsimp -zeta only
        exact h3
      · extract_lets +onlyGivenNames -underBinder -merge x2
        have h4 : Kept t2 x2 := by
          dsimp -zeta only [x2]
          refine Kept.trans ?_ (State.modKey_kept ..)
          exact h3
        try clear_value x2
        try dsimp -zeta only
        refine Kept.ifs (fun _ => ?_) (fun _ => ?_)
        · refine Kept.trans ?_ (State.release_kept ..)
          exact h4
        · exact h4

/-- What State.rotate keeps. -/
theorem State.rotate_kept : ∀ s v1, Kept s ((State.rotate s v1).1) := by
  intro s v1
  unfold State.rotate
  have h1 := Kept.refl s
  extract_lets +onlyGivenNames -underBinder -merge x1
  try clear_value x1
  refine Kept.ite Prod.fst (fun _ => ?_) (fun _ => ?_)
  · try dsimp -zeta only
    exact h1
  · extract_lets +onlyGivenNames -underBinder -merge x2
    have h2 : Kept s x2 := by
      dsimp -zeta only [x2]
      refine Kept.trans ?_ (State.freshKey_kept ..)
      refine Kept.trans ?_ (State.destroyKeys_kept ..)
      exact h1
    try clear_value x2
    try dsimp -zeta only
    exact h2

/-- What execRotate keeps. -/
theorem execRotate_kept : ∀ v0 s, Kept s (outOr s ((execRotate v0 s))) := by
  intro v0 s
  unfold execRotate
  have h1 := Kept.refl s
  refine Kept.next ?_
  refine Kept.trans ?_ (State.secKey_kept _ (?_) _ _ _)
  · exact h1
  · intro t1
    try dsimp -zeta only
    have h2 := Kept.refl t1
    refine Kept.trans ?_ (State.byHolder_kept _ (?_) _ _)
    · exact h2
    · intro t2 y1
      try dsimp -zeta only
      have h3 := Kept.refl t2
      refine Kept.trans ?_ (State.rotate_kept ..)
      exact h3

/-- What State.destroyByRequest keeps. -/
theorem State.destroyByRequest_kept : ∀ s v1, Kept s ((State.destroyByRequest s v1).1) := by
  intro s v1
  unfold State.destroyByRequest
  have h1 := Kept.refl s
  extract_lets +onlyGivenNames -underBinder -merge x1
  try clear_value x1
  extract_lets +onlyGivenNames -underBinder -merge x2
  try clear_value x2
  refine Kept.ite Prod.fst (fun _ => ?_) (fun _ => ?_)
  · try dsimp -zeta only
    exact h1
  · refine Kept.ite Prod.fst (fun _ => ?_) (fun _ => ?_)
    · try dsimp -zeta only
      refine Kept.trans ?_ (State.destroyKeys_kept ..)
      exact h1
    · try dsimp -zeta only
      exact h1

/-- What execDestroy keeps. -/
theorem execDestroy_kept : ∀ v0 s, Kept s (outOr s ((execDestroy v0 s))) := by
  intro v0 s
  unfold execDestroy
  have h1 := Kept.refl s
  refine Kept.next ?_
  refine Kept.trans ?_ (State.secKey_kept _ (?_) _ _ _)
  · exact h1
  · intro t1
    try dsimp -zeta only
    have h2 := Kept.refl t1
    refine Kept.trans ?_ (State.destroyByRequest_kept ..)
    exact h2

/-- What State.giveChallenge keeps. -/
theorem State.giveChallenge_kept : ∀ s v1 v2 v3, Kept s ((State.giveChallenge s v1 v2 v3).1) := by
  intro s v1 v2 v3
  unfold State.giveChallenge
  have h1 := Kept.refl s
  split
  · rename_i a1 a2 q1
    have h2 : Kept s a2 := by
      have e := congrArg Prod.snd q1
      dsimp only at e
      rw [← e]
      refine Kept.trans ?_ (State.free_kept ..)
      exact h1
    extract_lets +onlyGivenNames -underBinder -merge x1
    try clear_value x1
    extract_lets +onlyGivenNames -underBinder -merge x2
    try clear_value x2
    try dsimp -zeta only
    exact Kept.of (t := a2) rfl rfl rfl rfl rfl h2

/-- What State.takeChallenge keeps. -/
theorem State.takeChallenge_kept : ∀ s r target debug, Kept s (State.takeChallenge s r target debug).2 := by
  intro s r target debug
  unfold State.takeChallenge
  extract_lets +onlyGivenNames mine
  extract_lets +onlyGivenNames -underBinder -merge x u
  have h : Kept s u := Kept.of (t := s) rfl rfl rfl rfl rfl (.refl s)
  clear_value x u
  split <;> exact h

/-- Taking a challenge leaves the lifecycle. -/
theorem State.takeChallenge_lifecycle (s : State) (r : Request) (target : Nat) (debug : Bool) :
    (State.takeChallenge s r target debug).2.sec.lifecycle = s.sec.lifecycle := by
  unfold State.takeChallenge
  dsimp only
  split <;> rfl

/-- What State.authFails keeps. -/
theorem State.authFails_kept : ∀ s v1 v2, Kept s (State.authFails s v1 v2) := by
  intro s v1 v2
  unfold State.authFails
  have h1 := Kept.refl s
  refine Kept.trans ?_ (State.respond_kept ..)
  refine Kept.trans ?_ (State.logNote_kept ..)
  exact h1

/-- What State.abortAny keeps. -/
theorem State.abortAny_kept : ∀ s, Kept s (State.abortAny s) := by
  intro s
  unfold State.abortAny
  have h1 := Kept.refl s
  split
  · refine Kept.trans ?_ (State.abortWork_kept ..)
    exact h1
  · exact h1

/-- What State.transit keeps. -/
theorem Security.lifecycleTo_lifecycle (x : Security) (a b : Nat) (l : List Byte) :
    (x.lifecycleTo a b l).lifecycle = BitVec.ofNat 2 b := by
  unfold Security.lifecycleTo
  extract_lets y
  split <;> rfl

/-- A transition of Table 17-6 never comes back to BLANK and none leaves RETIRED. -/
theorem transition_bounds (a b : Nat) (h : transition a b = true) : a < 3 ∧ 0 < b ∧ b < 4 := by
  simp only [transition, Bool.or_eq_true, Bool.and_eq_true, decide_eq_true_eq, beq_iff_eq, Prod.mk.injEq] at h
  omega

/-- What State.transit keeps, when the transition is one of Table 17-6 from the state the module is in. -/
theorem State.transit_kept : ∀ s r report a b body, s.sec.lifecycle.toNat = a → transition a b = true →
    Kept s (State.transit s r report a b body) := by
  intro s r report a b body ha ht
  have hb := transition_bounds a b ht
  have hk : ∀ u : State, Kept s u → Kept s { u with sec := u.sec.lifecycleTo a b body } := by
    intro u hu
    refine ⟨hu.variant, hu.svn, fun h => ?_, fun h => ?_, hu.queue, hu.mem⟩
    · exfalso
      dsimp only at h
      rw [Security.lifecycleTo_lifecycle] at h
      have := congrArg BitVec.toNat h
      simp only [BitVec.toNat_ofNat, BitVec.ofNat_eq_ofNat] at this
      omega
    · exfalso
      rw [h] at ha
      simp at ha
      omega
  unfold State.transit
  extract_lets +onlyGivenNames u v
  have hu : Kept s u := State.abortAny_kept ..
  clear_value u
  have hv : Kept s v := hu.trans (State.destroyKeys_kept ..)
  clear_value v
  have hd : Kept s v.debugEnd := hv.trans (State.debugEnd_kept ..)
  extract_lets +onlyGivenNames -underBinder -merge w0 w
  have hw : Kept s w := hk v.debugEnd hd
  clear_value w0 w
  extract_lets +onlyGivenNames -underBinder -merge y1 y
  have hy : Kept s y := Kept.of (t := w) rfl rfl rfl rfl rfl hw
  clear_value y1 y
  extract_lets +onlyGivenNames -underBinder -merge z
  have hz : Kept s z := (hy.trans (State.logNote_kept ..)).trans (State.respond_kept ..)
  clear_value z
  extract_lets +onlyGivenNames -underBinder -merge x1 x
  have hx : Kept s x := Kept.of (t := z) rfl rfl rfl rfl rfl hz
  clear_value x1 x
  exact Kept.ifs (fun _ => hx) (fun _ => (hx.trans (State.domainsOff_kept ..)).trans (State.pilotExit_kept ..))

/-- What State.secLifecycle keeps. -/
theorem State.secLifecycle_kept : ∀ s r report, Kept s (State.secLifecycle s r report) := by
  intro s r report
  unfold State.secLifecycle
  extract_lets +onlyGivenNames a b
  refine Kept.ifs (fun _ => State.respond_kept ..) (fun ht => Kept.ifs (fun _ => (State.giveChallenge_kept ..).trans (State.respond_kept ..)) (fun _ => ?_))
  have h := State.takeChallenge_kept s r b false
  have hl := State.takeChallenge_lifecycle s r b false
  split
  · rename_i u q
    rw [q] at h
    exact h.trans (State.authFails_kept ..)
  · rename_i x u q
    rw [q] at h hl
    refine Kept.ifs (fun _ => h.trans (State.authFails_kept ..)) (fun _ => Kept.ifs (fun _ => ?_) (fun _ => ?_))
    · refine (Kept.trans ?_ (State.logNote_kept ..)).trans (State.respond_kept ..)
      exact Kept.of (t := u) rfl rfl rfl rfl rfl h
    · refine h.trans (State.transit_kept _ _ _ _ _ _ ?_ (by simpa using ht))
      exact congrArg BitVec.toNat hl

/-- What execSecLifecycle keeps. -/
theorem execSecLifecycle_kept : ∀ v0 v1 s, Kept s (outOr s ((execSecLifecycle v0 v1 s))) := by
  intro v0 v1 s
  unfold execSecLifecycle
  have h1 := Kept.refl s
  refine Kept.next ?_
  refine Kept.trans ?_ (State.serve_kept _ (?_) _ _ _)
  · exact h1
  · intro t1
    try dsimp -zeta only
    have h2 := Kept.refl t1
    refine Kept.trans ?_ (State.secLifecycle_kept ..)
    exact h2

/-- What execLifecycleChallengeExpiry keeps. -/
theorem execLifecycleChallengeExpiry_kept : ∀ v0 s, Kept s (outOr s ((execLifecycleChallengeExpiry v0 s))) := by
  intro v0 s
  unfold execLifecycleChallengeExpiry
  have h1 := Kept.refl s
  refine Kept.next ?_
  exact Kept.of (t := s) rfl rfl rfl rfl rfl h1

/-- What State.debugSteps keeps. -/
theorem State.debugSteps_kept : ∀ s v1 v2, Kept s (State.debugSteps s v1 v2) := by
  intro s v1 v2
  unfold State.debugSteps
  have h1 := Kept.refl s
  refine Kept.ifs (fun _ => ?_) (fun _ => ?_)
  · exact h1
  · extract_lets +onlyGivenNames -underBinder -merge x1
    have h2 : Kept s x1 := by
      dsimp -zeta only [x1]
      refine Kept.trans ?_ (State.abortAny_kept ..)
      exact h1
    try clear_value x1
    extract_lets +onlyGivenNames -underBinder -merge x2
    have h3 : Kept s x2 := by
      dsimp -zeta only [x2]
      refine Kept.trans ?_ (State.destroyKeys_kept ..)
      exact h2
    try clear_value x2
    extract_lets +onlyGivenNames -underBinder -merge x3 x4
    have h4 : Kept s x4 := by
      dsimp -zeta only [x4]
      exact Kept.of (t := x2) rfl rfl rfl rfl rfl h3
    try clear_value x3 x4
    refine Kept.ifs (fun _ => ?_) (fun _ => ?_)
    · refine Kept.trans ?_ (State.hostRestart_kept ..)
      exact h4
    · exact h4

/-- What State.debugOpen keeps. -/
theorem State.debugOpen_kept : ∀ s v1 v2 v3, Kept s (State.debugOpen s v1 v2 v3) := by
  intro s v1 v2 v3
  unfold State.debugOpen
  have h1 := Kept.refl s
  extract_lets +onlyGivenNames -underBinder -merge x1
  have h2 : Kept s x1 := by
    dsimp -zeta only [x1]
    refine Kept.trans ?_ (State.debugSteps_kept ..)
    exact h1
  try clear_value x1
  refine Kept.trans ?_ (State.respond_kept ..)
  refine Kept.trans ?_ (State.hdEvent_kept ..)
  exact Kept.of (t := x1) rfl rfl rfl rfl rfl h2

/-- What State.secDebug keeps. -/
theorem State.secDebug_kept : ∀ s v1 v2, Kept s (State.secDebug s v1 v2) := by
  intro s v1 v2
  unfold State.secDebug
  have h1 := Kept.refl s
  extract_lets +onlyGivenNames -underBinder -merge x1
  try clear_value x1
  refine Kept.ifs (fun _ => ?_) (fun _ => ?_)
  · refine Kept.trans ?_ (State.respond_kept ..)
    refine Kept.trans ?_ (State.debugEnd_kept ..)
    exact h1
  · refine Kept.ifs (fun _ => ?_) (fun _ => ?_)
    · refine Kept.trans ?_ (State.respond_kept ..)
      exact h1
    · refine Kept.ifs (fun _ => ?_) (fun _ => ?_)
      · refine Kept.trans ?_ (State.respond_kept ..)
        exact h1
      · refine Kept.ifs (fun _ => ?_) (fun _ => ?_)
        · refine Kept.trans ?_ (State.debugOpen_kept ..)
          exact h1
        · refine Kept.ifs (fun _ => ?_) (fun _ => ?_)
          · extract_lets +onlyGivenNames -underBinder -merge x2
            have h2 : Kept s x2.1 := by
              dsimp -zeta only [x2]
              refine Kept.trans ?_ (State.giveChallenge_kept ..)
              exact h1
            try clear_value x2
            refine Kept.trans ?_ (State.respond_kept ..)
            exact h2
          · split
            · rename_i a1 q1
              have h3 : Kept s a1 := by
                have e := congrArg Prod.snd q1
                dsimp only at e
                rw [← e]
                refine Kept.trans ?_ (State.takeChallenge_kept ..)
                exact h1
              refine Kept.trans ?_ (State.authFails_kept ..)
              exact h3
            · rename_i a2 a3 q2
              have h4 : Kept s a3 := by
                have e := congrArg Prod.snd q2
                dsimp only at e
                rw [← e]
                refine Kept.trans ?_ (State.takeChallenge_kept ..)
                exact h1
              refine Kept.ifs (fun _ => ?_) (fun _ => ?_)
              · refine Kept.trans ?_ (State.debugOpen_kept ..)
                exact h4
              · refine Kept.trans ?_ (State.authFails_kept ..)
                exact h4

/-- What execSecDebug keeps. -/
theorem execSecDebug_kept : ∀ v0 v1 s, Kept s (outOr s ((execSecDebug v0 v1 s))) := by
  intro v0 v1 s
  unfold execSecDebug
  have h1 := Kept.refl s
  refine Kept.next ?_
  refine Kept.trans ?_ (State.serve_kept _ (?_) _ _ _)
  · exact h1
  · intro t1
    try dsimp -zeta only
    have h2 := Kept.refl t1
    refine Kept.trans ?_ (State.secDebug_kept ..)
    exact h2

/-- What execDebugSessionExpiry keeps. -/
theorem execDebugSessionExpiry_kept : ∀ s, Kept s (outOr s ((execDebugSessionExpiry s))) := by
  intro s
  unfold execDebugSessionExpiry
  have h1 := Kept.refl s
  refine Kept.next ?_
  refine Kept.ifs (fun _ => ?_) (fun _ => ?_)
  · refine Kept.trans ?_ (State.debugEnd_kept ..)
    exact h1
  · exact h1

/-! ## YesiaSvc -/

/-- What State.stageEnds keeps. -/
theorem State.stageEnds_kept : ∀ s, Kept s ((State.stageEnds s).1) := by
  intro s
  unfold State.stageEnds
  have h1 := Kept.refl s
  extract_lets +onlyGivenNames -underBinder -merge x1
  try clear_value x1
  refine Kept.ite Prod.fst (fun _ => ?_) (fun _ => ?_)
  · try dsimp -zeta only
    refine Kept.trans ?_ (State.hdEvent_kept ..)
    exact Kept.of (t := s) rfl rfl rfl rfl rfl h1
  · try dsimp -zeta only
    exact Kept.of (t := s) rfl rfl rfl rfl rfl h1

/-- What State.svcStage keeps. -/
theorem State.svcStage_kept : ∀ s v1, Kept s ((State.svcStage s v1).1) := by
  intro s v1
  unfold State.svcStage
  have h1 := Kept.refl s
  extract_lets +onlyGivenNames -underBinder -merge x1
  try clear_value x1
  extract_lets +onlyGivenNames -underBinder -merge x2
  try clear_value x2
  extract_lets +onlyGivenNames -underBinder -merge x3
  try clear_value x3
  refine Kept.ite Prod.fst (fun _ => ?_) (fun _ => ?_)
  · try dsimp -zeta only
    exact h1
  · refine Kept.ite Prod.fst (fun _ => ?_) (fun _ => ?_)
    · try dsimp -zeta only
      exact h1
    · extract_lets +onlyGivenNames -underBinder -merge x4
      try clear_value x4
      extract_lets +onlyGivenNames -underBinder -merge x5 x6
      have h2 : Kept s x6 := by
        dsimp -zeta only [x6]
        exact Kept.of (t := s) rfl rfl rfl rfl rfl h1
      try clear_value x5 x6
      refine Kept.ite Prod.fst (fun _ => ?_) (fun _ => ?_)
      · extract_lets +onlyGivenNames -underBinder -merge x7
        have h3 : Kept s x7.1 := by
          dsimp -zeta only [x7]
          refine Kept.trans ?_ (State.stageEnds_kept ..)
          exact h2
        try clear_value x7
        try dsimp -zeta only
        exact h3
      · try dsimp -zeta only
        exact h2

/-- What execSvcStage keeps. -/
theorem execSvcStage_kept : ∀ v0 s, Kept s (outOr s ((execSvcStage v0 s))) := by
  intro v0 s
  unfold execSvcStage
  have h1 := Kept.refl s
  refine Kept.next ?_
  refine Kept.trans ?_ (State.serveNow_kept _ (?_) _ _ _)
  · exact h1
  · intro t1
    try dsimp -zeta only
    have h2 := Kept.refl t1
    refine Kept.trans ?_ (State.svcStage_kept ..)
    exact h2

/-- What State.activated keeps. -/
theorem State.activated_kept : ∀ s v1, Kept s (State.activated s v1) := by
  intro s v1
  unfold State.activated
  have h1 := Kept.refl s
  extract_lets +onlyGivenNames -underBinder -merge x1
  have h2 : Kept s x1 := by
    dsimp -zeta only [x1]
    refine Kept.trans ?_ (State.romPass_kept ..)
    exact h1
  try clear_value x1
  extract_lets +onlyGivenNames -underBinder -merge x2 x3 x4
  have h3 : Kept s x4 := by
    dsimp -zeta only [x4]
    exact Kept.of (t := x1) rfl rfl rfl rfl rfl h2
  try clear_value x2 x3 x4
  extract_lets +onlyGivenNames -underBinder -merge x5
  try clear_value x5
  extract_lets +onlyGivenNames -underBinder -merge x6
  have h4 : Kept s x6 := by
    dsimp -zeta only [x6]
    refine Kept.trans ?_ (State.fwEvent_kept ..)
    refine Kept.trans ?_ (State.logReset_kept ..)
    exact h3
  try clear_value x6
  refine Kept.trans ?_ (State.respond_kept ..)
  exact Kept.of (t := x6) rfl rfl rfl rfl rfl h4

/-- What State.svcActivate keeps. -/
theorem State.svcActivate_kept : ∀ s v1 v2, Kept s (State.svcActivate s v1 v2) := by
  intro s v1 v2
  unfold State.svcActivate
  have h1 := Kept.refl s
  extract_lets +onlyGivenNames -underBinder -merge x1
  try clear_value x1
  refine Kept.ifs (fun _ => ?_) (fun _ => ?_)
  · refine Kept.trans ?_ (State.respond_kept ..)
    exact Kept.of (t := s) rfl rfl rfl rfl rfl h1
  · refine Kept.ifs (fun _ => ?_) (fun _ => ?_)
    · refine Kept.trans ?_ (State.respond_kept ..)
      exact h1
    · refine Kept.ifs (fun _ => ?_) (fun _ => ?_)
      · refine Kept.trans ?_ (State.respond_kept ..)
        exact h1
      · extract_lets +onlyGivenNames -underBinder -merge x2
        have h2 : Kept s x2 := by
          dsimp -zeta only [x2]
          refine Kept.trans ?_ (State.logsCopy_kept ..)
          exact h1
        try clear_value x2
        refine Kept.ifs (fun _ => ?_) (fun _ => ?_)
        · refine Kept.trans ?_ (State.activated_kept ..)
          exact h2
        · exact Kept.of (t := x2) rfl rfl rfl rfl rfl h2

/-- What execSvcActivate keeps. -/
theorem execSvcActivate_kept : ∀ v0 v1 s, Kept s (outOr s ((execSvcActivate v0 v1 s))) := by
  intro v0 v1 s
  unfold execSvcActivate
  have h1 := Kept.refl s
  refine Kept.next ?_
  refine Kept.trans ?_ (State.serve_kept _ (?_) _ _ _)
  · exact h1
  · intro t1
    try dsimp -zeta only
    have h2 := Kept.refl t1
    refine Kept.ifs (fun _ => ?_) (fun _ => ?_)
    · refine Kept.trans ?_ (State.respond_kept ..)
      exact h2
    · refine Kept.trans ?_ (State.svcActivate_kept ..)
      exact h2

/-- What State.handoverFails keeps. -/
theorem State.handoverFails_kept : ∀ s r good, Kept s (State.handoverFails s r good) := by
  intro s r good
  unfold State.handoverFails
  have hu : Kept s (if good then s.romPass s.svc.flash else s) := Kept.ifs (fun _ => State.romPass_kept ..) (fun _ => .refl s)
  generalize (if good then s.romPass s.svc.flash else s) = u at hu
  dsimp only
  refine Kept.ifs (fun _ => Kept.trans ?_ (State.takeHeld_kept ..)) (fun _ => Kept.trans (Kept.trans ?_ (State.enterPilot_kept ..)) (State.takeHeld_kept ..))
  all_goals
    refine ((Kept.trans ?_ (State.logReset_kept ..)).trans (State.fwEvent_kept ..)).trans (State.respond_kept ..)
    exact Kept.of (t := u) rfl rfl rfl rfl rfl hu

/-- What execActivationHandoverTimeout keeps. -/
theorem execActivationHandoverTimeout_kept : ∀ s, Kept s (outOr s ((execActivationHandoverTimeout s))) := by
  intro s
  unfold execActivationHandoverTimeout
  have h1 := Kept.refl s
  split
  · refine Kept.next ?_
    exact h1
  · refine Kept.next ?_
    refine Kept.trans ?_ (State.handoverFails_kept ..)
    exact h1

/-- What execFlashWriteComplete keeps. -/
theorem execFlashWriteComplete_kept : ∀ v0 s, Kept s (outOr s ((execFlashWriteComplete v0 s))) := by
  intro v0 s
  unfold execFlashWriteComplete
  have h1 := Kept.refl s
  refine Kept.ite (outOr s) (fun _ => ?_) (fun _ => ?_)
  · refine Kept.next ?_
    exact h1
  · refine Kept.ite (outOr s) (fun _ => ?_) (fun _ => ?_)
    · refine Kept.next ?_
      refine Kept.trans ?_ (State.fwEvent_kept ..)
      exact Kept.of (t := s) rfl rfl rfl rfl rfl h1
    · refine Kept.next ?_
      refine Kept.trans ?_ (State.fwEvent_kept ..)
      exact Kept.of (t := s) rfl rfl rfl rfl rfl h1

/-- What State.selftestTiles keeps. -/
theorem State.selftestTiles_kept : ∀ s v1 v2 v3, Kept s (State.selftestTiles s v1 v2 v3) := by
  intro s v1 v2 v3
  unfold State.selftestTiles
  have h1 := Kept.refl s
  extract_lets +onlyGivenNames -underBinder -merge x1
  try clear_value x1
  extract_lets +onlyGivenNames -underBinder -merge x2
  try clear_value x2
  extract_lets +onlyGivenNames -underBinder -merge x3
  try clear_value x3
  extract_lets +onlyGivenNames -underBinder -merge x4
  have h2 : Kept s x4 := by
    dsimp -zeta only [x4]
    refine Kept.folds _ (fun t1 x5 h3 => ?_) ?_
    · try dsimp -zeta only
      refine Kept.trans ?_ (State.dieEvent_kept ..)
      exact h3
    · try dsimp -zeta only
      exact h1
  try clear_value x4
  extract_lets +onlyGivenNames -underBinder -merge x6
  try clear_value x6
  extract_lets +onlyGivenNames -underBinder -merge x7
  have h4 : Kept s x7 := by
    dsimp -zeta only [x7]
    refine Kept.trans ?_ (State.modDie_kept ..)
    exact h2
  try clear_value x7
  refine Kept.folds _ (fun t2 x8 h5 => ?_) ?_
  · try dsimp -zeta only
    extract_lets +onlyGivenNames -underBinder -merge x9
    try clear_value x9
    extract_lets +onlyGivenNames -underBinder -merge x10
    try clear_value x10
    extract_lets +onlyGivenNames -underBinder -merge x11
    try clear_value x11
    extract_lets +onlyGivenNames -underBinder -merge x12
    have h6 : Kept s x12 := by
      dsimp -zeta only [x12]
      refine Kept.ifs (fun _ => ?_) (fun _ => ?_)
      · refine Kept.trans ?_ (State.logNote_kept ..)
        exact h5
      · exact h5
    try clear_value x12
    refine Kept.trans ?_ (State.modTile_kept ..)
    exact h6
  · try dsimp -zeta only
    exact h4

/-- What State.selftestLane keeps. -/
theorem State.selftestLane_kept : ∀ s v1 v2, Kept s (State.selftestLane s v1 v2) := by
  intro s v1 v2
  unfold State.selftestLane
  have h1 := Kept.refl s
  refine Kept.ifs (fun _ => ?_) (fun _ => ?_)
  · exact h1
  · extract_lets +onlyGivenNames -underBinder -merge x1
    have h2 : Kept s x1 := by
      dsimp -zeta only [x1]
      refine Kept.trans ?_ (State.modLink_kept ..)
      exact h1
    try clear_value x1
    refine Kept.trans ?_ (State.modLink_kept ..)
    refine Kept.trans ?_ (State.checkEnd_kept ..)
    exact h2

/-- What State.selftestLines keeps. -/
theorem State.selftestLines_kept : ∀ s v1, Kept s (State.selftestLines s v1) := by
  intro s v1
  unfold State.selftestLines
  have h1 := Kept.refl s
  refine Kept.folds _ (fun t1 x1 h2 => ?_) ?_
  · try dsimp -zeta only
    split
    · refine Kept.ifs (fun _ => ?_) (fun _ => ?_)
      · exact h2
      · refine Kept.trans ?_ (State.controllerRead_kept ..)
        exact h2
    · exact h2
  · try dsimp -zeta only
    exact h1

/-- What State.svcSelftest keeps. -/
theorem State.svcSelftest_kept : ∀ s v1 v2 v3 v4, Kept s ((State.svcSelftest s v1 v2 v3 v4).1) := by
  intro s v1 v2 v3 v4
  unfold State.svcSelftest
  have h1 := Kept.refl s
  extract_lets +onlyGivenNames -underBinder -merge x1
  try clear_value x1
  extract_lets +onlyGivenNames -underBinder -merge x2
  have h2 : Kept s x2 := by
    dsimp -zeta only [x2]
    refine Kept.ifs (fun _ => ?_) (fun _ => ?_)
    · refine Kept.folds _ (fun t1 x3 h3 => ?_) ?_
      · try dsimp -zeta only
        refine Kept.trans ?_ (State.selftestTiles_kept ..)
        exact h3
      · try dsimp -zeta only
        exact h1
    · exact h1
  try clear_value x2
  extract_lets +onlyGivenNames -underBinder -merge x4
  have h4 : Kept s x4 := by
    dsimp -zeta only [x4]
    refine Kept.ifs (fun _ => ?_) (fun _ => ?_)
    · refine Kept.folds _ (fun t2 x5 h5 => ?_) ?_
      · try dsimp -zeta only
        refine Kept.trans ?_ (State.selftestLane_kept ..)
        exact h5
      · try dsimp -zeta only
        exact h2
    · exact h2
  try clear_value x4
  extract_lets +onlyGivenNames -underBinder -merge x6
  have h6 : Kept s x6 := by
    dsimp -zeta only [x6]
    refine Kept.ifs (fun _ => ?_) (fun _ => ?_)
    · refine Kept.trans ?_ (State.selftestLines_kept ..)
      exact h4
    · exact h4
  try clear_value x6
  try dsimp -zeta only
  exact h6

/-- What execSvcSelftest keeps. -/
theorem execSvcSelftest_kept : ∀ v0 v1 v2 v3 s, Kept s (outOr s ((execSvcSelftest v0 v1 v2 v3 s))) := by
  intro v0 v1 v2 v3 s
  unfold execSvcSelftest
  have h1 := Kept.refl s
  refine Kept.next ?_
  refine Kept.trans ?_ (State.serveNow_kept _ (?_) _ _ _)
  · exact h1
  · intro t1
    try dsimp -zeta only
    have h2 := Kept.refl t1
    refine Kept.ite Prod.fst (fun _ => ?_) (fun _ => ?_)
    · try dsimp -zeta only
      exact h2
    · refine Kept.trans ?_ (State.svcSelftest_kept ..)
      exact h2

/-- What execSvcLog keeps. -/
theorem execSvcLog_kept : ∀ v0 s, Kept s (outOr s ((execSvcLog v0 s))) := by
  intro v0 s
  unfold execSvcLog
  have h1 := Kept.refl s
  refine Kept.next ?_
  refine Kept.trans ?_ (State.serveNow_kept _ (?_) _ _ _)
  · exact h1
  · intro t1
    try dsimp -zeta only
    have h2 := Kept.refl t1
    extract_lets +onlyGivenNames -underBinder -merge x1
    try clear_value x1
    try dsimp -zeta only
    exact h2

/-- What execLogFlashCopy keeps. -/
theorem execLogFlashCopy_kept : ∀ s, Kept s (outOr s ((execLogFlashCopy s))) := by
  intro s
  unfold execLogFlashCopy
  have h1 := Kept.refl s
  refine Kept.next ?_
  refine Kept.ifs (fun _ => ?_) (fun _ => ?_)
  · exact h1
  · refine Kept.trans ?_ (State.logsCopy_kept ..)
    exact h1

/-! ## Spdm -/

/-- What State.spdmSend keeps. -/
theorem State.spdmSend_kept : ∀ s v1, Kept s (State.spdmSend s v1) := by
  intro s v1
  unfold State.spdmSend
  have h3539 := Kept.refl s
  exact Kept.of (t := s) rfl rfl rfl rfl rfl h3539

/-- What State.spdmAnswer keeps. -/
theorem State.spdmAnswer_kept : ∀ s v1 v2 v3 v4, Kept s (State.spdmAnswer s v1 v2 v3 v4) := by
  intro s v1 v2 v3 v4
  unfold State.spdmAnswer
  have h1 := Kept.refl s
  refine Kept.trans ?_ (State.spdmSend_kept ..)
  exact h1

/-- What State.spdmError keeps. -/
theorem State.spdmError_kept : ∀ s v1, Kept s (State.spdmError s v1) := by
  intro s v1
  unfold State.spdmError
  have h1 := Kept.refl s
  refine Kept.trans ?_ (State.spdmAnswer_kept ..)
  exact h1

/-- What State.spdmServe keeps. -/
theorem State.spdmServe_kept (f : State → State) (hf : ∀ s, Kept s (f s)) : ∀ s code msg, Kept s (State.spdmServe s code msg f) := by
  intro s code msg
  unfold State.spdmServe
  exact Kept.ifs (fun _ => .refl s) (fun _ => hf s)

/-- What State.spdmAfter keeps. -/
theorem State.spdmAfter_kept (f : State → State) (hf : ∀ s, Kept s (f s)) : ∀ s code msg, Kept s (State.spdmAfter s code msg f) :=
  fun _ _ _ => State.spdmServe_kept _ (fun s => Kept.ifs (fun _ => State.spdmError_kept ..) (fun _ => Kept.ifs
    (fun _ => State.spdmError_kept ..) (fun _ => hf s))) _ _ _

/-- What execGetVersion keeps. -/
theorem execGetVersion_kept : ∀ v0 s, Kept s (outOr s ((execGetVersion v0 s))) := by
  intro v0 s
  unfold execGetVersion
  have h1 := Kept.refl s
  refine Kept.next ?_
  refine Kept.trans ?_ (State.spdmServe_kept _ (?_) _ _ _)
  · exact h1
  · intro t1
    try dsimp -zeta only
    have h2 := Kept.refl t1
    refine Kept.trans ?_ (State.spdmSend_kept ..)
    exact Kept.of (t := t1) rfl rfl rfl rfl rfl h2

/-- What execGetCapabilities keeps. -/
theorem execGetCapabilities_kept : ∀ v0 s, Kept s (outOr s ((execGetCapabilities v0 s))) := by
  intro v0 s
  unfold execGetCapabilities
  have h1 := Kept.refl s
  refine Kept.next ?_
  refine Kept.trans ?_ (State.spdmServe_kept _ (?_) _ _ _)
  · exact h1
  · intro t1
    try dsimp -zeta only
    have h2 := Kept.refl t1
    extract_lets +onlyGivenNames -underBinder -merge x1
    try clear_value x1
    refine Kept.ifs (fun _ => ?_) (fun _ => ?_)
    · refine Kept.trans ?_ (State.spdmError_kept ..)
      exact h2
    · extract_lets +onlyGivenNames -underBinder -merge x2
      try clear_value x2
      refine Kept.trans ?_ (State.spdmAnswer_kept ..)
      exact Kept.of (t := t1) rfl rfl rfl rfl rfl h2

/-- What execNegotiateAlgorithms keeps. -/
theorem execNegotiateAlgorithms_kept : ∀ v0 s, Kept s (outOr s ((execNegotiateAlgorithms v0 s))) := by
  intro v0 s
  unfold execNegotiateAlgorithms
  have h1 := Kept.refl s
  refine Kept.next ?_
  refine Kept.trans ?_ (State.spdmServe_kept _ (?_) _ _ _)
  · exact h1
  · intro t1
    try dsimp -zeta only
    have h2 := Kept.refl t1
    refine Kept.ifs (fun _ => ?_) (fun _ => ?_)
    · refine Kept.trans ?_ (State.spdmError_kept ..)
      exact h2
    · refine Kept.ifs (fun _ => ?_) (fun _ => ?_)
      · refine Kept.trans ?_ (State.spdmError_kept ..)
        exact h2
      · refine Kept.ifs (fun _ => ?_) (fun _ => ?_)
        · refine Kept.trans ?_ (State.spdmError_kept ..)
          exact h2
        · refine Kept.trans ?_ (State.spdmAnswer_kept ..)
          exact Kept.of (t := t1) rfl rfl rfl rfl rfl h2

/-- What execGetDigests keeps. -/
theorem execGetDigests_kept : ∀ v0 s, Kept s (outOr s ((execGetDigests v0 s))) := by
  intro v0 s
  unfold execGetDigests
  have h1 := Kept.refl s
  refine Kept.next ?_
  refine Kept.trans ?_ (State.spdmAfter_kept _ (?_) _ _ _)
  · exact h1
  · intro t1
    try dsimp -zeta only
    have h2 := Kept.refl t1
    refine Kept.trans ?_ (State.spdmAnswer_kept ..)
    exact h2

/-- What execGetCertificate keeps. -/
theorem execGetCertificate_kept : ∀ v0 s, Kept s (outOr s ((execGetCertificate v0 s))) := by
  intro v0 s
  unfold execGetCertificate
  have h1 := Kept.refl s
  refine Kept.next ?_
  refine Kept.trans ?_ (State.spdmAfter_kept _ (?_) _ _ _)
  · exact h1
  · intro t1
    try dsimp -zeta only
    have h2 := Kept.refl t1
    extract_lets +onlyGivenNames -underBinder -merge x1
    try clear_value x1
    extract_lets +onlyGivenNames -underBinder -merge x2
    try clear_value x2
    extract_lets +onlyGivenNames -underBinder -merge x3
    try clear_value x3
    refine Kept.ifs (fun _ => ?_) (fun _ => ?_)
    · refine Kept.trans ?_ (State.spdmError_kept ..)
      exact h2
    · refine Kept.trans ?_ (State.spdmAnswer_kept ..)
      exact h2

/-- What execChallenge keeps. -/
theorem execChallenge_kept : ∀ m s, Kept s (outOr s (execChallenge m s)) := by
  intro m s
  refine Kept.next (State.spdmAfter_kept _ (fun s => Kept.ifs (fun _ => State.spdmError_kept ..) (fun _ => ?_)) _ _ _)
  exact (((State.free_kept s 256).trans (State.free_kept _ 384)).trans (State.free_kept _ 768)).trans (State.spdmAnswer_kept ..)

/-- What execGetMeasurements keeps. -/
theorem execGetMeasurements_kept : ∀ m s, Kept s (outOr s (execGetMeasurements m s)) := by
  intro m s
  refine Kept.next (State.spdmAfter_kept _ (fun s => ?_) _ _ _)
  have h := ((State.free_kept s 256).trans (State.free_kept _ 256)).trans (State.free_kept _ 768)
  exact Kept.ifs (fun _ => h.trans (State.spdmError_kept ..)) (fun _ => h.trans (State.spdmAnswer_kept ..))

/-! ## Sideband -/

/-- What State.i3cAssign keeps. -/
theorem State.i3cAssign_kept : ∀ s v1, Kept s (State.i3cAssign s v1) := by
  intro s v1
  unfold State.i3cAssign
  have h1 := Kept.refl s
  refine Kept.ifs (fun _ => ?_) (fun _ => ?_)
  · exact h1
  · exact Kept.of (t := s) rfl rfl rfl rfl rfl h1

/-- What execSetdasa keeps. -/
theorem execSetdasa_kept : ∀ v0 s, Kept s (outOr s ((execSetdasa v0 s))) := by
  intro v0 s
  unfold execSetdasa
  have h1 := Kept.refl s
  refine Kept.next ?_
  refine Kept.ifs (fun _ => ?_) (fun _ => ?_)
  · refine Kept.trans ?_ (State.i3cAssign_kept ..)
    exact h1
  · exact h1

/-- What execEntdaa keeps. -/
theorem execEntdaa_kept : ∀ v0 s, Kept s (outOr s ((execEntdaa v0 s))) := by
  intro v0 s
  unfold execEntdaa
  have h1 := Kept.refl s
  refine Kept.ite (outOr s) (fun _ => ?_) (fun _ => ?_)
  · refine Kept.next ?_
    exact h1
  · refine Kept.next ?_
    extract_lets +onlyGivenNames -underBinder -merge x1
    have h2 : Kept s x1 := by
      dsimp -zeta only [x1]
      refine Kept.trans ?_ (State.i3cAssign_kept ..)
      exact h1
    try clear_value x1
    exact Kept.of (t := x1) rfl rfl rfl rfl rfl h2

/-- What State.shiftDr keeps. -/
theorem State.shiftDr_kept : ∀ s v1 v2, Kept s ((State.shiftDr s v1 v2).2) := by
  intro s v1 v2
  unfold State.shiftDr
  have h3567 := Kept.refl s
  split
  · try dsimp -zeta only
    exact h3567
  · try dsimp -zeta only
    exact h3567
  · try dsimp -zeta only
    exact Kept.of (t := s) rfl rfl rfl rfl rfl h3567

/-- What State.chainDr keeps. -/
theorem State.chainDr_kept : ∀ s v1, Kept s ((State.chainDr s v1).2) := by
  intro s v1
  unfold State.chainDr
  have h1 := Kept.refl s
  refine Kept.foldl Prod.snd _ (fun t1 x1 h2 => ?_) ?_
  · try dsimp -zeta only
    refine Kept.trans ?_ (State.shiftDr_kept ..)
    exact h2
  · try dsimp -zeta only
    try dsimp -zeta only
    exact h1

/-- What execJtagTapAccess keeps. -/
theorem execJtagTapAccess_kept : ∀ v0 v1 s, Kept s (outOr s ((execJtagTapAccess v0 v1 s))) := by
  intro v0 v1 s
  unfold execJtagTapAccess
  have h1 := Kept.refl s
  refine Kept.ite (outOr s) (fun _ => ?_) (fun _ => ?_)
  · refine Kept.next ?_
    exact h1
  · split
    · refine Kept.next ?_
      exact Kept.of (t := s) rfl rfl rfl rfl rfl h1
    · extract_lets +onlyGivenNames -underBinder -merge x1
      have h2 : Kept s x1.2 := by
        dsimp -zeta only [x1]
        refine Kept.trans ?_ (State.chainDr_kept ..)
        exact h1
      try clear_value x1
      refine Kept.next ?_
      extract_lets +onlyGivenNames -underBinder -merge x2
      have h3 : Kept s x2 := by
        dsimp -zeta only [x2]
        exact h2
      try clear_value x2
      exact Kept.of (t := x2) rfl rfl rfl rfl rfl h3
    · refine Kept.next ?_
      exact Kept.of (t := s) rfl rfl rfl rfl rfl h1

/-! ## RegWrite -/

/-- What State.by keeps. -/
theorem State.by_kept (f : State → Out) (hf : ∀ s, Kept s (outOr s (f s))) : ∀ s, Kept s (State.by s f) := by
  intro s
  have h := hf s
  unfold State.by
  split
  · rename_i t q
    rw [q] at h
    exact h
  · exact .refl s

/-- What State.writeGxe keeps. -/
theorem State.writeGxe_kept : ∀ s v1 v2 v3 v4, Kept s (State.writeGxe s v1 v2 v3 v4) := by
  intro s v1 v2 v3 v4
  unfold State.writeGxe
  have h1 := Kept.refl s
  refine Kept.ifs (fun _ => ?_) (fun _ => ?_)
  · extract_lets +onlyGivenNames -underBinder -merge x1
    try clear_value x1
    split
    · refine Kept.trans ?_ (State.by_kept _ (?_) _)
      · exact h1
      · intro t1
        try dsimp -zeta only
        have h2 := Kept.refl t1
        refine Kept.out ?_ (execGxeReplay_kept ..)
        exact h2
    · refine Kept.trans ?_ (State.by_kept _ (?_) _)
      · exact h1
      · intro t2
        try dsimp -zeta only
        have h3 := Kept.refl t2
        refine Kept.out ?_ (execGxeSave_kept ..)
        exact h3
    · refine Kept.trans ?_ (State.by_kept _ (?_) _)
      · exact h1
      · intro t3
        try dsimp -zeta only
        have h4 := Kept.refl t3
        refine Kept.out ?_ (execGxeDiscard_kept ..)
        exact h4
    · refine Kept.trans ?_ (State.by_kept _ (?_) _)
      · exact h1
      · intro t4
        try dsimp -zeta only
        have h5 := Kept.refl t4
        refine Kept.out ?_ (execGxeRestore_kept ..)
        exact h5
    · exact h1
  · refine Kept.ifs (fun _ => ?_) (fun _ => ?_)
    · refine Kept.trans ?_ (State.modTile_kept ..)
      exact h1
    · exact h1

/-- What State.writeWqCtrl keeps. -/
theorem State.writeWqCtrl_kept : ∀ s v1 v2 v3, Kept s (State.writeWqCtrl s v1 v2 v3) := by
  intro s v1 v2 v3
  unfold State.writeWqCtrl
  have h1 := Kept.refl s
  extract_lets +onlyGivenNames -underBinder -merge x1
  have h2 : Kept s x1 := by
    dsimp -zeta only [x1]
    refine Kept.ifs (fun _ => ?_) (fun _ => ?_)
    · refine Kept.trans ?_ (State.by_kept _ (?_) _)
      · exact h1
      · intro t1
        try dsimp -zeta only
        have h3 := Kept.refl t1
        refine Kept.out ?_ (execWqCtrlResume_kept ..)
        exact h3
    · exact h1
  try clear_value x1
  refine Kept.ifs (fun _ => ?_) (fun _ => ?_)
  · refine Kept.trans ?_ (State.by_kept _ (?_) _)
    · exact h2
    · intro t2
      try dsimp -zeta only
      have h4 := Kept.refl t2
      refine Kept.out ?_ (execWqCtrlReset_kept ..)
      exact h4
  · exact h2

/-- What State.writeWq keeps. -/
theorem State.writeWq_kept : ∀ s v1 v2 v3 v4, Kept s (State.writeWq s v1 v2 v3 v4) := by
  intro s v1 v2 v3 v4
  unfold State.writeWq
  have h1 := Kept.refl s
  extract_lets +onlyGivenNames -underBinder -merge x1
  try clear_value x1
  split
  · refine Kept.trans ?_ (State.writeWqCfg_kept ..)
    exact h1
  · refine Kept.trans ?_ (State.modWq_kept ..)
    exact h1
  · refine Kept.trans ?_ (State.modWq_kept ..)
    exact h1
  · refine Kept.trans ?_ (State.by_kept _ (?_) _)
    · exact h1
    · intro t1
      try dsimp -zeta only
      have h2 := Kept.refl t1
      refine Kept.out ?_ (execWqDoorbell_kept ..)
      exact h2
  · refine Kept.trans ?_ (State.modWq_kept ..)
    exact h1
  · refine Kept.trans ?_ (State.writeWqCtrl_kept ..)
    exact h1
  · refine Kept.trans ?_ (State.modWq_kept ..)
    exact h1
  · exact h1

/-- What State.writeDc keeps. -/
theorem State.writeDc_kept : ∀ s v1 v2 v3, Kept s (State.writeDc s v1 v2 v3) := by
  intro s v1 v2 v3
  unfold State.writeDc
  have h1 := Kept.refl s
  extract_lets +onlyGivenNames -underBinder -merge x1
  split
  · extract_lets +onlyGivenNames -underBinder -merge x2
    have h2 : Kept s x2 := by
      dsimp -zeta only [x2]
      dsimp -zeta only [x1]
      refine Kept.trans ?_ (State.modDie_kept ..)
      exact h1
    try clear_value x2
    refine Kept.ifs (fun _ => ?_) (fun _ => ?_)
    · refine Kept.trans ?_ (State.by_kept _ (?_) _)
      · exact h2
      · intro t1
        try dsimp -zeta only
        have h3 := Kept.refl t1
        refine Kept.out ?_ (execDcFlush_kept ..)
        exact h3
    · exact h2
  · dsimp -zeta only [x1]
    refine Kept.trans ?_ (State.modDie_kept ..)
    exact h1
  · dsimp -zeta only [x1]
    refine Kept.trans ?_ (State.modDie_kept ..)
    exact h1
  · exact h1

/-- What State.writePort keeps. -/
theorem State.writePort_kept : ∀ s v1 v2, Kept s (State.writePort s v1 v2) := by
  intro s v1 v2
  unfold State.writePort
  have h1 := Kept.refl s
  extract_lets +onlyGivenNames -underBinder -merge x1
  try clear_value x1
  extract_lets +onlyGivenNames -underBinder -merge x2
  try clear_value x2
  extract_lets +onlyGivenNames -underBinder -merge x3
  try clear_value x3
  extract_lets +onlyGivenNames -underBinder -merge x4
  have h2 : Kept s x4 := by
    dsimp -zeta only [x4]
    refine Kept.trans ?_ (State.modPort_kept ..)
    exact h1
  try clear_value x4
  extract_lets +onlyGivenNames -underBinder -merge x5
  have h3 : Kept s x5 := by
    dsimp -zeta only [x5]
    refine Kept.ifs (fun _ => ?_) (fun _ => ?_)
    · refine Kept.trans ?_ (State.reroute_kept ..)
      refine Kept.trans ?_ (State.modPort_kept ..)
      exact h2
    · refine Kept.ifs (fun _ => ?_) (fun _ => ?_)
      · refine Kept.trans ?_ (State.modPort_kept ..)
        exact h2
      · exact h2
  try clear_value x5
  refine Kept.ifs (fun _ => ?_) (fun _ => ?_)
  · exact h3
  · refine Kept.folds _ (fun t1 x6 h4 => ?_) ?_
    · try dsimp -zeta only
      extract_lets +onlyGivenNames -underBinder -merge x7
      have h5 : Kept s x7 := by
        dsimp -zeta only [x7]
        refine Kept.trans ?_ (State.modPort_kept ..)
        exact h4
      try clear_value x7
      refine Kept.ifs (fun _ => ?_) (fun _ => ?_)
      · refine Kept.trans ?_ (State.reroute_kept ..)
        refine Kept.trans ?_ (State.modPort_kept ..)
        exact h5
      · exact h5
    · try dsimp -zeta only
      exact h3

/-- What State.writeMc keeps. -/
theorem State.writeMc_kept : ∀ s v1 v2 v3, Kept s (State.writeMc s v1 v2 v3) := by
  intro s v1 v2 v3
  unfold State.writeMc
  have h1 := Kept.refl s
  extract_lets +onlyGivenNames -underBinder -merge x1
  try clear_value x1
  split
  · refine Kept.trans ?_ (State.modCtrl_kept ..)
    exact h1
  · refine Kept.trans ?_ (State.modCtrl_kept ..)
    exact h1
  · exact h1

/-- What State.writeHb keeps. -/
theorem State.writeHb_kept : ∀ s v1 v2, Kept s (State.writeHb s v1 v2) := by
  intro s v1 v2
  unfold State.writeHb
  have h1 := Kept.refl s
  extract_lets +onlyGivenNames -underBinder -merge x1
  try clear_value x1
  extract_lets +onlyGivenNames -underBinder -merge x2 x3
  have h2 : Kept s x3 := by
    dsimp -zeta only [x3]
    exact Kept.of (t := s) rfl rfl rfl rfl rfl h1
  try clear_value x2 x3
  refine Kept.ifs (fun _ => ?_) (fun _ => ?_)
  · refine Kept.trans ?_ (State.by_kept _ (?_) _)
    · exact h2
    · intro t1
      try dsimp -zeta only
      have h3 := Kept.refl t1
      refine Kept.out ?_ (execHostHbRestart_kept ..)
      exact h3
  · exact h2

/-- What State.writeBox keeps. -/
theorem State.writeBox_kept : ∀ s v1 v2 v3, Kept s (State.writeBox s v1 v2 v3) := by
  intro s v1 v2 v3
  unfold State.writeBox
  have h1 := Kept.refl s
  extract_lets +onlyGivenNames -underBinder -merge x1
  try clear_value x1
  extract_lets +onlyGivenNames -underBinder -merge x2
  try clear_value x2
  refine Kept.ifs (fun _ => ?_) (fun _ => ?_)
  · extract_lets +onlyGivenNames -underBinder -merge x3
    try clear_value x3
    refine Kept.trans ?_ (State.modBox_kept ..)
    exact h1
  · split
    · refine Kept.trans ?_ (State.by_kept _ (?_) _)
      · exact h1
      · intro t1
        try dsimp -zeta only
        have h2 := Kept.refl t1
        refine Kept.out ?_ (execMbxReqDb_kept ..)
        exact h2
    · refine Kept.trans ?_ (State.by_kept _ (?_) _)
      · exact h1
      · intro t2
        try dsimp -zeta only
        have h3 := Kept.refl t2
        refine Kept.out ?_ (execMbxRspAck_kept ..)
        exact h3
    · refine Kept.trans ?_ (State.by_kept _ (?_) _)
      · exact h1
      · intro t3
        try dsimp -zeta only
        have h4 := Kept.refl t3
        refine Kept.out ?_ (execMbxEvtTail_kept ..)
        exact h4
    · refine Kept.trans ?_ (State.modBox_kept ..)
      exact h1
    · refine Kept.ifs (fun _ => ?_) (fun _ => ?_)
      · refine Kept.trans ?_ (State.modBox_kept ..)
        exact h1
      · exact h1
    · exact h1

/-- What State.aplicSet keeps. -/
theorem State.aplicSet_kept : ∀ s v1 v2 v3, Kept s (State.aplicSet s v1 v2 v3) := by
  intro s v1 v2 v3
  unfold State.aplicSet
  have h1 := Kept.refl s
  extract_lets +onlyGivenNames -underBinder -merge x1
  try clear_value x1
  refine Kept.ifs (fun _ => ?_) (fun _ => ?_)
  · refine Kept.folds _ (fun t1 x2 h2 => ?_) ?_
    · try dsimp -zeta only
      refine Kept.trans ?_ (State.aplicSend_kept ..)
      exact h2
    · try dsimp -zeta only
      refine Kept.trans ?_ (State.modAplic_kept ..)
      exact h1
  · refine Kept.trans ?_ (State.modAplic_kept ..)
    exact h1

/-- What State.aplicSource keeps. -/
theorem State.aplicSource_kept : ∀ s v1 v2 v3, Kept s (State.aplicSource s v1 v2 v3) := by
  intro s v1 v2 v3
  unfold State.aplicSource
  have h1 := Kept.refl s
  extract_lets +onlyGivenNames -underBinder -merge x1
  try clear_value x1
  extract_lets +onlyGivenNames -underBinder -merge x2
  try clear_value x2
  extract_lets +onlyGivenNames -underBinder -merge x3
  try clear_value x3
  extract_lets +onlyGivenNames -underBinder -merge x4
  have h2 : Kept s x4 := by
    dsimp -zeta only [x4]
    refine Kept.trans ?_ (State.modAplic_kept ..)
    exact h1
  try clear_value x4
  refine Kept.ifs (fun _ => ?_) (fun _ => ?_)
  · exact h2
  · refine Kept.trans ?_ (State.modAplic_kept ..)
    exact h2

/-- What State.writeAplic keeps. -/
theorem State.writeAplic_kept : ∀ s v1 v2 v3, Kept s (State.writeAplic s v1 v2 v3) := by
  intro s v1 v2 v3
  unfold State.writeAplic
  have h1 := Kept.refl s
  extract_lets +onlyGivenNames -underBinder -merge x1
  try clear_value x1
  extract_lets +onlyGivenNames -underBinder -merge x2
  extract_lets +onlyGivenNames -underBinder -merge x3
  try clear_value x3
  extract_lets +onlyGivenNames -underBinder -merge x4
  refine Kept.ifs (fun _ => ?_) (fun _ => ?_)
  · refine Kept.folds _ (fun t1 x5 h2 => ?_) ?_
    · try dsimp -zeta only
      refine Kept.trans ?_ (State.aplicSend_kept ..)
      exact h2
    · try dsimp -zeta only
      refine Kept.trans ?_ (State.modAplic_kept ..)
      exact h1
  · refine Kept.ifs (fun _ => ?_) (fun _ => ?_)
    · refine Kept.trans ?_ (State.aplicSource_kept ..)
      exact h1
    · refine Kept.ifs (fun _ => ?_) (fun _ => ?_)
      · dsimp -zeta only [x2]
        refine Kept.folds _ (fun t2 x6 h3 => ?_) ?_
        · try dsimp -zeta only
          refine Kept.trans ?_ (State.aplicPend_kept ..)
          exact h3
        · try dsimp -zeta only
          exact h1
      · refine Kept.ifs (fun _ => ?_) (fun _ => ?_)
        · refine Kept.trans ?_ (State.aplicPend_kept ..)
          exact h1
        · refine Kept.ifs (fun _ => ?_) (fun _ => ?_)
          · dsimp -zeta only [x4]
            refine Kept.trans ?_ (State.modAplic_kept ..)
            exact h1
          · refine Kept.ifs (fun _ => ?_) (fun _ => ?_)
            · dsimp -zeta only [x4]
              refine Kept.trans ?_ (State.modAplic_kept ..)
              exact h1
            · refine Kept.ifs (fun _ => ?_) (fun _ => ?_)
              · refine Kept.trans ?_ (State.aplicSet_kept ..)
                exact h1
              · refine Kept.ifs (fun _ => ?_) (fun _ => ?_)
                · refine Kept.ifs (fun _ => ?_) (fun _ => ?_)
                  · refine Kept.trans ?_ (State.aplicSet_kept ..)
                    exact h1
                  · exact h1
                · refine Kept.ifs (fun _ => ?_) (fun _ => ?_)
                  · refine Kept.trans ?_ (State.aplicSet_kept ..)
                    exact h1
                  · refine Kept.ifs (fun _ => ?_) (fun _ => ?_)
                    · refine Kept.ifs (fun _ => ?_) (fun _ => ?_)
                      · refine Kept.trans ?_ (State.aplicSet_kept ..)
                        exact h1
                      · exact h1
                    · refine Kept.ifs (fun _ => ?_) (fun _ => ?_)
                      · refine Kept.trans ?_ (State.aplicMsi_kept ..)
                        exact h1
                      · refine Kept.ifs (fun _ => ?_) (fun _ => ?_)
                        · refine Kept.trans ?_ (State.modAplic_kept ..)
                          exact h1
                        · exact h1

/-- What State.regWrite keeps. -/
theorem State.regWrite_kept : ∀ s v1 v2 v3 v4, Kept s (State.regWrite s v1 v2 v3 v4) := by
  intro s v1 v2 v3 v4
  unfold State.regWrite
  have h1 := Kept.refl s
  split
  · refine Kept.trans ?_ (State.writeGxe_kept ..)
    exact h1
  · refine Kept.trans ?_ (State.writeWq_kept ..)
    exact h1
  · refine Kept.trans ?_ (State.writeDc_kept ..)
    exact h1
  · refine Kept.ifs (fun _ => ?_) (fun _ => ?_)
    · refine Kept.trans ?_ (State.writePort_kept ..)
      exact h1
    · exact h1
  · refine Kept.ifs (fun _ => ?_) (fun _ => ?_)
    · refine Kept.trans ?_ (State.modDie_kept ..)
      exact h1
    · exact h1
  · refine Kept.ifs (fun _ => ?_) (fun _ => ?_)
    · refine Kept.trans ?_ (State.modCe_kept ..)
      exact h1
    · exact h1
  · refine Kept.trans ?_ (State.modDie_kept ..)
    exact h1
  · refine Kept.trans ?_ (State.writeMc_kept ..)
    exact h1
  · exact Kept.of (t := s) rfl rfl rfl rfl rfl h1
  · exact Kept.of (t := s) rfl rfl rfl rfl rfl h1
  · split
    · exact Kept.of (t := s) rfl rfl rfl rfl rfl h1
    · exact h1
  · refine Kept.trans ?_ (State.writeHb_kept ..)
    exact h1
  · refine Kept.trans ?_ (State.by_kept _ (?_) _)
    · exact h1
    · intro t1
      try dsimp -zeta only
      have h2 := Kept.refl t1
      refine Kept.out ?_ (execHostHbBeat_kept ..)
      exact h2
  · refine Kept.trans ?_ (State.writeBox_kept ..)
    exact h1
  · exact Kept.of (t := s) rfl rfl rfl rfl rfl h1
  · refine Kept.trans ?_ (State.by_kept _ (?_) _)
    · exact h1
    · intro t2
      try dsimp -zeta only
      have h3 := Kept.refl t2
      refine Kept.out ?_ (execPwrCpu_kept ..)
      exact h3
  · refine Kept.ifs (fun _ => ?_) (fun _ => ?_)
    · refine Kept.trans ?_ (State.imsicPendM_kept ..)
      exact h1
    · exact h1
  · refine Kept.ifs (fun _ => ?_) (fun _ => ?_)
    · refine Kept.trans ?_ (State.imsicPend_kept ..)
      exact h1
    · exact h1
  · exact h1
  · exact h1
  · exact h1
  · exact h1
  · refine Kept.ifs (fun _ => ?_) (fun _ => ?_)
    · refine Kept.trans ?_ (State.repairWindow_kept ..)
      exact h1
    · exact h1
  · exact h1
  · exact h1
  · exact h1
  · exact h1
  · exact h1
  · exact h1
  · exact h1
  · exact h1
  · exact h1
  · exact h1
  · refine Kept.trans ?_ (State.writeAplic_kept ..)
    exact h1
  · exact h1

/-- What State.writeUnmapped keeps. -/
theorem State.writeUnmapped_kept : ∀ s v1 v2, Kept s (State.writeUnmapped s v1 v2) := by
  intro s v1 v2
  unfold State.writeUnmapped
  have h1 := Kept.refl s
  extract_lets +onlyGivenNames -underBinder -merge x1
  have h2 : Kept s x1 := by
    dsimp -zeta only [x1]
    refine Kept.trans ?_ (State.logAccess_kept ..)
    exact h1
  try clear_value x1
  split
  · refine Kept.trans ?_ (State.reply_kept ..)
    refine Kept.trans ?_ (State.trap_kept ..)
    exact h2
  · refine Kept.trans ?_ (State.reply_kept ..)
    exact h2

/-- What State.writeReg keeps. -/
theorem State.writeReg_kept : ∀ s v1 v2 v3 v4, Kept s (State.writeReg s v1 v2 v3 v4) := by
  intro s v1 v2 v3 v4
  unfold State.writeReg
  have h1 := Kept.refl s
  extract_lets +onlyGivenNames -underBinder -merge x1
  have h2 : Kept s x1 := by
    dsimp -zeta only [x1]
    split
    · refine Kept.ifs (fun _ => ?_) (fun _ => ?_)
      · exact h1
      · refine Kept.trans ?_ (State.logNote_kept ..)
        refine Kept.trans ?_ (State.logAccess_kept ..)
        exact h1
    · exact h1
  try clear_value x1
  refine Kept.trans ?_ (State.reply_kept ..)
  refine Kept.trans ?_ (State.regWrite_kept ..)
  exact h2

/-- What State.hostWriteAt keeps. -/
theorem State.hostWriteAt_kept : ∀ s v1 v2 v3, Kept s (State.hostWriteAt s v1 v2 v3) := by
  intro s v1 v2 v3
  unfold State.hostWriteAt
  have h1 := Kept.refl s
  split
  · refine Kept.ifs (fun _ => ?_) (fun _ => ?_)
    · refine Kept.trans ?_ (State.writeReg_kept ..)
      exact h1
    · refine Kept.trans ?_ (State.writeUnmapped_kept ..)
      exact h1
  · refine Kept.trans ?_ (State.writeUnmapped_kept ..)
    exact h1

/-- What State.hostReadAt keeps. -/
theorem State.hostReadAt_kept : ∀ s v1 v2, Kept s (State.hostReadAt s v1 v2) := by
  intro s v1 v2
  unfold State.hostReadAt
  have h1 := Kept.refl s
  split
  · extract_lets +onlyGivenNames -underBinder -merge x1
    have h2 : Kept s x1.2 := by
      dsimp -zeta only [x1]
      refine Kept.trans ?_ (State.regRead_kept ..)
      exact h1
    try clear_value x1
    refine Kept.trans ?_ (State.reply_kept ..)
    exact h2
  · refine Kept.trans ?_ (State.reply_kept ..)
    refine Kept.trans ?_ (State.logAccess_kept ..)
    exact h1

/-- What State.viewWrite keeps. -/
theorem State.viewWrite_kept : ∀ s v1 v2 v3, Kept s (State.viewWrite s v1 v2 v3) := by
  intro s v1 v2 v3
  unfold State.viewWrite
  have h1 := Kept.refl s
  refine Kept.trans ?_ (State.hostWriteAt_kept ..)
  exact h1

/-- What State.viewRead keeps. -/
theorem State.viewRead_kept : ∀ s v1 v2, Kept s (State.viewRead s v1 v2) := by
  intro s v1 v2
  unfold State.viewRead
  have h1 := Kept.refl s
  refine Kept.trans ?_ (State.hostReadAt_kept ..)
  exact h1

/-- What State.bar0Write keeps. -/
theorem State.bar0Write_kept : ∀ s v1 v2 v3, Kept s (State.bar0Write s v1 v2 v3) := by
  intro s v1 v2 v3
  unfold State.bar0Write
  have h1 := Kept.refl s
  refine Kept.ifs (fun _ => ?_) (fun _ => ?_)
  · refine Kept.trans ?_ (State.reply_kept ..)
    refine Kept.trans ?_ (State.by_kept _ (?_) _)
    · exact h1
    · intro t1
      try dsimp -zeta only
      have h2 := Kept.refl t1
      refine Kept.out ?_ (execWinBaseWrite_kept ..)
      exact h2
  · refine Kept.ifs (fun _ => ?_) (fun _ => ?_)
    · refine Kept.trans ?_ (State.reply_kept ..)
      exact Kept.of (t := s) rfl rfl rfl rfl rfl h1
    · refine Kept.ifs (fun _ => ?_) (fun _ => ?_)
      · refine Kept.trans ?_ (State.reply_kept ..)
        refine Kept.trans ?_ (State.writeBox_kept ..)
        exact h1
      · refine Kept.ifs (fun _ => ?_) (fun _ => ?_)
        · refine Kept.trans ?_ (State.viewWrite_kept ..)
          exact h1
        · refine Kept.trans ?_ (State.reply_kept ..)
          exact h1

/-- What State.msixUnmask keeps. -/
theorem State.msixUnmask_kept : ∀ s v1, Kept s (State.msixUnmask s v1) := by
  intro s v1
  unfold State.msixUnmask
  have h1 := Kept.refl s
  refine Kept.ifs (fun _ => ?_) (fun _ => ?_)
  · exact Kept.of (t := s) rfl rfl rfl rfl rfl h1
  · exact h1

/-- What State.bar4Write keeps. -/
theorem State.bar4Write_kept : ∀ s v1 v2, Kept s (State.bar4Write s v1 v2) := by
  intro s v1 v2
  unfold State.bar4Write
  have h1 := Kept.refl s
  refine Kept.ifs (fun _ => ?_) (fun _ => ?_)
  · extract_lets +onlyGivenNames -underBinder -merge x1
    try clear_value x1
    extract_lets +onlyGivenNames -underBinder -merge x2
    try clear_value x2
    extract_lets +onlyGivenNames -underBinder -merge x3 x4
    have h2 : Kept s x4 := by
      dsimp -zeta only [x4]
      exact Kept.of (t := s) rfl rfl rfl rfl rfl h1
    try clear_value x3 x4
    refine Kept.trans ?_ (State.reply_kept ..)
    refine Kept.trans ?_ (State.msixUnmask_kept ..)
    exact h2
  · refine Kept.ifs (fun _ => ?_) (fun _ => ?_)
    · extract_lets +onlyGivenNames -underBinder -merge x5
      try clear_value x5
      refine Kept.ifs (fun _ => ?_) (fun _ => ?_)
      · refine Kept.trans ?_ (State.reply_kept ..)
        refine Kept.trans ?_ (State.by_kept _ (?_) _)
        · exact h1
        · intro t1
          try dsimp -zeta only
          have h3 := Kept.refl t1
          refine Kept.out ?_ (execWqDoorbell_kept ..)
          exact h3
      · refine Kept.trans ?_ (State.reply_kept ..)
        exact h1
    · refine Kept.trans ?_ (State.reply_kept ..)
      exact h1

/-- What State.csrWrite keeps. -/
theorem State.csrWrite_kept : ∀ s v1 v2 v3, Kept s (State.csrWrite s v1 v2 v3) := by
  intro s v1 v2 v3
  unfold State.csrWrite
  have h1 := Kept.refl s
  split
  · refine Kept.trans ?_ (State.modHart_kept ..)
    exact h1
  · exact Kept.of (t := s) rfl rfl rfl rfl rfl h1
  · exact Kept.of (t := s) rfl rfl rfl rfl rfl h1
  · exact h1

/-- What execRegisterWrite keeps. -/
theorem execRegisterWrite_kept : ∀ v0 v1 v2 v3 s, Kept s (outOr s ((execRegisterWrite v0 v1 v2 v3 s))) := by
  intro v0 v1 v2 v3 s
  unfold execRegisterWrite
  have h1 := Kept.refl s
  extract_lets +onlyGivenNames -underBinder -merge x1
  try clear_value x1
  extract_lets +onlyGivenNames -underBinder -merge x2
  try clear_value x2
  refine Kept.ite (outOr s) (fun _ => ?_) (fun _ => ?_)
  · refine Kept.next ?_
    exact h1
  · split
    · refine Kept.next ?_
      refine Kept.trans ?_ (State.bar0Write_kept ..)
      exact h1
    · refine Kept.next ?_
      refine Kept.trans ?_ (State.bar4Write_kept ..)
      exact h1
    · refine Kept.next ?_
      refine Kept.ifs (fun _ => ?_) (fun _ => ?_)
      · exact Kept.of (t := s) rfl rfl rfl rfl rfl h1
      · exact h1
    · refine Kept.next ?_
      refine Kept.folds _ (fun t1 x3 h2 => ?_) ?_
      · try dsimp -zeta only
        refine Kept.trans ?_ (State.msixUnmask_kept ..)
        exact h2
      · try dsimp -zeta only
        exact Kept.of (t := s) rfl rfl rfl rfl rfl h1
    · refine Kept.next ?_
      refine Kept.trans ?_ (State.csrWrite_kept ..)
      exact h1
    · refine Kept.next ?_
      split
      · refine Kept.trans ?_ (State.writeReg_kept ..)
        exact h1
      · refine Kept.trans ?_ (State.writeUnmapped_kept ..)
        exact h1
    · refine Kept.next ?_
      split
      · refine Kept.trans ?_ (State.writeReg_kept ..)
        exact h1
      · refine Kept.trans ?_ (State.writeUnmapped_kept ..)
        exact h1

/-- What execRegisterViewAccess keeps. -/
theorem execRegisterViewAccess_kept : ∀ v0 v1 v2 s, Kept s (outOr s ((execRegisterViewAccess v0 v1 v2 s))) := by
  intro v0 v1 v2 s
  unfold execRegisterViewAccess
  have h1 := Kept.refl s
  refine Kept.ite (outOr s) (fun _ => ?_) (fun _ => ?_)
  · refine Kept.next ?_
    exact h1
  · split
    · refine Kept.next ?_
      refine Kept.trans ?_ (State.viewRead_kept ..)
      exact h1
    · refine Kept.next ?_
      refine Kept.trans ?_ (State.viewWrite_kept ..)
      exact h1

/-! ## LinkRows -/

/-- What State.linkRequest keeps. -/
theorem State.linkRequest_kept : ∀ s v1, Kept s (State.linkRequest s v1) := by
  intro s v1
  unfold State.linkRequest
  have h1 := Kept.refl s
  extract_lets +onlyGivenNames -underBinder -merge x1
  try clear_value x1
  extract_lets +onlyGivenNames -underBinder -merge x2
  try clear_value x2
  extract_lets +onlyGivenNames -underBinder -merge x3
  try clear_value x3
  extract_lets +onlyGivenNames -underBinder -merge x4
  extract_lets +onlyGivenNames -underBinder -merge x5
  try clear_value x5
  extract_lets +onlyGivenNames -underBinder -merge x6
  try clear_value x6
  split
  · dsimp -zeta only [x4]
    refine Kept.ifs (fun _ => ?_) (fun _ => ?_)
    · refine Kept.trans ?_ (State.homeArrive_kept ..)
      exact h1
    · refine Kept.trans ?_ (State.logAccess_kept ..)
      exact h1
  · dsimp -zeta only [x4]
    refine Kept.ifs (fun _ => ?_) (fun _ => ?_)
    · refine Kept.trans ?_ (State.homeArrive_kept ..)
      exact h1
    · refine Kept.trans ?_ (State.logAccess_kept ..)
      exact h1
  · dsimp -zeta only [x4]
    refine Kept.ifs (fun _ => ?_) (fun _ => ?_)
    · refine Kept.trans ?_ (State.homeArrive_kept ..)
      exact h1
    · refine Kept.trans ?_ (State.logAccess_kept ..)
      exact h1
  · split
    · refine Kept.trans ?_ (State.by_kept _ (?_) _)
      · exact h1
      · intro t1
        try dsimp -zeta only
        have h2 := Kept.refl t1
        refine Kept.out ?_ (execEvc_kept ..)
        exact h2
    · exact h1
  · refine Kept.trans ?_ (State.unitRequest_kept ..)
    exact h1
  · refine Kept.trans ?_ (State.unitRequest_kept ..)
    exact h1
  · refine Kept.trans ?_ (State.unitRequest_kept ..)
    exact h1
  · refine Kept.trans ?_ (State.unitRequest_kept ..)
    exact h1
  · exact h1

/-- What State.linkRespond keeps. -/
theorem State.linkRespond_kept : ∀ s v1 v2, Kept s (State.linkRespond s v1 v2) := by
  intro s v1 v2
  unfold State.linkRespond
  have h1 := Kept.refl s
  refine Kept.trans ?_ (State.linkSend_kept ..)
  exact h1

/-- What State.linkRead keeps. -/
theorem State.linkRead_kept : ∀ s v1, Kept s (State.linkRead s v1) := by
  intro s v1
  unfold State.linkRead
  have h1 := Kept.refl s
  extract_lets +onlyGivenNames -underBinder -merge x1
  try clear_value x1
  split
  · split
    · rename_i a1 a2 q1
      have h2 : Kept s a2 := by
        have e := congrArg Prod.snd q1
        dsimp only at e
        rw [← e]
        refine Kept.trans ?_ (State.readMem_kept ..)
        exact h1
      refine Kept.trans ?_ (State.linkRespond_kept ..)
      exact h2
    · rename_i a3 a4 q2
      have h3 : Kept s a4 := by
        have e := congrArg Prod.snd q2
        dsimp only at e
        rw [← e]
        refine Kept.trans ?_ (State.readMem_kept ..)
        exact h1
      exact h3
  · split
    · extract_lets +onlyGivenNames -underBinder -merge x2
      have h4 : Kept s x2.2 := by
        dsimp -zeta only [x2]
        refine Kept.trans ?_ (State.regRead_kept ..)
        exact h1
      try clear_value x2
      refine Kept.trans ?_ (State.linkRespond_kept ..)
      exact h4
    · refine Kept.trans ?_ (State.logAccess_kept ..)
      exact h1

/-- What State.linkWrite keeps. -/
theorem State.linkWrite_kept : ∀ s v1, Kept s (State.linkWrite s v1) := by
  intro s v1
  unfold State.linkWrite
  have h1 := Kept.refl s
  extract_lets +onlyGivenNames -underBinder -merge x1
  try clear_value x1
  extract_lets +onlyGivenNames -underBinder -merge x2
  try clear_value x2
  extract_lets +onlyGivenNames -underBinder -merge x3
  try clear_value x3
  split
  · refine Kept.trans ?_ (State.writeMem_kept ..)
    exact h1
  · split
    · refine Kept.trans ?_ (State.writeReg_kept ..)
      exact h1
    · refine Kept.trans ?_ (State.writeReg_kept ..)
      exact h1
    · refine Kept.trans ?_ (State.logAccess_kept ..)
      exact h1

/-- What State.linkSem keeps. -/
theorem State.linkSem_kept : ∀ s v1, Kept s (State.linkSem s v1) := by
  intro s v1
  unfold State.linkSem
  have h1 := Kept.refl s
  extract_lets +onlyGivenNames -underBinder -merge x1
  try clear_value x1
  refine Kept.ifs (fun _ => ?_) (fun _ => ?_)
  · refine Kept.trans ?_ (State.semUpdate_kept ..)
    exact h1
  · exact h1

/-- What State.linkAct keeps. -/
theorem State.linkAct_kept : ∀ s v1, Kept s (State.linkAct s v1) := by
  intro s v1
  unfold State.linkAct
  have h1 := Kept.refl s
  split
  · split
    · refine Kept.trans ?_ (State.by_kept _ (?_) _)
      · exact h1
      · intro t1
        try dsimp -zeta only
        have h2 := Kept.refl t1
        refine Kept.out ?_ (execData_kept ..)
        exact h2
    · refine Kept.trans ?_ (State.by_kept _ (?_) _)
      · exact h1
      · intro t2
        try dsimp -zeta only
        have h3 := Kept.refl t2
        refine Kept.out ?_ (execData_kept ..)
        exact h3
    · refine Kept.trans ?_ (State.by_kept _ (?_) _)
      · exact h1
      · intro t3
        try dsimp -zeta only
        have h4 := Kept.refl t3
        refine Kept.out ?_ (execComp_kept ..)
        exact h4
    · refine Kept.trans ?_ (State.arrive_kept ..)
      exact h1
  · split
    · split
      · refine Kept.trans ?_ (State.by_kept _ (?_) _)
        · exact h1
        · intro t4
          try dsimp -zeta only
          have h5 := Kept.refl t4
          refine Kept.out ?_ (execWb_kept ..)
          exact h5
      · exact h1
    · refine Kept.trans ?_ (State.linkRead_kept ..)
      exact h1
    · refine Kept.trans ?_ (State.linkWrite_kept ..)
      exact h1
    · refine Kept.trans ?_ (State.linkSem_kept ..)
      exact h1
    · refine Kept.trans ?_ (State.linkRequest_kept ..)
      exact h1
    · refine Kept.trans ?_ (State.reply_kept ..)
      exact h1
    · extract_lets +onlyGivenNames -underBinder -merge x1
      try clear_value x1
      refine Kept.ifs (fun _ => ?_) (fun _ => ?_)
      · refine Kept.trans ?_ (State.imsicPend_kept ..)
        exact h1
      · exact h1
    · refine Kept.trans ?_ (State.event_kept ..)
      exact h1
    · exact h1

/-- What State.linkDeliver keeps. -/
theorem State.linkDeliver_kept : ∀ s v1 v2, Kept s (State.linkDeliver s v1 v2) := by
  intro s v1 v2
  unfold State.linkDeliver
  have h1 := Kept.refl s
  refine Kept.ifs (fun _ => ?_) (fun _ => ?_)
  · refine Kept.trans ?_ (State.linkAct_kept ..)
    refine Kept.trans ?_ (State.modLink_kept ..)
    exact h1
  · refine Kept.trans ?_ (State.linkSend_kept ..)
    exact h1

/-- What execD2dFlitReceive keeps. -/
theorem execD2dFlitReceive_kept : ∀ v0 v1 v2 s, Kept s (outOr s ((execD2dFlitReceive v0 v1 v2 s))) := by
  intro v0 v1 v2 s
  unfold execD2dFlitReceive
  have h1 := Kept.refl s
  extract_lets +onlyGivenNames -underBinder -merge x1
  try clear_value x1
  refine Kept.ite (outOr s) (fun _ => ?_) (fun _ => ?_)
  · refine Kept.next ?_
    exact h1
  · refine Kept.ite (outOr s) (fun _ => ?_) (fun _ => ?_)
    · refine Kept.next ?_
      refine Kept.trans ?_ (State.countReplay_kept ..)
      refine Kept.trans ?_ (State.modLink_kept ..)
      exact h1
    · extract_lets +onlyGivenNames -underBinder -merge x2
      try clear_value x2
      refine Kept.ite (outOr s) (fun _ => ?_) (fun _ => ?_)
      · refine Kept.next ?_
        refine Kept.trans ?_ (State.linkPump_kept ..)
        refine Kept.trans ?_ (State.modLink_kept ..)
        exact h1
      · extract_lets +onlyGivenNames -underBinder -merge x3
        try clear_value x3
        refine Kept.ite (outOr s) (fun _ => ?_) (fun _ => ?_)
        · extract_lets +onlyGivenNames -underBinder -merge x4
          try clear_value x4
          refine Kept.next ?_
          refine Kept.folds _ (fun t1 x5 h2 => ?_) ?_
          · try dsimp -zeta only
            refine Kept.trans ?_ (State.linkDeliver_kept ..)
            exact h2
          · try dsimp -zeta only
            refine Kept.trans ?_ (State.modLink_kept ..)
            exact h1
        · refine Kept.next ?_
          refine Kept.trans ?_ (State.modLink_kept ..)
          exact h1

/-- What execLinkControlFlit keeps. -/
theorem execLinkControlFlit_kept : ∀ v0 v1 s, Kept s (outOr s ((execLinkControlFlit v0 v1 s))) := by
  intro v0 v1 s
  unfold execLinkControlFlit
  have h1 := Kept.refl s
  refine Kept.ite (outOr s) (fun _ => ?_) (fun _ => ?_)
  · refine Kept.next ?_
    refine Kept.trans ?_ (State.linkPump_kept ..)
    refine Kept.trans ?_ (State.modLink_kept ..)
    exact h1
  · refine Kept.next ?_
    exact h1

/-- What execLinkControlDue keeps. -/
theorem execLinkControlDue_kept : ∀ v0 s, Kept s (outOr s ((execLinkControlDue v0 s))) := by
  intro v0 s
  unfold execLinkControlDue
  have h1 := Kept.refl s
  extract_lets +onlyGivenNames -underBinder -merge x1
  try clear_value x1
  refine Kept.ite (outOr s) (fun _ => ?_) (fun _ => ?_)
  · refine Kept.next ?_
    refine Kept.trans ?_ (State.modLink_kept ..)
    exact h1
  · refine Kept.next ?_
    exact h1

end Sys2Proof.Machine
end

