-- ==== Sys2Proof/Laws/Lines.lean ====
section
/-! SUPPORT. Laws of the lines at the homes and in the caching agents, of side buffers, of collective steps and of descriptors in flight: a read after
an update, and the fields an update leaves alone. -/
namespace Sys2Proof.Machine

/-! ## Reads after updates -/

/-- A directory entry after an update of one. -/
theorem State.home_putHome (s : State) (l k : Nat) (h : HomeLine) : (s.putHome l h).home k = if k = l then h else s.home k := by
  simp [State.putHome, State.home, Map.get_put]

/-- The updated directory entry. -/
@[simp] theorem State.home_putHome_same (s : State) (l : Nat) (h : HomeLine) : (s.putHome l h).home l = h := by simp [State.home_putHome]

/-- An agent's line after an update of one. -/
theorem State.agentLine_putAgent (s : State) (a l b k : Nat) (x : AgentLine) :
    (s.putAgent a l x).agentLine b k = if agentKey b k = agentKey a l then x else s.agentLine b k := by
  simp [State.putAgent, State.agentLine, Map.get_put]

/-- The updated line. -/
@[simp] theorem State.agentLine_putAgent_same (s : State) (a l : Nat) (x : AgentLine) : (s.putAgent a l x).agentLine a l = x := by
  simp [State.agentLine_putAgent]

@[simp] theorem State.home_putAgent (s : State) (a l k : Nat) (x : AgentLine) : (s.putAgent a l x).home k = s.home k := rfl
@[simp] theorem State.agentLine_putHome (s : State) (l a k : Nat) (h : HomeLine) : (s.putHome l h).agentLine a k = s.agentLine a k := rfl

/-- The side buffer of a slice after an update of one. -/
@[simp] theorem State.sideOf_setSide_same (s : State) (d l : Nat) (x : List SideLine) : (s.setSide d l x).sideOf d l = x := by
  simp [State.setSide, State.sideOf]

/-- The steps of an engine after one of them is changed. -/
theorem State.ce_modStep (s : State) (d e coll step : Nat) (f : CollStep → CollStep) :
    (s.modStep d e coll step f).ce d e = { s.ce d e with steps := (s.ce d e).steps.map (fun st =>
      if (collFields st.raw).collId = coll ∧ (collFields st.raw).step = step then f st else st) } := by
  simp [State.modStep]

/-- The descriptors in flight of a die after one of them is changed. -/
theorem State.inflight_modFlight (s : State) (d : Nat) (src : DescSrc) (f : InFlight → InFlight) :
    ((s.modFlight d src f).die d).inflight = (s.die d).inflight.map (fun o => if o.src = src then f o else o) := by
  simp [State.modFlight]

/-- An APLIC domain after an update of one. -/
theorem State.aplic_modAplic (s : State) (c e : Bool) (f : Aplic → Aplic) :
    (s.modAplic c f).host.aplic e = if e = c then f (s.host.aplic c) else s.host.aplic e := by
  cases c <;> cases e <;> rfl

/-! ## Fields that an update leaves alone -/

@[simp] theorem State.putHome_lnVariant (s : State) (l : Nat) (h : HomeLine) : (s.putHome l h).lnVariant = s.lnVariant := rfl
@[simp] theorem State.putHome_timeNs (s : State) (l : Nat) (h : HomeLine) : (s.putHome l h).timeNs = s.timeNs := rfl
@[simp] theorem State.putHome_dies (s : State) (l : Nat) (h : HomeLine) : (s.putHome l h).dies = s.dies := rfl
@[simp] theorem State.putHome_tiles (s : State) (l : Nat) (h : HomeLine) : (s.putHome l h).tiles = s.tiles := rfl
@[simp] theorem State.putHome_links (s : State) (l : Nat) (h : HomeLine) : (s.putHome l h).links = s.links := rfl
@[simp] theorem State.putHome_ports (s : State) (l : Nat) (h : HomeLine) : (s.putHome l h).ports = s.ports := rfl
@[simp] theorem State.putHome_fabric (s : State) (l : Nat) (h : HomeLine) : (s.putHome l h).fabric = s.fabric := rfl
@[simp] theorem State.putHome_host (s : State) (l : Nat) (h : HomeLine) : (s.putHome l h).host = s.host := rfl
@[simp] theorem State.putHome_lantern (s : State) (l : Nat) (h : HomeLine) : (s.putHome l h).lantern = s.lantern := rfl
@[simp] theorem State.putHome_power (s : State) (l : Nat) (h : HomeLine) : (s.putHome l h).power = s.power := rfl
@[simp] theorem State.putHome_sec (s : State) (l : Nat) (h : HomeLine) : (s.putHome l h).sec = s.sec := rfl
@[simp] theorem State.putHome_svc (s : State) (l : Nat) (h : HomeLine) : (s.putHome l h).svc = s.svc := rfl
@[simp] theorem State.putHome_pins (s : State) (l : Nat) (h : HomeLine) : (s.putHome l h).pins = s.pins := rfl
@[simp] theorem State.putHome_access (s : State) (l : Nat) (h : HomeLine) : (s.putHome l h).access = s.access := rfl
@[simp] theorem State.putHome_freeCount (s : State) (l : Nat) (h : HomeLine) : (s.putHome l h).freeCount = s.freeCount := rfl
@[simp] theorem State.putHome_pending (s : State) (l : Nat) (h : HomeLine) : (s.putHome l h).pending = s.pending := rfl
@[simp] theorem State.putHome_pool_cells (s : State) (l : Nat) (h : HomeLine) : (s.putHome l h).pool.cells = s.pool.cells := rfl
@[simp] theorem State.putHome_pool_tags (s : State) (l : Nat) (h : HomeLine) : (s.putHome l h).pool.tags = s.pool.tags := rfl
@[simp] theorem State.putHome_pool_tested (s : State) (l : Nat) (h : HomeLine) : (s.putHome l h).pool.tested = s.pool.tested := rfl
@[simp] theorem State.putHome_pool_msgs (s : State) (l : Nat) (h : HomeLine) : (s.putHome l h).pool.msgs = s.pool.msgs := rfl
@[simp] theorem State.putHome_pool_misses (s : State) (l : Nat) (h : HomeLine) : (s.putHome l h).pool.misses = s.pool.misses := rfl
@[simp] theorem State.putHome_pool_heldBack (s : State) (l : Nat) (h : HomeLine) : (s.putHome l h).pool.heldBack = s.pool.heldBack := rfl
@[simp] theorem State.putHome_pool_ctrls (s : State) (l : Nat) (h : HomeLine) : (s.putHome l h).pool.ctrls = s.pool.ctrls := rfl
@[simp] theorem State.putHome_pool_agents (s : State) (l : Nat) (h : HomeLine) : (s.putHome l h).pool.agents = s.pool.agents := rfl

@[simp] theorem State.putAgent_lnVariant (s : State) (a l : Nat) (x : AgentLine) : (s.putAgent a l x).lnVariant = s.lnVariant := rfl
@[simp] theorem State.putAgent_timeNs (s : State) (a l : Nat) (x : AgentLine) : (s.putAgent a l x).timeNs = s.timeNs := rfl
@[simp] theorem State.putAgent_dies (s : State) (a l : Nat) (x : AgentLine) : (s.putAgent a l x).dies = s.dies := rfl
@[simp] theorem State.putAgent_tiles (s : State) (a l : Nat) (x : AgentLine) : (s.putAgent a l x).tiles = s.tiles := rfl
@[simp] theorem State.putAgent_links (s : State) (a l : Nat) (x : AgentLine) : (s.putAgent a l x).links = s.links := rfl
@[simp] theorem State.putAgent_ports (s : State) (a l : Nat) (x : AgentLine) : (s.putAgent a l x).ports = s.ports := rfl
@[simp] theorem State.putAgent_fabric (s : State) (a l : Nat) (x : AgentLine) : (s.putAgent a l x).fabric = s.fabric := rfl
@[simp] theorem State.putAgent_host (s : State) (a l : Nat) (x : AgentLine) : (s.putAgent a l x).host = s.host := rfl
@[simp] theorem State.putAgent_lantern (s : State) (a l : Nat) (x : AgentLine) : (s.putAgent a l x).lantern = s.lantern := rfl
@[simp] theorem State.putAgent_power (s : State) (a l : Nat) (x : AgentLine) : (s.putAgent a l x).power = s.power := rfl
@[simp] theorem State.putAgent_sec (s : State) (a l : Nat) (x : AgentLine) : (s.putAgent a l x).sec = s.sec := rfl
@[simp] theorem State.putAgent_svc (s : State) (a l : Nat) (x : AgentLine) : (s.putAgent a l x).svc = s.svc := rfl
@[simp] theorem State.putAgent_pins (s : State) (a l : Nat) (x : AgentLine) : (s.putAgent a l x).pins = s.pins := rfl
@[simp] theorem State.putAgent_access (s : State) (a l : Nat) (x : AgentLine) : (s.putAgent a l x).access = s.access := rfl
@[simp] theorem State.putAgent_freeCount (s : State) (a l : Nat) (x : AgentLine) : (s.putAgent a l x).freeCount = s.freeCount := rfl
@[simp] theorem State.putAgent_pending (s : State) (a l : Nat) (x : AgentLine) : (s.putAgent a l x).pending = s.pending := rfl
@[simp] theorem State.putAgent_pool_cells (s : State) (a l : Nat) (x : AgentLine) : (s.putAgent a l x).pool.cells = s.pool.cells := rfl
@[simp] theorem State.putAgent_pool_tags (s : State) (a l : Nat) (x : AgentLine) : (s.putAgent a l x).pool.tags = s.pool.tags := rfl
@[simp] theorem State.putAgent_pool_tested (s : State) (a l : Nat) (x : AgentLine) : (s.putAgent a l x).pool.tested = s.pool.tested := rfl
@[simp] theorem State.putAgent_pool_msgs (s : State) (a l : Nat) (x : AgentLine) : (s.putAgent a l x).pool.msgs = s.pool.msgs := rfl
@[simp] theorem State.putAgent_pool_misses (s : State) (a l : Nat) (x : AgentLine) : (s.putAgent a l x).pool.misses = s.pool.misses := rfl
@[simp] theorem State.putAgent_pool_heldBack (s : State) (a l : Nat) (x : AgentLine) : (s.putAgent a l x).pool.heldBack = s.pool.heldBack := rfl
@[simp] theorem State.putAgent_pool_ctrls (s : State) (a l : Nat) (x : AgentLine) : (s.putAgent a l x).pool.ctrls = s.pool.ctrls := rfl
@[simp] theorem State.putAgent_pool_homes (s : State) (a l : Nat) (x : AgentLine) : (s.putAgent a l x).pool.homes = s.pool.homes := rfl

@[simp] theorem State.modAplic_lnVariant (s : State) (c : Bool) (f : Aplic → Aplic) : (s.modAplic c f).lnVariant = s.lnVariant := rfl
@[simp] theorem State.modAplic_timeNs (s : State) (c : Bool) (f : Aplic → Aplic) : (s.modAplic c f).timeNs = s.timeNs := rfl
@[simp] theorem State.modAplic_pool (s : State) (c : Bool) (f : Aplic → Aplic) : (s.modAplic c f).pool = s.pool := rfl
@[simp] theorem State.modAplic_dies (s : State) (c : Bool) (f : Aplic → Aplic) : (s.modAplic c f).dies = s.dies := rfl
@[simp] theorem State.modAplic_tiles (s : State) (c : Bool) (f : Aplic → Aplic) : (s.modAplic c f).tiles = s.tiles := rfl
@[simp] theorem State.modAplic_links (s : State) (c : Bool) (f : Aplic → Aplic) : (s.modAplic c f).links = s.links := rfl
@[simp] theorem State.modAplic_ports (s : State) (c : Bool) (f : Aplic → Aplic) : (s.modAplic c f).ports = s.ports := rfl
@[simp] theorem State.modAplic_fabric (s : State) (c : Bool) (f : Aplic → Aplic) : (s.modAplic c f).fabric = s.fabric := rfl
@[simp] theorem State.modAplic_lantern (s : State) (c : Bool) (f : Aplic → Aplic) : (s.modAplic c f).lantern = s.lantern := rfl
@[simp] theorem State.modAplic_power (s : State) (c : Bool) (f : Aplic → Aplic) : (s.modAplic c f).power = s.power := rfl
@[simp] theorem State.modAplic_sec (s : State) (c : Bool) (f : Aplic → Aplic) : (s.modAplic c f).sec = s.sec := rfl
@[simp] theorem State.modAplic_svc (s : State) (c : Bool) (f : Aplic → Aplic) : (s.modAplic c f).svc = s.svc := rfl
@[simp] theorem State.modAplic_pins (s : State) (c : Bool) (f : Aplic → Aplic) : (s.modAplic c f).pins = s.pins := rfl
@[simp] theorem State.modAplic_access (s : State) (c : Bool) (f : Aplic → Aplic) : (s.modAplic c f).access = s.access := rfl
@[simp] theorem State.modAplic_freeCount (s : State) (c : Bool) (f : Aplic → Aplic) : (s.modAplic c f).freeCount = s.freeCount := rfl
@[simp] theorem State.modAplic_pending (s : State) (c : Bool) (f : Aplic → Aplic) : (s.modAplic c f).pending = s.pending := rfl

@[simp] theorem State.modFlight_lnVariant (s : State) (d : Nat) (src : DescSrc) (f : InFlight → InFlight) : (s.modFlight d src f).lnVariant = s.lnVariant := rfl
@[simp] theorem State.modFlight_timeNs (s : State) (d : Nat) (src : DescSrc) (f : InFlight → InFlight) : (s.modFlight d src f).timeNs = s.timeNs := rfl
@[simp] theorem State.modFlight_pool (s : State) (d : Nat) (src : DescSrc) (f : InFlight → InFlight) : (s.modFlight d src f).pool = s.pool := rfl
@[simp] theorem State.modFlight_tiles (s : State) (d : Nat) (src : DescSrc) (f : InFlight → InFlight) : (s.modFlight d src f).tiles = s.tiles := rfl
@[simp] theorem State.modFlight_links (s : State) (d : Nat) (src : DescSrc) (f : InFlight → InFlight) : (s.modFlight d src f).links = s.links := rfl
@[simp] theorem State.modFlight_ports (s : State) (d : Nat) (src : DescSrc) (f : InFlight → InFlight) : (s.modFlight d src f).ports = s.ports := rfl
@[simp] theorem State.modFlight_fabric (s : State) (d : Nat) (src : DescSrc) (f : InFlight → InFlight) : (s.modFlight d src f).fabric = s.fabric := rfl
@[simp] theorem State.modFlight_host (s : State) (d : Nat) (src : DescSrc) (f : InFlight → InFlight) : (s.modFlight d src f).host = s.host := rfl
@[simp] theorem State.modFlight_lantern (s : State) (d : Nat) (src : DescSrc) (f : InFlight → InFlight) : (s.modFlight d src f).lantern = s.lantern := rfl
@[simp] theorem State.modFlight_power (s : State) (d : Nat) (src : DescSrc) (f : InFlight → InFlight) : (s.modFlight d src f).power = s.power := rfl
@[simp] theorem State.modFlight_sec (s : State) (d : Nat) (src : DescSrc) (f : InFlight → InFlight) : (s.modFlight d src f).sec = s.sec := rfl
@[simp] theorem State.modFlight_svc (s : State) (d : Nat) (src : DescSrc) (f : InFlight → InFlight) : (s.modFlight d src f).svc = s.svc := rfl
@[simp] theorem State.modFlight_pins (s : State) (d : Nat) (src : DescSrc) (f : InFlight → InFlight) : (s.modFlight d src f).pins = s.pins := rfl
@[simp] theorem State.modFlight_access (s : State) (d : Nat) (src : DescSrc) (f : InFlight → InFlight) : (s.modFlight d src f).access = s.access := rfl
@[simp] theorem State.modFlight_freeCount (s : State) (d : Nat) (src : DescSrc) (f : InFlight → InFlight) : (s.modFlight d src f).freeCount = s.freeCount := rfl
@[simp] theorem State.modFlight_pending (s : State) (d : Nat) (src : DescSrc) (f : InFlight → InFlight) : (s.modFlight d src f).pending = s.pending := rfl

@[simp] theorem State.modStep_lnVariant (s : State) (d e c k : Nat) (f : CollStep → CollStep) : (s.modStep d e c k f).lnVariant = s.lnVariant := rfl
@[simp] theorem State.modStep_timeNs (s : State) (d e c k : Nat) (f : CollStep → CollStep) : (s.modStep d e c k f).timeNs = s.timeNs := rfl
@[simp] theorem State.modStep_pool (s : State) (d e c k : Nat) (f : CollStep → CollStep) : (s.modStep d e c k f).pool = s.pool := rfl
@[simp] theorem State.modStep_tiles (s : State) (d e c k : Nat) (f : CollStep → CollStep) : (s.modStep d e c k f).tiles = s.tiles := rfl
@[simp] theorem State.modStep_links (s : State) (d e c k : Nat) (f : CollStep → CollStep) : (s.modStep d e c k f).links = s.links := rfl
@[simp] theorem State.modStep_ports (s : State) (d e c k : Nat) (f : CollStep → CollStep) : (s.modStep d e c k f).ports = s.ports := rfl
@[simp] theorem State.modStep_fabric (s : State) (d e c k : Nat) (f : CollStep → CollStep) : (s.modStep d e c k f).fabric = s.fabric := rfl
@[simp] theorem State.modStep_host (s : State) (d e c k : Nat) (f : CollStep → CollStep) : (s.modStep d e c k f).host = s.host := rfl
@[simp] theorem State.modStep_lantern (s : State) (d e c k : Nat) (f : CollStep → CollStep) : (s.modStep d e c k f).lantern = s.lantern := rfl
@[simp] theorem State.modStep_power (s : State) (d e c k : Nat) (f : CollStep → CollStep) : (s.modStep d e c k f).power = s.power := rfl
@[simp] theorem State.modStep_sec (s : State) (d e c k : Nat) (f : CollStep → CollStep) : (s.modStep d e c k f).sec = s.sec := rfl
@[simp] theorem State.modStep_svc (s : State) (d e c k : Nat) (f : CollStep → CollStep) : (s.modStep d e c k f).svc = s.svc := rfl
@[simp] theorem State.modStep_pins (s : State) (d e c k : Nat) (f : CollStep → CollStep) : (s.modStep d e c k f).pins = s.pins := rfl
@[simp] theorem State.modStep_access (s : State) (d e c k : Nat) (f : CollStep → CollStep) : (s.modStep d e c k f).access = s.access := rfl
@[simp] theorem State.modStep_freeCount (s : State) (d e c k : Nat) (f : CollStep → CollStep) : (s.modStep d e c k f).freeCount = s.freeCount := rfl
@[simp] theorem State.modStep_pending (s : State) (d e c k : Nat) (f : CollStep → CollStep) : (s.modStep d e c k f).pending = s.pending := rfl

end Sys2Proof.Machine
end

