-- ==== Sys2Proof/Machine/Sampling.lean ====
section
/-! DEFINITION. The distributions of 07_random_bits (R174 to R176): fixed functions of the 16-bit and 32-bit fields of R170, which
thread-group programs compute. No command runs them by itself. -/
namespace Sys2Proof

/-- The uniform value of a 32-bit field, as an FP32 code (R174). -/
def uniformCode (w : Nat) : Nat := (convert .fp32 {} 0 (.num false (w / 256 % 2 ^ 24) (2 ^ 24))).1

/-- Bernoulli with an FP32 probability (R175): the result, and nv for a probability outside [0, 1]. -/
def bernoulli (p r16 : Nat) : Nat × NumFlags :=
  match Fmt.fp32.decode p with
  | .num s n d =>
    if (s && decide (n ≠ 0)) || decide (d < n) then (0, { nv := true })
    else (b2n (decide (r16 < min ((2 * n * 65536 + d) / (2 * d)) 65536)), {})
  | _ => (0, { nv := true })

/-- Prefix sums. -/
def prefixSums : Nat → List Nat → List Nat
  | _, [] => []
  | s, x :: r => (s + x) :: prefixSums (s + x) r

/-- The categorical draw (R176) over weights as values, with the 32-bit field of the output element. -/
def categorical (w : List Val) (x32 : Nat) : Nat × NumFlags :=
  let bad (v : Val) : Bool := match v with | .num s n _ => s && decide (n ≠ 0) | _ => true
  if w.any bad then (0xFFFFFFFF, { nv := true })
  else
    match (w.filterMap Val.ex).foldl (fun a e => some (match a with | some m => max m e | none => e)) none with
    | none => (0xFFFFFFFF, {})
    | some cw =>
      let c : Int := cw + clog2 w.length + 2
      let q (v : Val) : Nat := match v with | .num _ n d => let (a, b) := scalePow (160 - c) n d; a / b | _ => 0
      let cum := prefixSums 0 (w.map q)
      let t := cum.getLastD 0 * x32 / 2 ^ 32
      (cum.findIdx (fun x => decide (t < x)), {})

end Sys2Proof
end

