-- ==== Sys2Proof/WellFormed.lean ====
section
/-! DEFINITION. Which terms of Instr are commands that can occur: lengths, kinds and orders that the types leave free. The machine runs
any term; this check is for statements and for whoever builds commands. -/
namespace Sys2Proof

/-- A descriptor of a kind: 64 bytes, or 128 with its long bit (R138). -/
def descOk (kind : Nat) (raw : List Byte) : Bool :=
  decide (fieldAt raw 0 1 = kind) && decide (raw.length = if bit (fieldAt raw 0 8) 8 then 128 else 64)

/-- An operation of Table 05-3 on an operand inside the line (R125). -/
def atomOk (o : AtomOp) : Bool := decide (o.offset.toNat % (if o.wide then 8 else 4) = 0)

/-- Error vectors of a line's four codewords, of 36 symbols at most (R227); absent ones are zero. -/
def errorsOk (l : List (List Byte)) : Bool := decide (l.length ≤ 4) && l.all (fun w => decide (w.length ≤ 36))

/-- A core access of a cluster's cache is one of a hart of that cluster (the L3's are of any), and it lies in its line. -/
def coreOk (a : CacheId) (x : CoreAccess) : Bool :=
  (decide (a.val = 12) || decide (x.hart.val / 8 = a.val)) && decide (x.offset.toNat + 2 ^ x.size.toNat ≤ 128)

/-- A store that is gathered lies in one line (R181). -/
def wcOk (e : WcEvent) : Bool :=
  match e with | .store a _ l => decide (1 ≤ l.length) && decide (a.toNat % 128 + l.length ≤ 128) | .drain _ => true

/-- A packet of one of some operations: header fields of Table 12-3. -/
def packetOk (ops : List Nat) (k : Packet) : Bool :=
  ops.contains k.op.toNat && decide (k.arg.length = 12) && decide (k.data.length = k.len.toNat) && decide (k.len.toNat ≤ 1024) &&
    decide (k.ctl.toNat < 128) && decide (k.addr.toNat < 2 ^ 50) && decide (k.key.toNat < 64) && decide (k.sdie.toNat < 4)

/-- Bytes of an access. -/
def Access.size (a : Access) : Nat := match a with | .read n => n | .write l => l.length

/-- A PCIe access of at least one byte, up to 4,096 read and 512 written (R319). -/
def accessOk (a : Access) : Bool := decide (1 ≤ a.size) && (match a with | .read n => decide (n ≤ 4096) | .write l => decide (l.length ≤ 512))

/-- A request: its payload fits the message (R335). -/
def requestOk (r : Request) : Bool := decide (r.payload.length ≤ 4096)

/-- A module entry is refused to a request. -/
def entryOk (e : EntryTarget) : Bool := match e with | .tile _ _ => true | .module r => requestOk r

/-- Codes that arrive changed name link modules of a site of n (R16). -/
def heardOk (n : Nat) (m : Map (BitVec 3)) : Bool := Map.sorted m && m.all (fun e => decide (e.1 < n))

/-- The tests of a die name physical tiles (R105), its changed copies the 12 modules of XE and XS and the 6 of a host port (R16). -/
def dieReportOk (r : DieReport) : Bool :=
  Map.sorted r.tiles && r.tiles.all (fun e => decide (e.1 < 136)) && heardOk 12 r.heardE && heardOk 12 r.heardS && heardOk 12 r.heardfE &&
    heardOk 12 r.heardfS && heardOk 6 r.heardH && heardOk 6 r.heardfH

/-- A start's report: its maps are in order and name tiles, modules and controllers that exist. -/
def reportOk (r : StartReport) : Bool :=
  dieReportOk r.td0 && dieReportOk r.td1 && dieReportOk r.td2 && dieReportOk r.td3 && Map.sorted r.lanes &&
    r.lanes.all (fun e => decide (e.1 < 256)) && Map.sorted r.badChannels && r.badChannels.all (fun e => decide (e.1 < 28))

/-- An SPDM message of a request code (R382). -/
def spdmOk (code : Nat) (msg : List Byte) : Bool := decide (4 ≤ msg.length) && decide (fieldAt msg 1 1 = code)

/-- Is the command well formed? -/
def Instr.wf (i : Instr) : Bool :=
  match i with
  | .powerOn r => reportOk r
  | .coreRailPowerGood .. => true
  | .capabilityExchangeTimeout .. => true
  | .selfTestStepTimeout .. => true
  | .firmwareRecoveryTimeout .. => true
  | .resetNAssert => true
  | .resetNRelease r => reportOk r
  | .inputUnderVoltage => true
  | .underVoltageEnd => true
  | .inputPowerFail .. => true
  | .thermalTrip => true
  | .slotIdChange .. => true
  | .refclkLoss => true
  | .pe0LinkReady => true
  | .tileStoreRestore .. => true
  | .tsScrub .. => true
  | .tileFailure .. => true
  | .slotAdvance .. => true
  | .stretchResume .. => true
  | .nop _ _ raw => descOk 0 raw
  | .frame _ _ raw => descOk 1 raw
  | .tensor _ _ raw => descOk 2 raw
  | .matmul _ _ raw => descOk 3 raw
  | .mxeKStep .. => true
  | .vloop _ _ raw => descOk 4 raw
  | .move _ _ raw => descOk 5 raw
  | .tdmRingSlotFill .. => true
  | .coll _ _ raw => descOk 6 raw
  | .semWait _ _ raw => descOk 7 raw
  | .semWaitSatisfied .. => true
  | .semWaitTimeout .. => true
  | .semSignal _ _ raw => descOk 8 raw
  | .semaphoreUpdate .. => true
  | .flare _ _ raw => descOk 9 raw
  | .flarePhaseSet .. => true
  | .island _ _ raw => descOk 10 raw
  | .islandWindowEnd .. => true
  | .endStream _ _ raw => descOk 11 raw
  | .descriptorComplete .. => true
  | .kernelLaunch .. => true
  | .groupStart .. => true
  | .gxeInteger .. => true
  | .gxeFp32 .. => true
  | .gxeFp64 .. => true
  | .gxePacked16 .. => true
  | .cvt .. => true
  | .gxeCompare .. => true
  | .mov .. => true
  | .rdsp .. => true
  | .setplen .. => true
  | .shfl .. => true
  | .gxeLoad .. => true
  | .gxeStore .. => true
  | .gxeAtomic .. => true
  | .plateOp .. => true
  | .plateLookup .. => true
  | .plateLoad .. => true
  | .plateStore .. => true
  | .bra .. => true
  | .brd .. => true
  | .join .. => true
  | .call .. => true
  | .ret .. => true
  | .jmpi .. => true
  | .exit .. => true
  | .gxeNop .. => true
  | .gsync .. => true
  | .gsyncWatchdog .. => true
  | .barT .. => true
  | .barD .. => true
  | .barS .. => true
  | .l1inv .. => true
  | .rand32 .. => true
  | .rand128 .. => true
  | .gxeReplay .. => true
  | .gxeSave .. => true
  | .gxeDiscard .. => true
  | .gxeRestore .. => true
  | .wqEnable .. => true
  | .wqDoorbell .. => true
  | .wqEntryReread .. => true
  | .wqEntryIssue .. => true
  | .wqCtrlResume .. => true
  | .wqCtrlReset .. => true
  | .wcBufferDrain _ e => wcOk e
  | .jlSyncC .. => true
  | .jlSyncS .. => true
  | .jlInvalT .. => true
  | .cboClean .. => true
  | .cboFlush .. => true
  | .cboInval .. => true
  | .cboZero .. => true
  | .storeAbandon .. => true
  | .deviceLoadTimeout .. => true
  | .drainCutoff .. => true
  | .tileDieReset .. => true
  | .powerEntryRefused e => entryOk e
  | .winSync => true
  | .rdS a _ x => coreOk a x.core
  | .rdU a _ x => coreOk a x.core
  | .upg a _ x => coreOk a x.core
  | .wb _ _ _ l => decide (l.length = 128)
  | .evc .. => true
  | .rdSn .. => true
  | .wrFull _ _ _ l => decide (l.length = 128)
  | .wrPart _ _ _ _ l => decide (l.length = 128)
  | .atom _ _ _ op => atomOk op
  | .snpRd .. => true
  | .snpS .. => true
  | .snpU .. => true
  | .snpInv .. => true
  | .holdExpiry .. => true
  | .data .. => true
  | .ack .. => true
  | .ackD _ _ l => decide (l.length = 128)
  | .ndwb .. => true
  | .comp .. => true
  | .wbAck .. => true
  | .wbConsumed .. => true
  | .dcPrefetch .. => true
  | .dcSaturationPersist .. => true
  | .dcFlush .. => true
  | .lineReadReturn _ _ r => errorsOk r.errors
  | .channelParityFailure .. => true
  | .rakeRead _ errors => errorsOk errors
  | .rakeWaitExpiry _ errors => errorsOk errors
  | .rowSoftRepairComplete r => decide (r.errors.length = 8) && r.errors.all errorsOk
  | .channelSaturationPersist .. => true
  | .d2dFlitReceive _ _ flit => decide (flit.length = 64)
  | .linkControlFlit _ flit => decide (flit.length = 64)
  | .linkControlDue .. => true
  | .spareMonitorError .. => true
  | .laneCheckEnd .. => true
  | .moduleRetrainComplete .. => true
  | .forwardedClockFailure .. => true
  | .handoverComplete .. => true
  | .fabricFlitReceive _ flit => decide (flit.length = 256)
  | .portTraining .. => true
  | .portTrainingFailure .. => true
  | .remoteRead _ k => packetOk [1] k
  | .readData _ k => packetOk [2] k
  | .remoteWrite _ k => packetOk [3] k
  | .writeAcknowledgement _ k => packetOk [4] k
  | .semaphoreSignal _ k => packetOk [5] k
  | .signalAcknowledgement _ k => packetOk [6] k
  | .collectiveData _ _ k => packetOk [7, 8] k
  | .collectiveCredit _ _ k => packetOk [7, 8] k
  | .collectiveProbe _ _ k => packetOk [7, 8] k
  | .collectiveProbeReply _ _ k => packetOk [7, 8] k
  | .collectiveAbort _ _ k => packetOk [7, 8] k
  | .negativeResponse _ k => packetOk [15] k
  | .beaconArm .. => true
  | .beaconAck .. => true
  | .light .. => true
  | .snuff .. => true
  | .beaconDeadline => true
  | .beaconStartTime => true
  | .probe _ k => packetOk [32] k
  | .probeReply _ k => packetOk [33] k
  | .config _ k => packetOk [34] k
  | .managementMessage k => packetOk [0x23] k
  | .topologyWalk plan => Map.sorted plan
  | .timeFlit .. => true
  | .timeFlitSend .. => true
  | .upstreamPortDown => true
  | .holdoverExpiry => true
  | .cePeerWaitTimeout .. => true
  | .probeReplyTimeout .. => true
  | .collectiveStepComplete .. => true
  | .ceSaturationPersist .. => true
  | .pe1MsiWrite _ addr _ => decide (addr.toNat % 4 = 0)
  | .bar2Access offset a => accessOk a && decide (offset.toNat + a.size ≤ 2 ^ 29)
  | .winBaseWrite .. => true
  | .registerViewAccess _ a _ => decide (1 ≤ a.size) && decide (a.size ≤ 8)
  | .pe1InboundDma _ _ a => accessOk a
  | .perst0N => true
  | .perst1N => true
  | .hostHbBeat => true
  | .heartbeatPeriodExpiry .. => true
  | .hostHbRestart .. => true
  | .mbxReqDb .. => true
  | .mgRequest src raw => (decide (src ≠ .os) && decide (src ≠ .eh)) && decide (raw.length ≤ 4112)
  | .dtlsAssociationClose .. => true
  | .mbxRspAck .. => true
  | .mbxEvtTail .. => true
  | .mailboxThrottleEnd .. => true
  | .devQuery r => requestOk r
  | .devIdentify r => requestOk r
  | .devHalt r => requestOk r
  | .devHaltQuiesced => true
  | .jobCreate r => requestOk r
  | .jobLoad r => requestOk r
  | .jobArm r => requestOk r
  | .jobSuspend r => requestOk r
  | .jobSuspendQuiesce => true
  | .jobResume r => requestOk r
  | .jobAbort r => requestOk r
  | .jobEnd r => requestOk r
  | .jobStatus r => requestOk r
  | .memMap r => requestOk r
  | .memKeepDeclare r => requestOk r
  | .memKeepReadRecord r => requestOk r
  | .memKeepRelease r => requestOk r
  | .memKeepDropRegion r => requestOk r
  | .memRepairQuery r => requestOk r
  | .rowSoft r => requestOk r
  | .rowHard r => requestOk r
  | .channelFence r => requestOk r
  | .channelRetire r => requestOk r
  | .channelKeep r => requestOk r
  | .auto r => requestOk r
  | .memScrubRead r => requestOk r
  | .memScrubSetPeriod r => requestOk r
  | .memScrubPass r errors => requestOk r && Map.sorted errors && errors.all (fun e => errorsOk e.2)
  | .pwrCap r => requestOk r
  | .pwrState r report => requestOk r && reportOk report
  | .pwrFreq r => requestOk r
  | .secAttest r => requestOk r
  | .secKeyQuery r => requestOk r
  | .allocKeep r => requestOk r
  | .grant r => requestOk r
  | .revoke r => requestOk r
  | .rotate r => requestOk r
  | .destroy r => requestOk r
  | .secLifecycle r report => requestOk r && reportOk report
  | .lifecycleChallengeExpiry .. => true
  | .secDebug r _ => requestOk r
  | .debugSessionExpiry => true
  | .getVersion msg => spdmOk 0x84 msg
  | .getCapabilities msg => spdmOk 0xE1 msg
  | .negotiateAlgorithms msg => spdmOk 0xE3 msg
  | .getDigests msg => spdmOk 0x81 msg
  | .getCertificate msg => spdmOk 0x82 msg
  | .challenge msg => spdmOk 0x83 msg
  | .getMeasurements msg => spdmOk 0xE0 msg
  | .svcStage r => requestOk r
  | .svcActivate r _ => requestOk r
  | .activationHandoverTimeout => true
  | .flashWriteComplete .. => true
  | .svcSelftest r tiles lanes lines => requestOk r && Map.sorted tiles && Map.sorted lanes && Map.sorted lines && lines.all (fun e => errorsOk e.2)
  | .svcLog r => requestOk r
  | .logFlashCopy => true
  | .droopDetect .. => true
  | .droopRecovery .. => true
  | .pmbusPoll rails => decide (rails.length = 23)
  | .inputSample .. => true
  | .capExcursionLimit => true
  | .pwrbrakeAssert => true
  | .pwrbrakeDeassert => true
  | .brakeReleaseStep => true
  | .toggleHoldExpiry => true
  | .brakeHeldTimeout => true
  | .throttleDeepen .. => true
  | .throttleRelax .. => true
  | .thermalDeepRatio .. => true
  | .pwrCpu .. => true
  | .frequencySwitch .. => true
  | .tGateEntry .. => true
  | .tileIdle .. => true
  | .tileWake .. => true
  | .tileQueueIdle .. => true
  | .toffIdleExpiry .. => true
  | .moduleAutoIdle => true
  | .moduleWake .. => true
  | .setdasa .. => true
  | .entdaa .. => true
  | .wqEarlyCnt .. => true
  | .dcHit .. => true
  | .dcPfCnt .. => true
  | .mcEccCnt .. => true
  | .d2dBcnt .. => true
  | .fabPcnt .. => true
  | .ceCnt .. => true
  | .mbxEvtLost .. => true
  | .mbxMalformed .. => true
  | .registerWrite .. => true
  | .fabricPortLinkLoss .. => true
  | .jtagTapAccess .. => true

end Sys2Proof
end

