-- ==== Sys2Proof/Tests/Slice0.lean ====
section
/-! SUPPORT. The model's own tests: the well-formedness checks, values that the spec states, and a witness for every clause of every statement that has
hypotheses. -/
open Sys2Proof Sys2Proof.Machine
namespace Sys2Proof.Tests
set_option Elab.async false
set_option maxRecDepth 8000
set_option linter.unusedVariables false

/-! ## States of the tests -/

/-- Reset, with the module in a power state. -/
def inState (m : ModuleState) : State := { State.reset with power := { state := m } }

/-- M-ACTIVE with one tile die, TD0. -/
def onDie (x : Die) : State := { inState .active with dies := [(0, x)] }

/-- M-ACTIVE with one tile, tile 0 of TD0. -/
def onTile (x : Tile) : State := { inState .active with tiles := [(0, x)] }

/-- M-ACTIVE with a power section of its own. -/
def onPower (p : Power) : State := { State.reset with power := p }

/-- The mailbox b of a module in M-ACTIVE. -/
def onBox (b : Nat) (m : Mailbox) : State := { inState .active with lantern := { boxes := [(b, m)] } }

/-- A request with tag 7 and handle 1. -/
def ask (src : Source) (payload : List Byte) : Request := ⟨src, 1, 7, 1, payload⟩

/-- s with a request waiting, alone, its tag outstanding. -/
def asked (cmd : Nat) (r : Request) (s : State) : State :=
  { s with lantern := { s.lantern with waiting := [⟨cmd, r⟩], boxes := [(boxOf r.src, { outstanding := [(r.src, r.tag.toNat)] })] } }

/-- M-ACTIVE with key IDs. -/
def onKeys (l : Map KeySlot) : State := { inState .active with sec := { keys := l } }

/-- A job of handle 1 that the operating system owns. -/
def job0 : Job := { handle := 1, owner := 0, jobId := 5, seed := 0, code := 0, bypass := false, waymask := 0, keys := [1] }

/-- s with a job. -/
def withJob (j : Job) (s : State) : State := { s with lantern := { s.lantern with job := some j } }

/-- n bytes, 0 but for the fields given with their offsets. -/
def bytesOf (n : Nat) (l : List (Nat × List Byte)) : List Byte := l.foldl (fun a p => patch a p.1 p.2) (zeros n)

/-- A descriptor of a stream without done_sem. -/
def desc (kind : Byte) (l : List (Nat × List Byte)) : List Byte :=
  if kindLong kind.toNat then bytesOf 128 ([(0, [kind, 1]), (5, [255, 255]), (0x40, [255])] ++ l) else bytesOf 64 ([(0, [kind]), (5, [255, 255])] ++ l)

/-- A running job whose TD0, of 128 tiles, has a descriptor due; key ID 1 is the job's. -/
def due (raw : List Byte) (x : Die := {}) : State :=
  withJob { job0 with state := 3 } { onKeys [(1, { state := 2 })] with
    dies := [(0, { x with count := 128, running := true, stream := raw, due := [⟨0, raw⟩] })] }

/-- A tensor of one row of 32 FP32 elements. -/
def row0 (sp : Space) (base : Nat) : Tensor :=
  { fmt := .fp32, rank := 1, space := sp, remote := false, streaming := false, scale := 0x3F800000, base := base, ceil := 0, ceilDim := 0,
    ceilEmit := false, ceilPresent := false, mxScale := 0, mxStride := 0, iterStep := 0, key := 1, mxIterStep := 0, size := [32], stride := [] }

/-- Work queue 0 of TD0 under key ID 0, with one entry in a ring at address 0 whose bytes are given. -/
def queued (cells : Map Byte) (x : Die := {}) (w : Wq := {}) : State :=
  { onKeys [(0, { state := 1 })] with
    pool := { cells := cells, tags := [(0, ⟨0, 0⟩)] }, dies := [(0, { x with wqs := [(0, { w with enable := true, tail := 1, log2size := 4, state := 2 })] })] }

/-- FRAME of 10 slots, once. -/
def frame0 : List Byte := desc 1 [(8, [10]), (12, [1])]

/-- TENSOR: entry 5, a row of 32 FP32 elements in memory under key ID 1. -/
def tensor0 : List Byte := desc 2 [(8, [5, 0, 7, 1]), (12, leBytes 4 0x3F800000), (0x38, [1]), (0x48, [32])]

/-- MATMUL of one output row on tile 0: rings of two slots, D entry 1, no C. -/
def matmul0 : List Byte :=
  desc 3 [(8, [0, 1]), (0x10, [255, 255, 1, 0, 7, 7]), (0x18, leBytes 4 0x3F800000), (0x1C, leBytes 4 0x3F800000), (0x20, [1, 0, 32, 0, 32]),
    (0x38, leBytes 4 0x800), (0x3C, leBytes 4 0x840)]

/-- MOVE from entry 0 to entry 1 on tile 0. -/
def move0 : List Byte := desc 5 [(8, [0, 1]), (0x10, [0, 0, 1, 0])]

/-- COLL: a barrier of one rank on engine 0. -/
def coll0 : List Byte := desc 6 [(0x18, [4, 0, 0, 0, 7]), (0x20, [1]), (0x2C, [1])]

/-- A kernel of two groups. -/
def kernel0 : Kernel := ⟨.stream 0 0, 0, 0, 2, 0, 0, 0, 0, 0, 0, 0, 0, false, false⟩

/-- A group instruction of a class and op, with its other fields. -/
def ins (cls op rest : Nat) : Nat := cls * 2 ^ 58 + op * 2 ^ 52 + rest

/-- Fields that guard an instruction with P1. -/
def onP1 : Nat := 2 ^ 49

/-- A kernel to which the whole operand cache and every plate are granted. -/
def kernel1 : Kernel := { kernel0 with key := 1, ocSize := 0x40000, plates := 0xFFFFFFFF }

/-- A word at address 0 of a store. -/
def words0 (w : Nat) : Map Byte := ((List.range 8).zip (leBytes 8 w)).filter (fun e => decide (e.2 ≠ 0))

/-- Tile 0 of TD0 with the group g in slot 0 at the instruction w, at address 0 of its store. -/
def at0 (w : Nat) (g : Group := { active := 0xFFFFFFFF, live := 0xFFFFFFFF }) (k : Kernel := kernel0) : State :=
  { onKeys [(1, { state := 2 })] with
    tiles := [(0, { power := .run, kernel := some k, slots := [(0, { g with st := .running })], ts := words0 w })] }

/-- The group of slot 0 there. -/
def group0 (s : State) : Group := (s.tile 0 0).slot 0

/-- A tile die that passes its part of a start. -/
def goodDie (n : BitVec 3) : DieReport :=
  { strap := n, fuse := none, heardE := [], heardS := [], heardfE := [], heardfS := [], heardH := [], heardfH := [], cap := none, tiles := [],
    sramOk := true, dsqOk := true }

/-- What a start may meet. -/
def report0 : StartReport :=
  { slotId := 1, brakeHeld := false, recovery := none, hdSramOk := true, td0 := goodDie 0, td1 := goodDie 1, td2 := goodDie 2, td3 := goodDie 3,
    hdCap := ⟨1, 0x13, 0xF, 1⟩, lanes := [], silent := [], badChannels := [], exitFail := none, fabricRoot := 0, os := none }

/-- A request that has its turn, as the witnesses show it. -/
theorem served_of {s : State} {cmd : Nat} {r : Request} {i : CommandInfo} (h : s.turn cmd r = true) (e : commandInfo cmd = some i)
    (p : s.pilotRefuses cmd i = false) : Served s cmd r := ⟨h, i, e, p⟩

/-- A result that is no error has a value. -/
theorem read_ok {α β γ : Type} {p : Except α β × γ} (h : p.1.isOk = true) : ∃ c, p = (.ok c, p.2) := by
  obtain ⟨_ | c, t⟩ := p
  · cases h
  · exact ⟨c, rfl⟩

/-- A pair has its parts. -/
theorem pair_of {α β : Type} (p : α × β) : ∃ e t, p = (e, t) := ⟨_, _, rfl⟩

/-- A write that fails nowhere leaves a state. -/
theorem write_ok {β γ : Type} {p : Option β × γ} (h : p.1.isNone = true) : p = (none, p.2) := by
  obtain ⟨_ | c, t⟩ := p
  · rfl
  · cases h

/-- A write that succeeds leaves a state. -/
theorem true_ok {γ : Type} {p : Bool × γ} (h : p.1 = true) : p = (true, p.2) := by
  obtain ⟨_, t⟩ := p
  cases h
  rfl

/-- A read that fails names its error. -/
theorem read_err {α β γ : Type} {p : Except α β × γ} (h : p.1.isOk = false) : ∃ c, p = (.error c, p.2) := by
  obtain ⟨c | _, t⟩ := p
  · exact ⟨c, rfl⟩
  · cases h

/-- M-ACTIVE with key ID 1, resident for a job, which hart 0 may select. -/
def keyed : State := { onKeys [(1, { state := 2 })] with host := { harts := [(0, { kidEn := true })] } }

/-- Hart 0 with a state of its own. -/
def onHart (x : Hart) : State := { keyed with host := { harts := [(0, x)] } }

/-- Messages on their way between homes and agents. -/
def sent (l : List CohMsg) (s : State) : State := { s with pool := { s.pool with msgs := l } }

/-- Line 0 held by agent 0. -/
def held (x : AgentLine) (l : List CohMsg) : State := sent l (keyed.putAgent 0 0 x)

/-- Line 0 with a directory entry. -/
def homed (x : HomeLine) (l : List CohMsg) : State := sent l (keyed.putHome 0 x)

/-- Line 0 shared by agent 1, waiting for agent 0. -/
def homeSh : HomeLine := { key := 1, txn := some ⟨.rdS, .cache 1, 1, [], 0, ⟨0, false, 0, 0, 0⟩⟩, waiting := agentMask [0] }

/-- Line 0 written by a unit, waiting for its owner, agent 0. -/
def homeWr : HomeLine :=
  { key := 1, txn := some ⟨.wrPart, .other ⟨2, false⟩, 1, [], 0, ⟨0, false, 0, 0, 0⟩⟩, waiting := agentMask [0], owner := some 0 }

/-- Controller 0 with a state of its own. -/
def onCtrl (x : MemCtrl) : State := { inState .active with pool := { ctrls := [(0, x)] } }

/-- Bundle end 0 with a state of its own. -/
def onLink (x : LinkEnd_) : State := { inState .active with links := [(0, x)] }

/-- A flit between dies with a header and an empty payload. -/
def flit (h : Nat) : List Byte := leBytes 4 h ++ zeros 56 ++ leBytes 4 (crc32c (leBytes 4 h ++ zeros 56))

/-- Port 0 with a state of its own. -/
def onPort (x : Port) : State := { inState .active with ports := [(0, x)] }

/-- A fabric state, port 0 being up. -/
def onFabric (f : Fabric) : State := { onPort { state := 2 } with fabric := f }

/-- A fabric flit of a header, without payload. -/
def fabFlit (h : Nat) : List Byte := leBytes 8 h ++ zeros 244 ++ leBytes 4 (crc32c (leBytes 8 h ++ zeros 244))

/-- A packet under key ID 1 from module 0. -/
def pk (op : BitVec 8) (arg : List Byte) (data : List Byte) : Packet :=
  ⟨0, 0, op, 0, BitVec.ofNat 16 data.length, 0, 0, 1, 0, arg ++ zeros (12 - arg.length), data⟩

/-- A Beacon message of job 5. -/
def bm (rank : Nat) (seq : Word) (start : DWord) (armed : Word) : BeaconMsg := ⟨rank, 5, seq, start, 0, 0, armed, 0⟩

/-- Job 0 as a rank of two. -/
def ofTwo (r : Nat) : Job := { job0 with rank := r, nranks := 2 }

/-- A job on a module whose Beacon has a state. -/
def onBeacon (j : Job) (b : Beacon) : State := withJob j { inState .active with fabric := { beacon := b } }

/-- A collective step over ranks. -/
def step0 (ranks : List Nat) : CollStep :=
  { src := .stream 0 0, raw := coll0, rep := 0, a := none, b := none, ranks := ranks, checked := [0] }

/-- Engine 0 of TD0 with a state of its own, in a running job. -/
def onCe (x : Ce) : State := withJob { job0 with state := 3 } (onDie { ces := [(0, x)] })

/-- The host interface in a state of its own, with key IDs. -/
def onHost (h : Host_) (k : Map KeySlot := []) : State := { onKeys k with host := h }

/-- s with line 0 fenced. -/
def fenced0 (s : State) : State := { s with pool := { s.pool with ctrls := [(0, { fence := [(0, ⟨true, 0, 1, 0⟩)] })] } }

/-- s with every word of plate 0 of tile 0 reading as an error. -/
def badPlates (s : State) : State := s.modTile 0 0 (fun k => { k with plateBad := List.range 128 })

/-- ISLAND: a kernel of two groups on tile 0, with plate 0. -/
def island0 : List Byte := desc 10 [(8, [0, 1]), (0x14, [2]), (0x18, [9]), (0x1C, [1])]

/-- A fabric data flit of a header and a packet's bytes. -/
def dataFlit (h : Nat) (l : List Byte) : List Byte :=
  leBytes 8 h ++ bytesAt l 0 240 ++ zeros 4 ++ leBytes 4 (crc32c (leBytes 8 h ++ bytesAt l 0 240 ++ zeros 4))

/-- An acknowledgement of cache 12 on its way over a bundle. -/
def msg0 : LinkMsg := (CohMsg.ack 12 0 false false).link 4 0

/-- A link-control flit with nak. -/
def ackFlit : List Byte := leBytes 4 7 ++ leBytes 56 (2 ^ 12) ++ leBytes 4 (crc32c (leBytes 4 7 ++ leBytes 56 (2 ^ 12)))

/-- A core's access of a kind by hart 0 at byte 0 of a line. -/
def core0 (k : CoreKind) : CoreAccess := ⟨0, k, .pma, 0, 0⟩

/-- A group parked in slot 0 of a tile with a kernel, beside key ID 0 that is resident. -/
def parked0 : State := { onKeys [(0, { state := 2 })] with tiles := [(0, { slots := [(0, { st := .parked })], kernel := some kernel0 })] }

/-! ## Witnesses: states and operands that meet the hypotheses of the statements, clause by clause -/

theorem test_meets_StepRunsTheFrontCommand :
  ∃ (c : _) (rest : _) (s : State), s.pending = c :: rest :=
  ⟨.hostHbBeat, [], { State.reset with pending := [.hostHbBeat] }, rfl⟩

theorem test_meets_TheQueueIsTheSenders :
  (∃ (s : State), s.pending = []) ∧
  (∃ (s : State), ((∀ p < 24, s.portUp p = false)) ∧ (s.box 2).i3cOut = []) :=
  ⟨⟨State.reset, rfl⟩,
    ⟨State.reset, by decide +kernel⟩⟩

theorem test_meets_FusesAreNeverUndone :
  ∃ (s : State) (t : _), Machine.step s = .next t :=
  ⟨State.reset, _, rfl⟩

theorem test_meets_MemoryStaysCanonical :
  ∃ (s : State) (t : _), Memory.wf s.pool.cells = true ∧ Machine.step s = .next t :=
  ⟨{ State.reset with pool := { cells := [(4, 1), (9, 255)] } }, _, by decide +kernel, rfl⟩

theorem test_meets_PowerLossForgets :
  (∃ (excess : Bool) (s : State), s.power.state ≠ .off) ∧
  (∃ (s : State), s.power.state ≠ .off ∧ s.pins.resetN = true) ∧
  (∃ (s : State), s.pins.resetN = false) :=
  ⟨⟨true, inState .active, by decide +kernel⟩,
    ⟨inState .idle, by decide +kernel⟩,
    ⟨{ State.reset with pins := { resetN := false } }, by decide +kernel⟩⟩

theorem test_meets_StartsEndActiveOrPilot :
  (∃ (r : StartReport) (s : State), s.power.state = .off ∧ s.pins.resetN = true ∧ s.pins.thermtrip = false) ∧
  (∃ (r : StartReport) (s : State), s.power.state = .off ∧ (s.pins.resetN = false ∨ s.pins.thermtrip = true)) ∧
  (∃ (r : StartReport) (s : State), s.pins.resetN = false ∧ s.pins.inputOk = true) ∧
  (∃ (r : StartReport) (s : State), s.pins.resetN = false ∧ s.pins.inputOk = false) :=
  ⟨⟨report0, State.reset, by decide +kernel⟩,
    ⟨report0, { State.reset with pins := { thermtrip := true } }, by decide +kernel⟩,
    ⟨report0, { State.reset with pins := { resetN := false, inputOk := true } }, by decide +kernel⟩,
    ⟨report0, { State.reset with pins := { resetN := false } }, by decide +kernel⟩⟩

theorem test_meets_StartTimeoutsEnterPilot :
  (∃ (d : DieId) (s : State), s.power.state ≠ .off) ∧
  (∃ (n : Fin 10) (s : State), (n.val = 0 ∨ n.val = 7)) ∧
  (∃ (n : Fin 10) (s : State), n.val ≠ 0 ∧ n.val ≠ 7 ∧ s.power.state ≠ .off) ∧
  (∃ (b : Bool) (s : State), s.power.state ≠ .off) :=
  ⟨⟨3, inState .active, by decide +kernel⟩,
    ⟨7, State.reset, by decide +kernel⟩,
    ⟨9, inState .active, by decide +kernel⟩,
    ⟨true, inState .active, by decide +kernel⟩⟩

theorem test_meets_StrapsAreSampledAtPowerGood :
  (∃ (d : DieId) (pos : BitVec 3) (s : State), (s.die d).railUp = false) ∧
  (∃ (d : DieId) (pos : BitVec 3) (s : State), (s.die d).railUp = true) :=
  ⟨⟨3, 7, State.reset, by decide +kernel⟩,
    ⟨0, 7, onDie { railUp := true }, by decide +kernel⟩⟩

theorem test_meets_PinEventsAreRecorded :
  (∃ (s : State), (s.fabric.isRoot = true ∨ s.fabric.inTree = false)) ∧
  (∃ (s : State), s.fabric.isRoot = false ∧ s.fabric.inTree = true) ∧
  (∃ (s : State), s.power.state ≠ .off) :=
  ⟨⟨State.reset, by decide +kernel⟩,
    ⟨{ State.reset with fabric := { inTree := true } }, by decide +kernel⟩,
    ⟨inState .pilot, by decide +kernel⟩⟩

theorem test_meets_TileStoreEventsKeepOtherTiles :
  (∃ (d : DieId) (t : TileId) (s : State), s.domainOn .tile = true ∧ (s.tile d t).power = .off) ∧
  (∃ (d : DieId) (t : TileId) (s : State), ((s.tile d t).power ≠ .off ∨ s.domainOn .tile = false)) ∧
  (∃ (d : DieId) (t : TileId) (single : BitVec 16) (double : BitVec 16) (s : State), (s.tile d t).power ≠ .off) ∧
  (∃ (d : DieId) (t : TileId) (s : State), (Map.get {} (s.die d).units t).present = true ∧ (Map.get {} (s.die d).units t).fenced = false ∧ (s.die d).inflight = []) :=
  ⟨⟨0, 127, inState .active, by decide +kernel⟩,
    ⟨0, 0, onTile { power := .doze }, by decide +kernel⟩,
    ⟨0, 0, 1, 0, onTile { power := .run }, by decide +kernel⟩,
    ⟨0, 5, onDie { units := [(5, { present := true })] }, by decide +kernel⟩⟩

theorem test_meets_InputSamplesDriveTheCap :
  (∃ (v : BitVec 16) (a : BitVec 16) (w : BitVec 16) (g : BitVec 16) (s : State), s.power.state ≠ .off) ∧
  (∃ (s : State), s.power.overSince.isSome = true) ∧
  (∃ (l : List RailReading) (s : State), s.power.state ≠ .off ∧ l.length ≤ 23) ∧
  (∃ (v : BitVec 16) (a : BitVec 16) (w : BitVec 16) (g : BitVec 16) (l : List RailReading) (s : State), s.power.state = .off) :=
  ⟨⟨720, 10, 7, 60, inState .active, by decide +kernel⟩,
    ⟨onPower { state := .active, overSince := some 0 }, by decide +kernel⟩,
    ⟨List.replicate 23 ⟨720, 10, 7, 60, 16⟩, inState .active, by decide +kernel⟩,
    ⟨720, 10, 7, 60, [], State.reset, by decide +kernel⟩⟩

theorem test_meets_BrakeAppliesAndReleases :
  (∃ (s : State), s.power.state = .active ∧ s.power.brakeIn = false) ∧
  (∃ (s : State), (s.power.state = .idle ∨ s.power.state = .pilot) ∧ s.power.brakeIn = false) ∧
  (∃ (s : State), s.power.brakeIn = true ∧ s.power.brake = true ∧ s.power.toggle = false) ∧
  (∃ (s : State), s.power.brakeIn = true ∧ s.power.toggle = true) ∧
  (∃ (s : State), s.power.releasing = true) ∧
  (∃ (s : State), s.power.toggle = true ∧ s.power.brakeIn = false) ∧
  (∃ (s : State), s.power.brakeIn = true ∧ s.power.brake = true) ∧
  (∃ (s : State), s.power.state ≠ .off ∧ s.power.underVolt = false) ∧
  (∃ (s : State), s.power.underVolt = true) :=
  ⟨⟨inState .active, by decide +kernel⟩,
    ⟨inState .pilot, by decide +kernel⟩,
    ⟨onPower { brakeIn := true, brake := true }, by decide +kernel⟩,
    ⟨onPower { brakeIn := true, toggle := true }, by decide +kernel⟩,
    ⟨onPower { releasing := true }, by decide +kernel⟩,
    ⟨onPower { toggle := true }, by decide +kernel⟩,
    ⟨onPower { brakeIn := true, brake := true }, by decide +kernel⟩,
    ⟨inState .active, by decide +kernel⟩,
    ⟨onPower { underVolt := true }, by decide +kernel⟩⟩

theorem test_meets_DroopAndHeatStretchTheirDie :
  (∃ (d : DieId) (s : State), s.domainOn .tile = true) ∧
  (∃ (d : DieId) (s : State), s.domainOn .tile = false) ∧
  (∃ (d : DieId) (temp : BitVec 8) (hot : StackReading) (s : State), s.unitUp d = true) ∧
  (∃ (temp : BitVec 8) (hot : StackReading) (s : State), s.unitUp 4 = true) ∧
  (∃ (u : Fin 5) (temp : BitVec 8) (hot : StackReading) (s : State), s.unitUp u = false) ∧
  (∃ (d : DieId) (temp : BitVec 8) (hot : StackReading) (s : State), s.unitUp d = true ∧ (s.diePower d).throttled = true) ∧
  (∃ (temp : BitVec 8) (hot : StackReading) (s : State), s.unitUp 4 = true ∧ s.power.hdThrottled = true) ∧
  (∃ (d : DieId) (s : State), (s.diePower d).thermal = 4) ∧
  (∃ (d : DieId) (s : State), (s.diePower d).thermal ≠ 4) :=
  ⟨⟨0, inState .active, by decide +kernel⟩,
    ⟨0, inState .pilot, by decide +kernel⟩,
    ⟨0, 60, ⟨0, 90⟩, inState .active, by decide +kernel⟩,
    ⟨60, ⟨27, 255⟩, inState .active, by decide +kernel⟩,
    ⟨2, 60, ⟨0, 90⟩, State.reset, by decide +kernel⟩,
    ⟨0, 60, ⟨0, 90⟩, onPower { state := .active, dies := [(0, { throttled := true })] }, by decide +kernel⟩,
    ⟨60, ⟨0, 90⟩, onPower { state := .active, hdThrottled := true }, by decide +kernel⟩,
    ⟨0, onPower { dies := [(0, { thermal := 4 })] }, by decide +kernel⟩,
    ⟨0, State.reset, by decide +kernel⟩⟩

theorem test_meets_ClocksAndPhasesAreSet :
  (∃ (d : DieId) (j : Job) (code : _) (tc : _) (s : State), s.lantern.job = some j ∧ j.freqNew = some (code, tc) ∧ j.state = 3 ∧ (s.die d).running = true ∧ tc ≤ s.timeNs ∧ (s.die d).sc = (s.die d).frameStart ∧ s.switched j d = false) ∧
  (∃ (d : DieId) (s : State), (s.die d).flares = []) ∧
  (∃ (d : DieId) (f : Flare) (s : State), (s.die d).flares = [f] ∧ f.start ≤ (s.die d).sc ∧ (s.die d).sc < f.stop) :=
  ⟨⟨0, { job0 with state := 3, freqNew := some (5, 100) }, 5, 100, { withJob { job0 with state := 3, freqNew := some (5, 100) } (onDie { running := true, sc := 4, frameStart := 4, stream := [0] }) with timeNs := 100 }, by decide +kernel⟩,
    ⟨0, State.reset, by decide +kernel⟩,
    ⟨0, ⟨2, 0, 10⟩, onDie { flares := [⟨2, 0, 10⟩], sc := 9 }, by decide +kernel⟩⟩

theorem test_meets_TilePowerStatesLoseTheirStores :
  (∃ (d : DieId) (u : TileId) (s : State), (s.tile d u).power = .run ∧ s.unitsIdle d u = true) ∧
  (∃ (d : DieId) (u : TileId) (n : _) (s : State), s.jobState = 3 ∧ (s.die d).running = true ∧ s.unitsIdle d u = true ∧ s.inIsland d u = false ∧ s.tileWrites d u = false ∧ ((s.tile d u).power = .run ∨ (s.tile d u).power = .gate) ∧ (s.die d).due = [] ∧ nextSlot (s.die d).stream u (2 * ((s.die d).stream.length / 64) + 4) (s.die d).next (s.die d).frameStart (s.die d).frameL ((s.die d).frameRepeat - (s.die d).frameRep - 1) (s.die d).framePos false = n) ∧
  (∃ (d : DieId) (u : TileId) (s : State), s.domain .tile = .perTile) ∧
  (∃ (d : DieId) (u : TileId) (s : State), s.domain .tile ≠ .perTile) ∧
  (∃ (d : DieId) (u : TileId) (ns : Nat) (s : State), s.jobState ≠ 3 ∧ (s.tile d u).idle = true ∧ s.inIsland d u = false ∧ ((s.tile d u).power = .run ∨ (s.tile d u).power = .gate ∨ (s.tile d u).power = .nap) ∧ s.entryNames d u = false ∧ s.tileWrites d u = false ∧ (s.die d).tileCfg = 0xA028 ∧ (s.die d).wqs.all (fun w => !w.2.enable) = true) ∧
  (∃ (d : DieId) (u : TileId) (s : State), (s.die d).tileCfg.getLsbD 0 = true ∧ s.lantern.job = none ∧ (s.tile d u).power = .doze ∧ s.tileWrites d u = false) ∧
  (∃ (d : DieId) (u : TileId) (s : State), (s.die d).tileCfg.getLsbD 0 = true ∧ s.lantern.job = none ∧ (s.tile d u).power = .doze ∧ s.tileWrites d u = true) :=
  ⟨⟨0, 0, onTile { power := .run }, by decide +kernel⟩,
    ⟨0, 0, none, withJob { job0 with state := 3 } { onTile { power := .gate } with dies := [(0, { running := true })] }, by decide +kernel⟩,
    ⟨0, 127, inState .active, by decide +kernel⟩,
    ⟨0, 127, inState .idle, by decide +kernel⟩,
    ⟨0, 0, 100, onTile { power := .nap }, by decide +kernel⟩,
    ⟨0, 0, { onTile { power := .doze } with dies := [(0, { tileCfg := 1 })] }, by decide +kernel⟩,
    ⟨0, 0, { onTile { power := .doze } with dies := [(0, { tileCfg := 1, remote := [{ tag := 0, src := .queue 0 0, op := 3, tile := 0, off := 0, len := 1 }] })] }, by decide +kernel⟩⟩

theorem test_meets_IdleKeepsMemoryAndStores :
  (∃ (s : State), s.power.state = .active ∧ s.power.modCfg.getLsbD 0 = true ∧ s.lantern.job = none ∧ s.queueEnabled = false) ∧
  (∃ (s : State), s.power.state = .active ∧ s.power.modCfg.getLsbD 0 = true ∧ s.lantern.job = none ∧ s.queueEnabled = false ∧ s.host.harts = [] ∧ s.pool.msgs = [] ∧ s.pool.agents = []) ∧
  (∃ (s : State), s.power.state = .active ∧ (s.power.modCfg.getLsbD 0 = false ∨ s.lantern.job ≠ none ∨ s.queueEnabled = true)) ∧
  (∃ (w : WakeTrigger) (s : State), s.power.state = .idle) ∧
  (∃ (w : WakeTrigger) (s : State), s.power.state ≠ .idle) :=
  ⟨⟨onPower { state := .active, modCfg := 1 }, by decide +kernel⟩,
    ⟨onPower { state := .active, modCfg := 1 }, by decide +kernel⟩,
    ⟨inState .active, by decide +kernel⟩,
    ⟨.home, inState .idle, by decide +kernel⟩,
    ⟨.doorbell, inState .active, by decide +kernel⟩⟩

theorem test_meets_ResponsesTakeTheirPath :
  (∃ (s : State) (cmd : Nat) (r : Request) (tag : Nat) (st : Nat) (p : List Byte), cmd < 65536 ∧ tag < 65536 ∧ st < 65536 ∧ p.length < 65536) ∧
  (∃ (s : State) (cmd : Nat) (r : Request) (st : Nat) (p : List Byte), (r.src, r.tag.toNat) ∉ (s.box (boxOf r.src)).outstanding) ∧
  (∃ (s : State) (cmd : Nat) (r : Request) (st : Nat) (p : List Byte), (r.src, r.tag.toNat) ∈ (s.box (boxOf r.src)).outstanding ∧ boxOf r.src ≠ 2 ∧ (s.box (boxOf r.src)).rsp = none) ∧
  (∃ (s : State) (cmd : Nat) (r : Request) (st : Nat) (p : List Byte) (x : _), (r.src, r.tag.toNat) ∈ (s.box (boxOf r.src)).outstanding ∧ boxOf r.src ≠ 2 ∧ (s.box (boxOf r.src)).rsp = some x) ∧
  (∃ (s : State) (cmd : Nat) (r : Request) (st : Nat) (p : List Byte) (k : Fin 4), r.src = .dtls k ∧ (r.src, r.tag.toNat) ∈ (s.box 2).outstanding ∧ cmd < 65536 ∧ st < 65536) ∧
  (∃ (s : State) (cmd : Nat) (r : Request) (st : Nat) (p : List Byte), r.src = .i3c ∧ (r.src, r.tag.toNat) ∈ (s.box 2).outstanding) ∧
  (∃ (s : State) (x : _) (rest : _), (s.box 2).i3cOut = x :: rest ∧ s.pins.i3cAddr.isSome = true) :=
  ⟨⟨State.reset, 65535, ask .os [], 65534, 16, [], by decide +kernel⟩,
    ⟨State.reset, 257, ask .os [], 0, [], by decide +kernel⟩,
    ⟨onBox 0 { outstanding := [(.os, 7)] }, 257, ask .os [], 0, [], by decide +kernel⟩,
    ⟨onBox 1 { outstanding := [(.eh, 7)], rsp := some ⟨.eh, [], true⟩ }, 257, ask .eh [], 0, [], ⟨.eh, [], true⟩, by decide +kernel⟩,
    ⟨onBox 2 { outstanding := [(.dtls 3, 7)] }, 65535, ask (.dtls 3) [], 65535, [], 3, by decide +kernel⟩,
    ⟨onBox 2 { outstanding := [(.i3c, 7)] }, 1, ask .i3c [], 0, [], by decide +kernel⟩,
    ⟨{ onBox 2 { i3cOut := [⟨.i3c, [], true⟩] } with pins := { i3cAddr := some 8 } }, ⟨.i3c, [], true⟩, [], by decide +kernel⟩⟩

theorem test_meets_RequestsAreCheckedOnReceipt :
  (∃ (eh : Bool) (v : Word) (s : State), s.power.state ≠ .off ∧ (s.box (b2n eh)).free.getLsbD (v.toNat % 4) = true ∧ s.lantern.handover = false) ∧
  (∃ (eh : Bool) (v : Word) (s : State), s.power.state ≠ .off ∧ (s.box (b2n eh)).free.getLsbD (v.toNat % 4) = false ∧ (s.box (b2n eh)).malTimes = [] ∧ (s.box (b2n eh)).malformed ≠ 0xFFFFFFFF) ∧
  (∃ (k : Source) (raw : List Byte) (s : State), s.power.state ≠ .off ∧ k = .i3c ∧ s.pins.i3cAddr.isSome = true ∧ s.lantern.handover = false) ∧
  (∃ (k : Fin 4) (raw : List Byte) (s : State), s.power.state ≠ .off ∧ s.lantern.handover = true) ∧
  (∃ (s : State) (k : _) (raw : _) (i : _), s.takes (boxOf k) ∧ badHeader raw = false ∧ (k, fieldAt raw 4 2) ∉ (s.box (boxOf k)).outstanding ∧ s.yesiaMin ≤ fieldAt raw 0 1 ∧ fieldAt raw 0 1 ≤ s.yesiaMax ∧ commandInfo (fieldAt raw 2 2) = some i ∧ i.permits k = true ∧ s.pilotRefuses (fieldAt raw 2 2) i = false ∧ badPayload (fieldAt raw 2 2) i (raw.drop 16) = false ∧ badOp (fieldAt raw 2 2) (raw.drop 16) = false) ∧
  (∃ (s : State) (k : _) (raw : List Byte), (s.box (boxOf k)).throttled = false ∧ 32 ≤ (s.box (boxOf k)).outstanding.length) ∧
  (∃ (s : State) (k : _) (raw : _), s.takes (boxOf k) ∧ badHeader raw = false ∧ (k, fieldAt raw 4 2) ∈ (s.box (boxOf k)).outstanding) ∧
  (∃ (s : State) (k : _) (raw : _), s.takes (boxOf k) ∧ badHeader raw = true) ∧
  (∃ (s : State) (k : _) (raw : _), s.takes (boxOf k) ∧ badHeader raw = false ∧ (k, fieldAt raw 4 2) ∉ (s.box (boxOf k)).outstanding ∧ s.yesiaMin ≤ fieldAt raw 0 1 ∧ fieldAt raw 0 1 ≤ s.yesiaMax ∧ commandInfo (fieldAt raw 2 2) = none) ∧
  (∃ (s : State) (k : _) (raw : _) (i : _), s.takes (boxOf k) ∧ badHeader raw = false ∧ (k, fieldAt raw 4 2) ∉ (s.box (boxOf k)).outstanding ∧ s.yesiaMin ≤ fieldAt raw 0 1 ∧ fieldAt raw 0 1 ≤ s.yesiaMax ∧ commandInfo (fieldAt raw 2 2) = some i ∧ i.permits k = true ∧ s.pilotRefuses (fieldAt raw 2 2) i = true) ∧
  (∃ (s : State) (k : _) (raw : _), s.takes (boxOf k) ∧ badHeader raw = false ∧ (k, fieldAt raw 4 2) ∉ (s.box (boxOf k)).outstanding ∧ s.yesiaMax < fieldAt raw 0 1 ∧ s.yesiaMax < 256) :=
  ⟨⟨true, 3, inState .active, by decide +kernel⟩,
    ⟨false, 3, onBox 0 { free := 7 }, by decide +kernel⟩,
    ⟨.i3c, [], { inState .active with pins := { i3cAddr := some 8 } }, by decide +kernel⟩,
    ⟨3, [], { inState .active with lantern := { handover := true } }, by decide +kernel⟩,
    ⟨inState .active, .os, [1, 0, 1, 1, 7, 0, 0, 0, 0, 0, 0, 0, 0, 0, 0, 0], _, ⟨by decide +kernel, by decide +kernel⟩, by decide +kernel, by decide +kernel, by decide +kernel, by decide +kernel, rfl, by decide +kernel, by decide +kernel, by decide +kernel, by decide +kernel⟩,
    ⟨onBox 0 { outstanding := (List.range 32).map (fun k => (.os, k)) }, .os, [], by decide +kernel⟩,
    ⟨onBox 0 { outstanding := [(.os, 7)] }, .os, [1, 0, 1, 1, 7, 0, 0, 0, 0, 0, 0, 0, 0, 0, 0, 0], by (repeat' apply And.intro) <;> decide +kernel⟩,
    ⟨inState .active, .os, [1, 0, 1], by (repeat' apply And.intro) <;> decide +kernel⟩,
    ⟨inState .active, .os, [1, 0, 4, 1, 7, 0, 0, 0, 0, 0, 0, 0, 0, 0, 0, 0], by (repeat' apply And.intro) <;> decide +kernel⟩,
    ⟨inState .pilot, .os, [1, 0, 1, 3, 7, 0, 0, 0, 0, 0, 0, 0, 0, 0, 0, 0], _, ⟨by decide +kernel, by decide +kernel⟩, by decide +kernel, by decide +kernel, by decide +kernel, by decide +kernel, rfl, by decide +kernel, by decide +kernel⟩,
    ⟨inState .active, .os, [255, 0, 1, 1, 7, 0, 0, 0, 0, 0, 0, 0, 0, 0, 0, 0], by (repeat' apply And.intro) <;> decide +kernel⟩⟩

theorem test_meets_MailboxClientsMoveTheirRings :
  (∃ (eh : Bool) (x : _) (s : State), (s.box (b2n eh)).rsp = some x) ∧
  (∃ (eh : Bool) (w : Word) (s : State), ((s.box (b2n eh)).evtHead - w).toNat ≤ ((s.box (b2n eh)).evtHead - (s.box (b2n eh)).evtTail).toNat) ∧
  (∃ (eh : Bool) (w : Word) (s : State), ((s.box (b2n eh)).evtHead - (s.box (b2n eh)).evtTail).toNat < ((s.box (b2n eh)).evtHead - w).toNat) ∧
  (∃ (m : Fin 3) (s : State), (s.box m).throttled = true ∧ (s.box m).malTimes = []) :=
  ⟨⟨true, ⟨.eh, [], true⟩, onBox 1 { rsp := some ⟨.eh, [], true⟩ }, by decide +kernel⟩,
    ⟨false, 3, onBox 0 { evtHead := 5, evtTail := 3 }, by decide +kernel⟩,
    ⟨false, 2, onBox 0 { evtHead := 5, evtTail := 3 }, by decide +kernel⟩,
    ⟨2, onBox 2 { throttled := true }, by decide +kernel⟩⟩

theorem test_meets_EventRingsKeepOrCount :
  (∃ (s : State) (b : _) (code : Nat) (rec : List Byte), (s.box b).evtMask.getLsbD (code / 4096) = false) ∧
  (∃ (s : State) (b : _) (code : Nat) (rec : List Byte), (s.box b).evtMask.getLsbD (code / 4096) = true ∧ ((s.box b).evtHead - (s.box b).evtTail).toNat = 256) ∧
  (∃ (s : State) (b : _) (code : Nat) (rec : List Byte), (s.box b).evtMask.getLsbD (code / 4096) = true ∧ ((s.box b).evtHead - (s.box b).evtTail).toNat ≠ 256) ∧
  (∃ (s : State) (b : _) (code : Nat) (rec : List Byte) (k : _), (s.box b).evtMask.getLsbD (code / 4096) = true ∧ ((s.box b).evtHead - (s.box b).evtTail).toNat ≠ 256 ∧ k ≠ (s.box b).evtHead.toNat % 256) ∧
  (∃ (s : State) (b : _) (code : Nat) (rec : List Byte), (s.box b).evtMask.getLsbD (code / 4096) = true ∧ ((s.box b).evtHead - (s.box b).evtTail).toNat ≠ 256 ∧ b = 0) :=
  ⟨⟨onBox 1 { evtMask := 0 }, 1, 0x8001, [], by decide +kernel⟩,
    ⟨onBox 1 { evtHead := 256 }, 1, 0x8001, [], by decide +kernel⟩,
    ⟨onBox 1 { evtHead := 255 }, 1, 0x8001, [], by decide +kernel⟩,
    ⟨onBox 1 { evtHead := 255 }, 1, 0x8001, [], 0, by decide +kernel⟩,
    ⟨State.reset, 0, 0x8001, [], by decide +kernel⟩⟩

theorem test_meets_QueriesOnlyAnswer :
  (∃ (r : Request) (s : State), Served s 0x0101 r) ∧
  (∃ (r : Request) (s : State), Served s 0x0102 r) ∧
  (∃ (r : Request) (s : State), Served s 0x0207 r ∧ s.lantern.job = none) ∧
  (∃ (r : Request) (s : State) (j : Job), Served s 0x0207 r ∧ s.lantern.job = some j ∧ j.handle = r.handle.toNat) ∧
  (∃ (r : Request) (s : State), Served s 0x0301 r) ∧
  (∃ (r : Request) (s : State), Served s 0x0501 r) ∧
  (∃ (r : Request) (s : State), Served s 0x0604 r) ∧
  (∃ (r : Request) (s : State), Served s 0x0303 r ∧ fieldAt r.payload 0 1 = 0 ∧ fieldAt r.payload 1 1 < 12) ∧
  (∃ (r : Request) (s : State), Served s 0x0302 r ∧ fieldAt r.payload 0 1 = 1) ∧
  (∃ (r : Request) (s : State), Served s 0x0304 r ∧ fieldAt r.payload 0 1 = 0 ∧ fieldAt r.payload 1 1 < 12) ∧
  (∃ (r : Request) (s : State), Served s 0x0502 r ∧ fieldAt r.payload 0 1 = 0 ∧ fieldAt r.payload 1 1 < 64) :=
  ⟨⟨ask .os [], asked 0x0101 (ask .os []) (inState .active), by (repeat' apply And.intro) <;> decide +kernel⟩,
    ⟨ask .eh [], asked 0x0102 (ask .eh []) (inState .active), by (repeat' apply And.intro) <;> decide +kernel⟩,
    ⟨ask .os [], asked 0x0207 (ask .os []) (inState .active), by (repeat' apply And.intro) <;> decide +kernel⟩,
    ⟨ask .os [], asked 0x0207 (ask .os []) (withJob job0 (inState .active)), job0, by (repeat' apply And.intro) <;> decide +kernel⟩,
    ⟨ask .os [], asked 0x0301 (ask .os []) (inState .active), by (repeat' apply And.intro) <;> decide +kernel⟩,
    ⟨ask .os [], asked 0x0501 (ask .os []) (inState .active), by (repeat' apply And.intro) <;> decide +kernel⟩,
    ⟨ask .os [], asked 0x0604 (ask .os []) (inState .active), by (repeat' apply And.intro) <;> decide +kernel⟩,
    ⟨ask .os [0, 11], asked 0x0303 (ask .os [0, 11]) (inState .active), by (repeat' apply And.intro) <;> decide +kernel⟩,
    ⟨ask .os [1], asked 0x0302 (ask .os [1]) (inState .active), by (repeat' apply And.intro) <;> decide +kernel⟩,
    ⟨ask .os [0, 11], asked 0x0304 (ask .os [0, 11]) (inState .active), by (repeat' apply And.intro) <;> decide +kernel⟩,
    ⟨ask .os [0, 63], asked 0x0502 (ask .os [0, 63]) (inState .active), by (repeat' apply And.intro) <;> decide +kernel⟩⟩

theorem test_meets_ReportsSayWhatTheModuleIs :
  (∃ (s : State) (nonce : List Byte), nonce.length = 48) ∧
  (∃ (s : State) (nonce : List Byte), nonce.length = 48 ∧ s.sec.osDigest.length = 48) ∧
  (∃ (s : State) (nonce : List Byte), nonce.length = 48 ∧ s.sec.osSigner.length = 48) :=
  ⟨⟨State.reset, zeros 48, by decide +kernel⟩,
    ⟨State.reset, zeros 48, by decide +kernel⟩,
    ⟨State.reset, zeros 48, by decide +kernel⟩⟩

theorem test_meets_BrakePowerFollowsCapAndLevel :
  (∃ (r : Request) (s : State), Served s 0x0401 r ∧ 1200 ≤ fieldAt r.payload 0 2 ∧ fieldAt r.payload 0 2 ≤ 3400 ∧ 10 ≤ fieldAt r.payload 2 1 ∧ fieldAt r.payload 2 1 ≤ 100) ∧
  (∃ (r : Request) (s : State), Served s 0x0401 r ∧ ((0 < fieldAt r.payload 2 1 ∧ fieldAt r.payload 2 1 < 10) ∨ 100 < fieldAt r.payload 2 1)) :=
  ⟨⟨ask .os [0xB0, 0x04, 10], asked 0x0401 (ask .os [0xB0, 0x04, 10]) (inState .active), by (repeat' apply And.intro) <;> decide +kernel⟩,
    ⟨ask .os [0, 0, 9], asked 0x0401 (ask .os [0, 0, 9]) (inState .active), by (repeat' apply And.intro) <;> decide +kernel⟩⟩

theorem test_meets_PwrCapSetsCapAndLevel :
  (∃ (r : Request) (s : State), Served s 0x0401 r ∧ (fieldAt r.payload 0 2 = 0 ∨ (1200 ≤ fieldAt r.payload 0 2 ∧ fieldAt r.payload 0 2 ≤ 3400)) ∧ (fieldAt r.payload 2 1 = 0 ∨ (10 ≤ fieldAt r.payload 2 1 ∧ fieldAt r.payload 2 1 ≤ 100))) ∧
  (∃ (r : Request) (s : State), Served s 0x0401 r ∧ ((0 < fieldAt r.payload 0 2 ∧ fieldAt r.payload 0 2 < 1200) ∨ 3400 < fieldAt r.payload 0 2 ∨ (0 < fieldAt r.payload 2 1 ∧ fieldAt r.payload 2 1 < 10) ∨ 100 < fieldAt r.payload 2 1)) :=
  ⟨⟨ask .os [0xB0, 0x04, 10], asked 0x0401 (ask .os [0xB0, 0x04, 10]) (inState .active), by (repeat' apply And.intro) <;> decide +kernel⟩,
    ⟨ask .os [0xAF, 0x04, 0], asked 0x0401 (ask .os [0xAF, 0x04, 0]) (inState .active), by (repeat' apply And.intro) <;> decide +kernel⟩⟩

theorem test_meets_PowerStateRequestsMoveTheModule :
  (∃ (r : Request) (rep : StartReport) (s : State), Served s 0x0402 r ∧ (s.jobBlocks = true ∨ s.queueEnabled = true)) ∧
  (∃ (r : Request) (rep : StartReport) (s : State), Served s 0x0402 r ∧ s.jobBlocks = false ∧ s.queueEnabled = false ∧ fieldAt r.payload 0 1 = 0 ∧ s.power.state = .idle ∧ s.power.brakeIn = false) ∧
  (∃ (r : Request) (rep : StartReport) (s : State), Served s 0x0402 r ∧ s.jobBlocks = false ∧ s.queueEnabled = false ∧ fieldAt r.payload 0 1 = 0 ∧ s.power.state = .pilot) ∧
  (∃ (r : Request) (rep : StartReport) (s : State), Served s 0x0402 r ∧ s.jobBlocks = false ∧ s.queueEnabled = false ∧ fieldAt r.payload 0 1 = 1 ∧ s.power.state = .active) ∧
  (∃ (r : Request) (rep : StartReport) (s : State), Served s 0x0402 r ∧ s.jobBlocks = false ∧ s.queueEnabled = false ∧ fieldAt r.payload 0 1 = 1 ∧ s.power.state = .active ∧ s.host.harts = [] ∧ s.pool.msgs = [] ∧ s.pool.agents = []) ∧
  (∃ (r : Request) (rep : StartReport) (s : State), Served s 0x0402 r ∧ s.jobBlocks = false ∧ s.queueEnabled = false ∧ fieldAt r.payload 0 1 = 2 ∧ s.power.state ≠ .pilot) ∧
  (∃ (r : Request) (rep : StartReport) (s : State), Served s 0x0402 r ∧ s.jobBlocks = false ∧ s.queueEnabled = false ∧ fieldAt r.payload 0 1 = 3) ∧
  (∃ (r : Request) (s : State), Served s 0x0403 r ∧ fieldAt r.payload 4 4 = 0) ∧
  (∃ (r : Request) (s : State) (j : Job), Served s 0x0403 r ∧ fieldAt r.payload 4 4 ≠ 0 ∧ s.lantern.job = some j ∧ j.handle = fieldAt r.payload 4 4 ∧ (j.rank ≠ 0 ∨ j.state.toNat < 3 ∨ 4 < j.state.toNat)) ∧
  (∃ (r : Request) (s : State) (j : Job), Served s 0x0403 r ∧ fieldAt r.payload 4 4 ≠ 0 ∧ s.lantern.job = some j ∧ j.handle = fieldAt r.payload 4 4 ∧ j.rank = 0 ∧ (j.state = 3 ∨ j.state = 4)) ∧
  (∃ (r : Request) (s : State), Served s 0x0402 r) ∧
  (∃ (d : DieId) (u : TileId) (s : State), (s.tile d u).power = .run) :=
  ⟨⟨ask .os [], report0, asked 0x0402 (ask .os []) (withJob { job0 with state := 3 } (inState .active)), by (repeat' apply And.intro) <;> decide +kernel⟩,
    ⟨ask .os [0], report0, asked 0x0402 (ask .os [0]) (inState .idle), by (repeat' apply And.intro) <;> decide +kernel⟩,
    ⟨ask .os [0], report0, asked 0x0402 (ask .os [0]) (inState .pilot), by (repeat' apply And.intro) <;> decide +kernel⟩,
    ⟨ask .os [1], report0, asked 0x0402 (ask .os [1]) (inState .active), by (repeat' apply And.intro) <;> decide +kernel⟩,
    ⟨ask .os [1], report0, asked 0x0402 (ask .os [1]) (inState .active), by (repeat' apply And.intro) <;> decide +kernel⟩,
    ⟨ask .os [2], report0, asked 0x0402 (ask .os [2]) (inState .active), by (repeat' apply And.intro) <;> decide +kernel⟩,
    ⟨ask .os [3], report0, asked 0x0402 (ask .os [3]) (inState .active), by (repeat' apply And.intro) <;> decide +kernel⟩,
    ⟨ask .os [5], asked 0x0403 (ask .os [5]) (inState .active), by (repeat' apply And.intro) <;> decide +kernel⟩,
    ⟨ask .os [5, 0, 0, 0, 1], asked 0x0403 (ask .os [5, 0, 0, 0, 1]) (withJob { job0 with state := 2 } (inState .active)), { job0 with state := 2 }, by (repeat' apply And.intro) <;> decide +kernel⟩,
    ⟨ask .os [5, 0, 0, 0, 1], asked 0x0403 (ask .os [5, 0, 0, 0, 1]) (withJob { job0 with state := 4 } (inState .active)), { job0 with state := 4 }, by (repeat' apply And.intro) <;> decide +kernel⟩,
    ⟨ask .os [], asked 0x0402 (ask .os []) (inState .active), by (repeat' apply And.intro) <;> decide +kernel⟩,
    ⟨0, 0, onTile { power := .run }, by decide +kernel⟩⟩

theorem test_meets_KeyRequestsChangeOneKey :
  (∃ (r : Request) (s : State), Served s 0x0502 r ∧ fieldAt r.payload 0 1 = 1 ∧ r.src = .os ∧ fieldAt r.payload 2 2 ∈ [1, 2, 3, 5, 6, 7] ∧ ((∃ k, 1 ≤ k ∧ k < 64 ∧ (s.keySlot k).state = 0))) ∧
  (∃ (r : Request) (s : State), Served s 0x0502 r ∧ fieldAt r.payload 0 1 = 1 ∧ boxOf r.src ≠ 0) ∧
  (∃ (r : Request) (s : State), Served s 0x0502 r ∧ fieldAt r.payload 0 1 = 1 ∧ r.src = .os ∧ (fieldAt r.payload 2 2 % 4 = 0 ∨ 8 ≤ fieldAt r.payload 2 2)) ∧
  (∃ (r : Request) (s : State), Served s 0x0502 r ∧ fieldAt r.payload 0 1 = 2 ∧ fieldAt r.payload 1 1 < 64 ∧ s.holderOf r (fieldAt r.payload 1 1) = true ∧ fieldAt r.payload 2 2 ≤ 3) ∧
  (∃ (r : Request) (s : State), Served s 0x0502 r ∧ fieldAt r.payload 0 1 = 3 ∧ fieldAt r.payload 1 1 < 64 ∧ s.holderOf r (fieldAt r.payload 1 1) = true ∧ fieldAt r.payload 2 2 ≤ 3) ∧
  (∃ (r : Request) (s : State), Served s 0x0502 r ∧ fieldAt r.payload 0 1 = 4 ∧ 1 ≤ fieldAt r.payload 1 1 ∧ fieldAt r.payload 1 1 < 64 ∧ s.holderOf r (fieldAt r.payload 1 1) = true) ∧
  (∃ (r : Request) (s : State), Served s 0x0502 r ∧ fieldAt r.payload 0 1 = 5 ∧ fieldAt r.payload 1 1 < 64 ∧ s.holderOf r (fieldAt r.payload 1 1) = true ∧ (s.keySlot (fieldAt r.payload 1 1)).state ≠ 1) ∧
  (∃ (r : Request) (s : State) (c : Instr), Served s 0x0502 r ∧ fieldAt r.payload 1 1 < 64 ∧ s.holderOf r (fieldAt r.payload 1 1) = false ∧ ((c = .grant r ∧ fieldAt r.payload 0 1 = 2) ∨ (c = .revoke r ∧ fieldAt r.payload 0 1 = 3) ∨ (c = .rotate r ∧ fieldAt r.payload 0 1 = 4) ∨ (c = .destroy r ∧ fieldAt r.payload 0 1 = 5 ∧ ((s.keySlot (fieldAt r.payload 1 1)).state ≠ 4 ∨ boxOf r.src ≠ 0)))) ∧
  (∃ (r : Request) (s : State) (c : Instr), Served s 0x0502 r ∧ fieldAt r.payload 1 1 = 0 ∧ (s.keySlot 0).state = 1 ∧ ((c = .rotate r ∧ fieldAt r.payload 0 1 = 4) ∨ (c = .destroy r ∧ fieldAt r.payload 0 1 = 5))) ∧
  (∃ (r : Request) (s : State), Served s 0x0502 r ∧ fieldAt r.payload 0 1 = 5 ∧ fieldAt r.payload 1 1 < 64 ∧ boxOf r.src = 0 ∧ (s.keySlot (fieldAt r.payload 1 1)).state = 4) :=
  ⟨⟨ask .os [1, 0, 1], asked 0x0502 (ask .os [1, 0, 1]) (inState .active), served_of (by decide +kernel) rfl (by decide +kernel), by decide +kernel, rfl, by decide +kernel, 1, by decide +kernel⟩,
    ⟨ask .eh [1, 0, 1], asked 0x0502 (ask .eh [1, 0, 1]) (inState .active), by (repeat' apply And.intro) <;> decide +kernel⟩,
    ⟨ask .os [1, 0, 4], asked 0x0502 (ask .os [1, 0, 4]) (inState .active), by (repeat' apply And.intro) <;> decide +kernel⟩,
    ⟨ask .os [2, 63, 3], asked 0x0502 (ask .os [2, 63, 3]) (onKeys [(63, { state := 3 })]), by (repeat' apply And.intro) <;> decide +kernel⟩,
    ⟨ask .os [3, 0, 3], asked 0x0502 (ask .os [3, 0, 3]) (onKeys [(0, { state := 1 })]), by (repeat' apply And.intro) <;> decide +kernel⟩,
    ⟨ask .os [4, 1], asked 0x0502 (ask .os [4, 1]) (withJob job0 (onKeys [(1, { state := 2 })])), by (repeat' apply And.intro) <;> decide +kernel⟩,
    ⟨ask .os [5, 1], asked 0x0502 (ask .os [5, 1]) (onKeys [(1, { state := 3 })]), by (repeat' apply And.intro) <;> decide +kernel⟩,
    ⟨ask .eh [2, 1], asked 0x0502 (ask .eh [2, 1]) (onKeys [(1, { state := 2 })]), .grant (ask .eh [2, 1]), by (repeat' apply And.intro) <;> decide +kernel⟩,
    ⟨ask .os [4], asked 0x0502 (ask .os [4]) (onKeys [(0, { state := 1 })]), .rotate (ask .os [4]), by (repeat' apply And.intro) <;> decide +kernel⟩,
    ⟨ask .os [5, 9], asked 0x0502 (ask .os [5, 9]) (onKeys [(9, { state := 4 })]), by (repeat' apply And.intro) <;> decide +kernel⟩⟩

theorem test_meets_KeysAreDestroyedOrSealed :
  (∃ (s : State) (l : List Nat) (reason : Nat), l ≠ []) ∧
  (∃ (s : State) (l : List Nat) (reason : Nat) (k : _), l ≠ [] ∧ k ∉ l) ∧
  (∃ (s : State) (k : _), 1 ≤ k ∧ k < 64 ∧ (s.keySlot k).state = 3 ∧ ((∃ g ∈ s.sec.regions, g.key = k))) ∧
  (∃ (s : State) (k : _), 1 ≤ k ∧ k < 64 ∧ (s.keySlot k).state ≠ 0 ∧ (s.keySlot k).state ≠ 4 ∧ (((s.keySlot k).state ≠ 3 ∨ ∀ g ∈ s.sec.regions, g.key ≠ k))) ∧
  (∃ (s : State), (s.keySlot 0).state = 1) :=
  ⟨⟨State.reset, [1], 0, by decide +kernel⟩,
    ⟨State.reset, [1], 0, 2, by decide +kernel⟩,
    ⟨{ State.reset with sec := { keys := [(63, { state := 3 })], regions := [⟨0, 0x200000, 63, 0⟩] } }, 63, by decide +kernel, by decide +kernel, by decide +kernel, ⟨0, 0x200000, 63, 0⟩, by decide +kernel⟩,
    ⟨onKeys [(1, { state := 3 })], 1, by decide +kernel⟩,
    ⟨onKeys [(0, { state := 1 })], by decide +kernel⟩⟩

theorem test_meets_LifecycleAndDebugTakeTwoRequests :
  (∃ (r : Request) (rep : StartReport) (s : State), Served s 0x0503 r ∧ transition s.sec.lifecycle.toNat (fieldAt r.payload 0 1) = false) ∧
  (∃ (r : Request) (rep : StartReport) (s : State), Served s 0x0503 r ∧ transition s.sec.lifecycle.toNat (fieldAt r.payload 0 1) = true ∧ r.payload.length ≤ 4) ∧
  (∃ (r : Request) (rep : StartReport) (s : State), Served s 0x0503 r ∧ transition s.sec.lifecycle.toNat (fieldAt r.payload 0 1) = true ∧ 4 < r.payload.length ∧ ((∀ c ∈ s.sec.challenges, c.src ≠ r.src))) ∧
  (∃ (r : Request) (rep : StartReport) (x : _) (s : State), Served s 0x0503 r ∧ s.sec.lifecycle = 2 ∧ fieldAt r.payload 0 1 = 2 ∧ authBlock (r.payload.drop 4) = some x ∧ s.sec.challenges = [⟨r.src, x.challenge, 2, false⟩]) ∧
  (∃ (r : Request) (rep : StartReport) (x : _) (s : State), Served s 0x0503 r ∧ s.sec.lifecycle.toNat < 2 ∧ s.power.state = .pilot ∧ s.lantern.job = none ∧ fieldAt r.payload 0 1 = 3 ∧ authBlock (r.payload.drop 4) = some x ∧ s.sec.challenges = [⟨r.src, x.challenge, 3, false⟩]) ∧
  (∃ (r : Request) (os : Option OsStage) (s : State), Served s 0x0504 r ∧ fieldAt r.payload 0 1 = 3 ∧ s.sec.lifecycle = 0 ∧ s.sec.level ≠ 3) ∧
  (∃ (r : Request) (os : Option OsStage) (x : _) (s : State), Served s 0x0504 r ∧ fieldAt r.payload 0 1 = 2 ∧ s.sec.lifecycle.toNat < 2 ∧ s.sec.level.toNat < 2 ∧ authBlock (r.payload.drop 4) = some x ∧ s.sec.challenges = [⟨r.src, x.challenge, 2, true⟩]) ∧
  (∃ (r : Request) (os : Option OsStage) (s : State), Served s 0x0504 r ∧ fieldAt r.payload 0 1 = 3 ∧ s.sec.lifecycle ≠ 0) ∧
  (∃ (r : Request) (os : Option OsStage) (s : State), Served s 0x0504 r ∧ fieldAt r.payload 0 1 = 0) ∧
  (∃ (s : State), s.sec.session = true) :=
  ⟨⟨ask .i3c [0], report0, asked 0x0503 (ask .i3c [0]) (inState .active), by (repeat' apply And.intro) <;> decide +kernel⟩,
    ⟨ask .i3c [1], report0, asked 0x0503 (ask .i3c [1]) (inState .active), by (repeat' apply And.intro) <;> decide +kernel⟩,
    ⟨ask .i3c [1, 0, 0, 0, 9], report0, asked 0x0503 (ask .i3c [1, 0, 0, 0, 9]) (inState .active), by (repeat' apply And.intro) <;> decide +kernel⟩,
    ⟨ask .i3c ([2, 0, 0, 0] ++ zeros 148), report0, ⟨zeros 48, [], [], zeros 52, zeros 96⟩, asked 0x0503 (ask .i3c ([2, 0, 0, 0] ++ zeros 148)) ({ inState .active with sec := { lifecycle := 2, challenges := [⟨.i3c, zeros 48, 2, false⟩] } }), by (repeat' apply And.intro) <;> decide +kernel⟩,
    ⟨ask .i3c ([3, 0, 0, 0] ++ zeros 148), report0, ⟨zeros 48, [], [], zeros 52, zeros 96⟩, asked 0x0503 (ask .i3c ([3, 0, 0, 0] ++ zeros 148)) ({ inState .pilot with sec := { lifecycle := 1, challenges := [⟨.i3c, zeros 48, 3, false⟩] } }), by (repeat' apply And.intro) <;> decide +kernel⟩,
    ⟨ask .eh [3], none, asked 0x0504 (ask .eh [3]) (inState .active), by (repeat' apply And.intro) <;> decide +kernel⟩,
    ⟨ask .eh ([2, 0, 0, 0] ++ zeros 148), none, ⟨zeros 48, [], [], zeros 52, zeros 96⟩, asked 0x0504 (ask .eh ([2, 0, 0, 0] ++ zeros 148)) ({ inState .active with sec := { level := 1, challenges := [⟨.eh, zeros 48, 2, true⟩] } }), by (repeat' apply And.intro) <;> decide +kernel⟩,
    ⟨ask .eh [3], none, asked 0x0504 (ask .eh [3]) ({ inState .active with sec := { lifecycle := 1 } }), by (repeat' apply And.intro) <;> decide +kernel⟩,
    ⟨ask .eh [0], none, asked 0x0504 (ask .eh [0]) (inState .active), by (repeat' apply And.intro) <;> decide +kernel⟩,
    ⟨{ State.reset with sec := { session := true } }, by decide +kernel⟩⟩

theorem test_meets_KeepRequestsMoveTheRegions :
  (∃ (r : Request) (s : State), Served s 0x0302 r ∧ fieldAt r.payload 0 1 = 0 ∧ (requestRegions r).length + s.sealedRecord.length ≤ 16 ∧ ((∀ g ∈ requestRegions r, s.regionOk g = true ∧ (s.keySlot g.key).state = 3)) ∧ regionsApart (requestRegions r ++ s.sealedRecord) = true) ∧
  (∃ (r : Request) (s : State) (g : _), Served s 0x0302 r ∧ fieldAt r.payload 0 1 = 0 ∧ g ∈ requestRegions r ∧ s.regionOk g = false) ∧
  (∃ (s : State) (g : _), s.regionOk g = true) ∧
  (∃ (r : Request) (s : State), Served s 0x0302 r ∧ fieldAt r.payload 0 1 = 3 ∧ ((∀ g ∈ requestRegions r, ∃ h ∈ s.sec.regions, h.base = g.base ∧ h.size = g.size ∧ h.key = g.key))) ∧
  (∃ (r : Request) (s : State), Served s 0x0302 r ∧ fieldAt r.payload 0 1 = 2 ∧ s.sec.releasedBoot = true) ∧
  (∃ (r : Request) (s : State), Served s 0x0302 r ∧ fieldAt r.payload 0 1 = 2 ∧ s.sec.releasedBoot = false ∧ ((∀ x ∈ s.sec.sealedKeys, s.releaseOk x = true))) ∧
  (∃ (r : Request) (s : State) (x : _), Served s 0x0302 r ∧ fieldAt r.payload 0 1 = 2 ∧ s.sec.releasedBoot = false ∧ x ∈ s.sec.sealedKeys ∧ s.releaseOk x = false) ∧
  (∃ (s : State) (x : Sealed), (s.sec.lifecycle ≠ 2 ∨ x.ownerRoot ≠ s.sec.ownerRoot ∨ s.sec.debugActive = true)) :=
  ⟨⟨ask .os ([0, 1] ++ zeros 14 ++ leBytes 8 0x200000 ++ [5]), asked 0x0302 (ask .os ([0, 1] ++ zeros 14 ++ leBytes 8 0x200000 ++ [5])) (onKeys [(5, { state := 3 })]), by (repeat' apply And.intro) <;> decide +kernel⟩,
    ⟨ask .os ([0, 1] ++ zeros 14 ++ leBytes 8 0x1FFFFF ++ [5]), asked 0x0302 (ask .os ([0, 1] ++ zeros 14 ++ leBytes 8 0x1FFFFF ++ [5])) (onKeys [(5, { state := 3 })]), ⟨0, 0x1FFFFF, 5, 0⟩, by (repeat' apply And.intro) <;> decide +kernel⟩,
    ⟨State.reset, ⟨0, 0x200000, 1, 0⟩, by decide +kernel⟩,
    ⟨ask .os ([3, 1] ++ zeros 14 ++ leBytes 8 0x200000 ++ [5]), asked 0x0302 (ask .os ([3, 1] ++ zeros 14 ++ leBytes 8 0x200000 ++ [5])) ({ inState .active with sec := { regions := [⟨0, 0x200000, 5, 0⟩] } }), by (repeat' apply And.intro) <;> decide +kernel⟩,
    ⟨ask .os [2], asked 0x0302 (ask .os [2]) ({ inState .active with sec := { releasedBoot := true } }), by (repeat' apply And.intro) <;> decide +kernel⟩,
    ⟨ask .os [2], asked 0x0302 (ask .os [2]) ({ inState .active with sec := { lifecycle := 2, sealedKeys := [⟨1, [], [], 0, List.replicate 48 0⟩] } }), by (repeat' apply And.intro) <;> decide +kernel⟩,
    ⟨ask .os [2], asked 0x0302 (ask .os [2]) ({ inState .active with sec := { lifecycle := 1, sealedKeys := [⟨1, [], [], 0, []⟩] } }), ⟨1, [], [], 0, []⟩, by (repeat' apply And.intro) <;> decide +kernel⟩,
    ⟨State.reset, ⟨1, [], [], 0, []⟩, by decide +kernel⟩⟩

theorem test_meets_RepairRequestsActOnOneController :
  (∃ (r : Request) (s : State) (x : _), Served s 0x0303 r ∧ fieldAt r.payload 0 1 = 2 ∧ fieldAt r.payload 1 1 < 12 ∧ requestRow r (fieldAt r.payload 1 1) = some x) ∧
  (∃ (r : Request) (s : State), Served s 0x0303 r ∧ fieldAt r.payload 0 1 = 3 ∧ fieldAt r.payload 1 1 < 12 ∧ fieldAt r.payload 2 1 < 32) ∧
  (∃ (r : Request) (s : State), Served s 0x0303 r ∧ fieldAt r.payload 0 1 = 4 ∧ fieldAt r.payload 1 1 < 12 ∧ fieldAt r.payload 2 1 < 32) ∧
  (∃ (r : Request) (s : State), Served s 0x0303 r ∧ fieldAt r.payload 0 1 = 5 ∧ fieldAt r.payload 1 1 < 12 ∧ fieldAt r.payload 2 1 < 32) ∧
  (∃ (r : Request) (s : State), Served s 0x0303 r ∧ fieldAt r.payload 0 1 = 6 ∧ fieldAt r.payload 1 1 < 12 ∧ fieldAt r.payload 12 1 ≤ 1) ∧
  (∃ (r : Request) (s : State) (x : _), Served s 0x0303 r ∧ fieldAt r.payload 0 1 = 1 ∧ fieldAt r.payload 1 1 < 12 ∧ requestRow r (fieldAt r.payload 1 1) = some x ∧ Map.get 0 (s.ctrl (fieldAt r.payload 1 1)).spareUsed (bankIndex x) = spareRows (fieldAt r.payload 1 1)) ∧
  (∃ (r : Request) (s : State) (x : _), Served s 0x0303 r ∧ fieldAt r.payload 0 1 = 1 ∧ fieldAt r.payload 1 1 < 12 ∧ requestRow r (fieldAt r.payload 1 1) = some x ∧ x ∉ (s.ctrl (fieldAt r.payload 1 1)).repairing ∧ Map.get 0 (s.ctrl (fieldAt r.payload 1 1)).spareUsed (bankIndex x) < 2) ∧
  (∃ (r : Request) (s : State), Served s 0x0304 r ∧ fieldAt r.payload 0 1 = 1 ∧ fieldAt r.payload 1 1 < 12 ∧ 1 ≤ fieldAt r.payload 2 1 ∧ fieldAt r.payload 2 1 ≤ 168) ∧
  (∃ (r : Request) (s : State), Served s 0x0304 r ∧ fieldAt r.payload 0 1 = 2 ∧ fieldAt r.payload 1 1 < 12 ∧ ctrlBase (fieldAt r.payload 1 1) ≤ fieldAt r.payload 8 8 ∧ fieldAt r.payload 8 8 + fieldAt r.payload 16 8 ≤ ctrlBase (fieldAt r.payload 1 1) + s.served (fieldAt r.payload 1 1)) ∧
  (∃ (r : _) (s : State) (n : _) (e : _), Served s 0x0304 r ∧ fieldAt r.payload 0 1 = 2 ∧ fieldAt r.payload 1 1 < 12 ∧ ctrlBase (fieldAt r.payload 1 1) ≤ fieldAt r.payload 8 8 ∧ fieldAt r.payload 8 8 + fieldAt r.payload 16 8 ≤ ctrlBase (fieldAt r.payload 1 1) + s.served (fieldAt r.payload 1 1) ∧ fieldAt r.payload 8 8 ≤ 128 * n ∧ 128 * n < fieldAt r.payload 8 8 + fieldAt r.payload 16 8 ∧ lineBad e = true ∧ s.isFenced (fieldAt r.payload 1 1) n = false ∧ (s.die (fieldAt r.payload 1 1 / 3)).dc.find n = none ∧ (s.ctrl (fieldAt r.payload 1 1)).fence = [] ∧ (s.ctrl (fieldAt r.payload 1 1)).badTimes = []) :=
  ⟨⟨ask .os [2, 11, 0, 1, 15, 0, 0, 0, 255, 255], asked 0x0303 (ask .os [2, 11, 0, 1, 15, 0, 0, 0, 255, 255]) (inState .active), ⟨0, 1, 15, 65535⟩, by (repeat' apply And.intro) <;> decide +kernel⟩,
    ⟨ask .os [3, 11, 31], asked 0x0303 (ask .os [3, 11, 31]) (inState .active), by (repeat' apply And.intro) <;> decide +kernel⟩,
    ⟨ask .os [4, 0, 31], asked 0x0303 (ask .os [4, 0, 31]) (inState .active), by (repeat' apply And.intro) <;> decide +kernel⟩,
    ⟨ask .os [5, 11, 0], asked 0x0303 (ask .os [5, 11, 0]) (inState .active), by (repeat' apply And.intro) <;> decide +kernel⟩,
    ⟨ask .os [6, 3, 0, 0, 0, 0, 0, 0, 0, 0, 0, 0, 1], asked 0x0303 (ask .os [6, 3, 0, 0, 0, 0, 0, 0, 0, 0, 0, 0, 1]) (inState .active), by (repeat' apply And.intro) <;> decide +kernel⟩,
    ⟨ask .os [1], asked 0x0303 (ask .os [1]) ({ inState .active with pool := { ctrls := [(0, { spareUsed := [(0, 2)] })] } }), ⟨0, 0, 0, 0⟩, by (repeat' apply And.intro) <;> decide +kernel⟩,
    ⟨ask .os [1], asked 0x0303 (ask .os [1]) ({ inState .active with pool := { ctrls := [(0, { spareUsed := [(0, 1)] })] } }), ⟨0, 0, 0, 0⟩, by (repeat' apply And.intro) <;> decide +kernel⟩,
    ⟨ask .os [1, 11, 168], asked 0x0304 (ask .os [1, 11, 168]) (inState .active), by (repeat' apply And.intro) <;> decide +kernel⟩,
    ⟨ask .os ([2] ++ zeros 15 ++ [128]), asked 0x0304 (ask .os ([2] ++ zeros 15 ++ [128])) (inState .active), by (repeat' apply And.intro) <;> decide +kernel⟩,
    ⟨ask .os ([2] ++ zeros 15 ++ [128]), asked 0x0304 (ask .os ([2] ++ zeros 15 ++ [128])) (inState .active), 0, [[1, 2]], by (repeat' apply And.intro) <;> decide +kernel⟩⟩

theorem test_meets_FirmwareIsStagedAndActivated :
  (∃ (r : Request) (s : State), Served s 0x0601 r ∧ s.svc.fwState ≠ 4 ∧ fieldAt r.payload 0 8 = 0 ∧ r.payload.length ≤ 4096 ∧ bit (fieldAt r.payload 8 1) 0 = false) ∧
  (∃ (r : Request) (s : State), Served s 0x0601 r ∧ s.svc.fwState = 4) ∧
  (∃ (r : Request) (b : Bool) (s : State), Served s 0x0602 r ∧ (s.jobBlocks = true ∨ s.queueEnabled = true)) ∧
  (∃ (r : Request) (b : Bool) (s : State), Served s 0x0602 r ∧ s.jobBlocks = false ∧ s.queueEnabled = false ∧ s.svc.fwState = 2 ∧ s.svc.staged = true ∧ bytesAt r.payload 0 48 = fwDigest s.svc.staging) ∧
  (∃ (r : _) (s : State), s.svc.activating = some r ∧ ((∀ b < 3, (s.box b).held = []))) ∧
  (∃ (s : State), s.svc.fwState = 4) ∧
  (∃ (r : Request) (tiles : Map TileTest) (lanes : Map LaneResult) (lines : Map (List (List Byte))) (s : State), Served s 0x0603 r ∧ (s.jobBlocks = true ∨ s.queueEnabled = true)) ∧
  (∃ (r : Request) (tiles : Map TileTest) (lanes : Map LaneResult) (s : State), Served s 0x0603 r ∧ s.jobBlocks = false ∧ s.queueEnabled = false ∧ fieldAt r.payload 0 4 = 8) ∧
  (∃ (s : State), s.power.state ≠ .off) :=
  ⟨⟨ask .os [0, 0, 0, 0, 0, 0, 0, 0, 0, 0, 0, 0, 0, 0, 0, 0, 9], asked 0x0601 (ask .os [0, 0, 0, 0, 0, 0, 0, 0, 0, 0, 0, 0, 0, 0, 0, 0, 9]) (inState .active), by (repeat' apply And.intro) <;> decide +kernel⟩,
    ⟨ask .os [], asked 0x0601 (ask .os []) ({ inState .active with svc := { fwState := 4 } }), by (repeat' apply And.intro) <;> decide +kernel⟩,
    ⟨ask .os [], true, asked 0x0602 (ask .os []) (withJob { job0 with state := 3 } (inState .active)), by (repeat' apply And.intro) <;> decide +kernel⟩,
    ⟨ask .os (fwDigest []), true, asked 0x0602 (ask .os (fwDigest [])) ({ inState .active with svc := { fwState := 2, staged := true } }), by (repeat' apply And.intro) <;> decide +kernel⟩,
    ⟨ask .os [], { inState .active with svc := { activating := some (ask .os []) } }, by decide +kernel⟩,
    ⟨{ inState .active with svc := { fwState := 4 } }, by decide +kernel⟩,
    ⟨ask .os [], [], [], [], asked 0x0603 (ask .os []) (withJob { job0 with state := 3 } (inState .active)), by (repeat' apply And.intro) <;> decide +kernel⟩,
    ⟨ask .os [8], [], [], asked 0x0603 (ask .os [8]) (inState .active), by (repeat' apply And.intro) <;> decide +kernel⟩,
    ⟨inState .active, by decide +kernel⟩⟩

theorem test_meets_SpdmAnswersSevenMessages :
  (∃ (m : List Byte) (s : State), s.power.state ≠ .off ∧ s.svc.running ≠ [] ∧ 4 ≤ m.length ∧ fieldAt m 1 1 = 0x84) ∧
  (∃ (m : List Byte) (s : State), s.power.state ≠ .off ∧ s.svc.running ≠ [] ∧ 4 ≤ m.length ∧ fieldAt m 1 1 = 0xE1 ∧ fieldAt m 0 1 ∈ [0x12, 0x13]) ∧
  (∃ (m : List Byte) (s : State), s.power.state ≠ .off ∧ s.svc.running ≠ [] ∧ 4 ≤ m.length ∧ fieldAt m 1 1 = 0xE3 ∧ s.pins.spdmVersion ≠ 0 ∧ fieldAt m 0 1 = s.pins.spdmVersion ∧ bit (fieldAt m 8 4) 7 = true ∧ bit (fieldAt m 12 4) 1 = true) ∧
  (∃ (m : List Byte) (s : State), s.power.state ≠ .off ∧ s.svc.running ≠ [] ∧ 4 ≤ m.length ∧ fieldAt m 1 1 = 0xE3 ∧ s.pins.spdmVersion ≠ 0 ∧ fieldAt m 0 1 = s.pins.spdmVersion ∧ bit (fieldAt m 12 4) 1 = false) ∧
  (∃ (m : List Byte) (s : State), s.power.state ≠ .off ∧ s.svc.running ≠ [] ∧ 4 ≤ m.length ∧ fieldAt m 1 1 = 0x81 ∧ s.pins.spdmNegotiated = true ∧ fieldAt m 0 1 = s.pins.spdmVersion) ∧
  (∃ (m : List Byte) (s : State), s.power.state ≠ .off ∧ s.svc.running ≠ [] ∧ 4 ≤ m.length ∧ fieldAt m 1 1 = 0x82 ∧ s.pins.spdmNegotiated = true ∧ fieldAt m 0 1 = s.pins.spdmVersion ∧ fieldAt m 2 1 % 16 = 0 ∧ fieldAt m 4 2 < s.spdmChain.length) ∧
  (∃ (m : List Byte) (s : State), s.power.state ≠ .off ∧ s.svc.running ≠ [] ∧ 4 ≤ m.length ∧ fieldAt m 1 1 = 0x83 ∧ s.pins.spdmNegotiated = true ∧ fieldAt m 0 1 = s.pins.spdmVersion ∧ fieldAt m 2 1 = 0) ∧
  (∃ (m : List Byte) (s : State), s.power.state ≠ .off ∧ s.svc.running ≠ [] ∧ 4 ≤ m.length ∧ fieldAt m 1 1 = 0xE0 ∧ s.pins.spdmNegotiated = true ∧ fieldAt m 0 1 = s.pins.spdmVersion ∧ bit (fieldAt m 2 1) 0 = false ∧ fieldAt m 3 1 = 0) ∧
  (∃ (m : List Byte) (s : State), s.power.state ≠ .off ∧ s.svc.running ≠ [] ∧ 4 ≤ m.length ∧ fieldAt m 1 1 = 0xE0 ∧ s.pins.spdmNegotiated = true ∧ fieldAt m 0 1 = s.pins.spdmVersion ∧ bit (fieldAt m 2 1) 0 = false ∧ fieldAt m 3 1 = 6 ∧ s.sec.ownerRoot.length = 48) :=
  ⟨⟨[0x10, 0x84, 0, 0], { inState .active with svc := { running := [1] } }, by decide +kernel⟩,
    ⟨[0x13, 0xE1, 0, 0], { inState .active with svc := { running := [1] } }, by decide +kernel⟩,
    ⟨[0x12, 0xE3, 0, 0, 0, 0, 0, 0, 0x80, 0, 0, 0, 2], { inState .active with svc := { running := [1] }, pins := { spdmVersion := 0x12 } }, by decide +kernel⟩,
    ⟨[0x12, 0xE3, 0, 0], { inState .active with svc := { running := [1] }, pins := { spdmVersion := 0x12 } }, by decide +kernel⟩,
    ⟨[0x12, 0x81, 0, 0], { inState .active with svc := { running := [1] }, pins := { spdmVersion := 0x12, spdmNegotiated := true } }, by decide +kernel⟩,
    ⟨[0x12, 0x82, 0, 0], { inState .active with svc := { running := [1] }, pins := { spdmVersion := 0x12, spdmNegotiated := true } }, by decide +kernel, by decide +kernel, by decide +kernel, by decide +kernel, rfl, by decide +kernel, by decide +kernel, by simp [State.spdmChain, leBytes, fieldAt, bytesAt, leNat]⟩,
    ⟨[0x12, 0x83, 0, 0], { inState .active with svc := { running := [1] }, pins := { spdmVersion := 0x12, spdmNegotiated := true } }, by decide +kernel⟩,
    ⟨[0x12, 0xE0, 0, 0], { inState .active with svc := { running := [1] }, pins := { spdmVersion := 0x12, spdmNegotiated := true } }, by decide +kernel⟩,
    ⟨[0x12, 0xE0, 0, 6], { inState .active with svc := { running := [1] }, pins := { spdmVersion := 0x12, spdmNegotiated := true } }, by decide +kernel⟩⟩

theorem test_meets_SidePortsFollowTheirStandards :
  (∃ (st : BitVec 7) (a : BitVec 7) (s : State), s.power.state ≠ .off ∧ s.pins.i3cAddr = none ∧ st = s.i3cStatic) ∧
  (∃ (st : BitVec 7) (a : BitVec 7) (s : State), (s.power.state = .off ∨ s.pins.i3cAddr.isSome = true ∨ st ≠ s.i3cStatic)) ∧
  (∃ (a : BitVec 7) (s : State), s.power.state ≠ .off ∧ s.pins.i3cAddr = none) ∧
  (∃ (ir : BitVec 40) (b : List Bool) (s : State), s.power.state ≠ .off) ∧
  (∃ (b : List Bool) (s : State), s.power.state ≠ .off) ∧
  (∃ (bits : List Bool) (s : State), s.power.state ≠ .off ∧ s.pins.jtagIr = [] ∧ bits.length = 160) ∧
  (∃ (bits : List Bool) (s : State), s.power.state ≠ .off ∧ ((∀ k < 5, Map.get 0 s.pins.jtagIr k = 256)) ∧ 5 ≤ bits.length) :=
  ⟨⟨0x30, 8, inState .active, by decide +kernel⟩,
    ⟨0x31, 8, inState .active, by decide +kernel⟩,
    ⟨8, inState .active, by decide +kernel⟩,
    ⟨0, [], inState .active, by decide +kernel⟩,
    ⟨[], inState .active, by decide +kernel⟩,
    ⟨List.replicate 160 true, inState .active, by decide +kernel⟩,
    ⟨[true, false, true, true, true], { inState .active with pins := { jtagIr := [(0, 256), (1, 256), (2, 256), (3, 256), (4, 256)] } }, by decide +kernel⟩⟩

theorem test_meets_JobsAreCreatedAndLoaded :
  (∃ (r : Request) (s : State), Served s 0x0201 r ∧ s.lantern.job = none ∧ s.sec.lifecycle ≠ 3 ∧ 1 ≤ fieldAt r.payload 24 1 ∧ fieldAt r.payload 24 1 ≤ 8 ∧ (s.freeKeys (fieldAt r.payload 24 1)).length = fieldAt r.payload 24 1) ∧
  (∃ (r : Request) (s : State), Served s 0x0201 r ∧ s.lantern.job.isSome = true) ∧
  (∃ (r : Request) (s : State), Served s 0x0201 r ∧ s.lantern.job = none ∧ s.sec.lifecycle = 3) ∧
  (∃ (r : Request) (s : State), Served s 0x0201 r ∧ s.lantern.job = none ∧ s.sec.lifecycle ≠ 3 ∧ 1 ≤ fieldAt r.payload 24 1 ∧ fieldAt r.payload 24 1 ≤ 8 ∧ (s.freeKeys 64).length < fieldAt r.payload 24 1) ∧
  (∃ (r : Request) (s : State), Served s 0x0202 r ∧ s.lantern.job = none) ∧
  (∃ (r : Request) (s : State) (j : Job), Served s 0x0202 r ∧ s.lantern.job = some j ∧ j.handle = r.handle.toNat ∧ j.owner ≠ boxOf r.src) ∧
  (∃ (r : Request) (s : State) (j : Job), Served s 0x0202 r ∧ s.lantern.job = some j ∧ j.handle = r.handle.toNat ∧ j.owner = boxOf r.src ∧ 1 < j.state.toNat) ∧
  (∃ (r : Request) (s : State) (s1 : _) (s2 : _) (j : Job) (img : _), Served s 0x0202 r ∧ s.lantern.job = some j ∧ j.handle = r.handle.toNat ∧ j.owner = boxOf r.src ∧ j.state.toNat ≤ 1 ∧ fieldAt r.payload 16 1 < 64 ∧ s.holds .core (fieldAt r.payload 16 1) = true ∧ (s.taken 0x0202 r).wake.readMem (lanternAcc (fieldAt r.payload 16 1)) (fieldAt r.payload 0 8) (fieldAt r.payload 8 8) = (.ok img, s1) ∧ s1.writeMem (lanternAcc (j.keys.headD 0)) (fieldAt r.payload 24 8) img = (none, s2)) :=
  ⟨⟨ask .os (zeros 24 ++ [8]), asked 0x0201 (ask .os (zeros 24 ++ [8])) (inState .active), by (repeat' apply And.intro) <;> decide +kernel⟩,
    ⟨ask .os [], asked 0x0201 (ask .os []) (withJob job0 (inState .active)), by (repeat' apply And.intro) <;> decide +kernel⟩,
    ⟨ask .os [], asked 0x0201 (ask .os []) ({ inState .active with sec := { lifecycle := 3 } }), by (repeat' apply And.intro) <;> decide +kernel⟩,
    ⟨ask .os (zeros 24 ++ [1]), asked 0x0201 (ask .os (zeros 24 ++ [1])) (onKeys ((List.range 64).map (fun k => (k, { state := 1 })))), by (repeat' apply And.intro) <;> decide +kernel⟩,
    ⟨ask .os [], asked 0x0202 (ask .os []) (inState .active), by (repeat' apply And.intro) <;> decide +kernel⟩,
    ⟨ask .eh [], asked 0x0202 (ask .eh []) (withJob job0 (inState .active)), job0, by (repeat' apply And.intro) <;> decide +kernel⟩,
    ⟨ask .os [], asked 0x0202 (ask .os []) (withJob { job0 with state := 2 } (inState .active)), { job0 with state := 2 }, by (repeat' apply And.intro) <;> decide +kernel⟩,
    ⟨ask .os (zeros 8 ++ [1] ++ zeros 16 ++ [1]), asked 0x0202 (ask .os (zeros 8 ++ [1] ++ zeros 16 ++ [1])) (withJob job0 (onKeys [(0, { state := 1 }), (1, { state := 2 })])), _, _, job0, _, served_of (by decide +kernel) rfl (by decide +kernel), rfl, by decide +kernel, by decide +kernel, by decide +kernel, by decide +kernel, by decide +kernel, rfl, rfl⟩⟩

theorem test_meets_JobsAreArmedRunAndSuspended :
  (∃ (r : Request) (s : State) (j : Job), Served s 0x0203 r ∧ s.lantern.job = some j ∧ j.handle = r.handle.toNat ∧ j.owner = boxOf r.src ∧ j.state = 1 ∧ fieldAt r.payload 0 1 = j.code ∧ fieldAt r.payload 4 4 = 0 ∧ s.power.state = .active) ∧
  (∃ (r : Request) (s : State) (j : Job), Served s 0x0203 r ∧ s.lantern.job = some j ∧ j.handle = r.handle.toNat ∧ j.owner = boxOf r.src ∧ j.state = 1 ∧ fieldAt r.payload 0 1 ≠ j.code) ∧
  (∃ (r : Request) (s : State) (j : Job), Served s 0x0203 r ∧ s.lantern.job = some j ∧ j.handle = r.handle.toNat ∧ j.owner = boxOf r.src ∧ j.state ≠ 1 ∧ j.state ≠ 2) ∧
  (∃ (s : State) (j : Job) (m : _), s.lantern.job = some j ∧ s.fabric.beacon.arm = some m ∧ s.fabric.beacon.light = true ∧ s.fabric.beacon.change = false ∧ j.state = 2) ∧
  (∃ (s : State) (m : _), s.fabric.beacon.arm = some m ∧ s.fabric.beacon.light = false) ∧
  (∃ (r : Request) (s : State) (j : Job), Served s 0x0204 r ∧ s.lantern.job = some j ∧ j.handle = r.handle.toNat ∧ j.owner = boxOf r.src ∧ j.state = 3) ∧
  (∃ (r : Request) (s : State) (j : Job), Served s 0x0204 r ∧ s.lantern.job = some j ∧ j.handle = r.handle.toNat ∧ j.owner = boxOf r.src ∧ j.state ≠ 3) ∧
  (∃ (r : Request) (s : State) (j : Job), s.lantern.job = some j ∧ j.suspending = some r ∧ j.state = 3 ∧ ((∀ d < 4, s.still d = true))) ∧
  (∃ (r : Request) (s : State) (j : Job), s.lantern.job = some j ∧ j.suspending = some r ∧ j.state = 3 ∧ ((∃ d < 4, s.still d = false))) ∧
  (∃ (r : Request) (s : State) (j : Job), Served s 0x0205 r ∧ s.lantern.job = some j ∧ j.handle = r.handle.toNat ∧ j.owner = boxOf r.src ∧ j.state = 4 ∧ s.meetsImage j = true ∧ fieldAt r.payload 4 4 = 0 ∧ s.power.state = .active) ∧
  (∃ (r : Request) (s : State) (j : Job), Served s 0x0205 r ∧ s.lantern.job = some j ∧ j.handle = r.handle.toNat ∧ j.owner = boxOf r.src ∧ (j.state ≠ 4 ∨ s.meetsImage j = false)) :=
  ⟨⟨ask .os [], asked 0x0203 (ask .os []) (withJob { job0 with state := 1 } (inState .active)), { job0 with state := 1 }, by (repeat' apply And.intro) <;> decide +kernel⟩,
    ⟨ask .os [5], asked 0x0203 (ask .os [5]) (withJob { job0 with state := 1 } (inState .active)), { job0 with state := 1 }, by (repeat' apply And.intro) <;> decide +kernel⟩,
    ⟨ask .os [], asked 0x0203 (ask .os []) (withJob { job0 with state := 3 } (inState .active)), { job0 with state := 3 }, by (repeat' apply And.intro) <;> decide +kernel⟩,
    ⟨withJob { job0 with state := 2 } { inState .active with fabric := { beacon := { arm := some ⟨0, 5, 1, 9, 0, 0, 0, 0⟩, light := true } } }, { job0 with state := 2 }, ⟨0, 5, 1, 9, 0, 0, 0, 0⟩, by decide +kernel⟩,
    ⟨{ inState .active with fabric := { beacon := { arm := some ⟨0, 5, 1, 9, 0, 0, 0, 0⟩ } } }, ⟨0, 5, 1, 9, 0, 0, 0, 0⟩, by decide +kernel⟩,
    ⟨ask .os [], asked 0x0204 (ask .os []) (withJob { job0 with state := 3 } (inState .active)), { job0 with state := 3 }, by (repeat' apply And.intro) <;> decide +kernel⟩,
    ⟨ask .os [], asked 0x0204 (ask .os []) (withJob { job0 with state := 2 } (inState .active)), { job0 with state := 2 }, by (repeat' apply And.intro) <;> decide +kernel⟩,
    ⟨ask .os [], withJob { job0 with state := 3, suspending := some (ask .os []) } (inState .active), { job0 with state := 3, suspending := some (ask .os []) }, by decide +kernel⟩,
    ⟨ask .os [], withJob { job0 with state := 3, suspending := some (ask .os []) } (onDie { stream := [0], running := true }), { job0 with state := 3, suspending := some (ask .os []) }, by decide +kernel⟩,
    ⟨ask .os [], asked 0x0205 (ask .os []) (withJob { job0 with state := 4 } (inState .active)), { job0 with state := 4 }, by (repeat' apply And.intro) <;> decide +kernel⟩,
    ⟨ask .os [], asked 0x0205 (ask .os []) (withJob { job0 with state := 3 } (inState .active)), { job0 with state := 3 }, by (repeat' apply And.intro) <;> decide +kernel⟩⟩

theorem test_meets_AbortAndHaltStopWork :
  (∃ (r : Request) (s : State) (j : Job), Served s 0x0206 r ∧ fieldAt r.payload 0 1 = 0 ∧ s.lantern.job = some j ∧ j.handle = r.handle.toNat ∧ (j.owner = boxOf r.src ∨ boxOf r.src = 2) ∧ 1 ≤ j.state.toNat ∧ j.state.toNat ≤ 4) ∧
  (∃ (r : Request) (s : State) (j : Job), Served s 0x0206 r ∧ fieldAt r.payload 0 1 = 0 ∧ s.lantern.job = some j ∧ j.handle = r.handle.toNat ∧ j.owner ≠ boxOf r.src ∧ boxOf r.src ≠ 2) ∧
  (∃ (r : Request) (s : State) (j : Job), Served s 0x0206 r ∧ fieldAt r.payload 0 1 = 0 ∧ s.lantern.job = some j ∧ j.handle = r.handle.toNat ∧ (j.owner = boxOf r.src ∨ boxOf r.src = 2) ∧ (j.state = 0 ∨ 4 < j.state.toNat)) ∧
  (∃ (r : Request) (s : State) (j : Job), Served s 0x0206 r ∧ fieldAt r.payload 0 1 = 1 ∧ s.lantern.job = some j ∧ j.handle = r.handle.toNat ∧ (j.owner = boxOf r.src ∨ boxOf r.src = 2) ∧ j.settling = false ∧ ((∀ e ∈ s.dies, e.2.orphans = [] ∧ e.2.remote = []))) ∧
  (∃ (r : Request) (s : State), Served s 0x0206 r ∧ fieldAt r.payload 0 1 = 1 ∧ s.lantern.job = none) ∧
  (∃ (r : Request) (s : State), Served s 0x0103 r ∧ s.lantern.haltBusy = false) ∧
  (∃ (r : Request) (s : State), Served s 0x0103 r ∧ s.lantern.haltBusy = true) ∧
  (∃ (r : _) (s : State), s.lantern.haltBusy = true ∧ s.lantern.halting = [r]) ∧
  (∃ (s : State), s.lantern.haltBusy = false) :=
  ⟨⟨ask .os [], asked 0x0206 (ask .os []) (withJob { job0 with state := 4 } (inState .active)), { job0 with state := 4 }, by (repeat' apply And.intro) <;> decide +kernel⟩,
    ⟨ask .eh [], asked 0x0206 (ask .eh []) (withJob { job0 with state := 4 } (inState .active)), { job0 with state := 4 }, by (repeat' apply And.intro) <;> decide +kernel⟩,
    ⟨ask .i3c [], asked 0x0206 (ask .i3c []) (withJob { job0 with state := 5 } (inState .active)), { job0 with state := 5 }, by (repeat' apply And.intro) <;> decide +kernel⟩,
    ⟨ask .os [1], asked 0x0206 (ask .os [1]) (withJob { job0 with state := 5 } (inState .active)), { job0 with state := 5 }, by (repeat' apply And.intro) <;> decide +kernel⟩,
    ⟨ask .os [1], asked 0x0206 (ask .os [1]) (inState .active), by (repeat' apply And.intro) <;> decide +kernel⟩,
    ⟨ask .os [], asked 0x0103 (ask .os []) (inState .active), by (repeat' apply And.intro) <;> decide +kernel⟩,
    ⟨ask .os [], asked 0x0103 (ask .os []) ({ inState .active with lantern := { haltBusy := true } }), by (repeat' apply And.intro) <;> decide +kernel⟩,
    ⟨ask .os [], { inState .active with lantern := { haltBusy := true, halting := [ask .os []] } }, by decide +kernel⟩,
    ⟨inState .active, by decide +kernel⟩⟩

theorem test_meets_DescriptorsFailStretchOrWait :
  (∃ (k : _) (d : _) (pos : _) (raw : _) (c : _) (s : State), descCommand k d (s.streamSrc d pos) raw = some c ∧ dKind raw = k ∧ s.streamReady d pos raw = true ∧ s.jobFailing = false ∧ s.issueStatus d (s.streamSrc d pos) false raw % 2 ^ 16 ≠ 0) ∧
  (∃ (k : _) (d : _) (pos : _) (raw : _) (c : _) (s : State), descCommand k d (s.streamSrc d pos) raw = some c ∧ dKind raw = k ∧ s.streamReady d pos raw = true ∧ s.jobFailing = false ∧ s.issueStatus d (s.streamSrc d pos) false raw = 0 ∧ s.fencedTarget d raw = true) ∧
  (∃ (k : _) (d : _) (pos : _) (raw : _) (c : _) (s : State), descCommand k d (s.streamSrc d pos) raw = some c ∧ dKind raw = k ∧ s.streamReady d pos raw = true ∧ s.jobFailing = false ∧ s.issueStatus d (s.streamSrc d pos) false raw = 0 ∧ s.fencedTarget d raw = false ∧ s.queueFull d raw = true) ∧
  (∃ (k : _) (d : _) (pos : _) (n : _) (raw : _) (c : _) (s : State), descCommand k d (.stream pos n) raw = some c ∧ (dKind raw ≠ k ∨ n ≠ (s.die d).frames ∨ s.streamReady d pos raw = false)) ∧
  (∃ (k : _) (d : _) (q : _) (h : _) (raw : _) (c : _) (s : State), descCommand k d (.queue q h) raw = some c ∧ dKind raw = k ∧ (s.wq d q).head.toNat = h ∧ (s.wqFetch d q).1 = .ok (some raw)) ∧
  (∃ (k : _) (d : _) (q : _) (h : _) (raw : _) (c : _) (s : State), descCommand k d (.queue q h) raw = some c ∧ (dKind raw ≠ k ∨ (s.wq d q).head.toNat ≠ h)) :=
  ⟨⟨5, 0, 0, move0, .move 0 (.stream 0 0) move0, due move0, by decide +kernel⟩,
    ⟨5, 0, 0, move0, .move 0 (.stream 0 0) move0, due move0 { tensors := [(0, some (row0 .ts 0)), (1, some (row0 .oc 0))], units := [(0, { fenced := true })] }, by decide +kernel⟩,
    ⟨5, 0, 0, move0, .move 0 (.stream 0 0) move0, due move0 { tensors := [(0, some (row0 .ts 0)), (1, some (row0 .oc 0))], inflight := List.replicate 4 ⟨.stream 9 0, move0, 0, none, none, none, none, false, false, 0, 0⟩ }, by decide +kernel⟩,
    ⟨0, 0, 0, 0, [], .nop 0 (.stream 0 0) [], State.reset, by decide +kernel⟩,
    ⟨0, 0, 0, 0, bytesOf 64 [(4, [1])], .nop 0 (.queue 0 0) (bytesOf 64 [(4, [1])]), queued [(4, 1)], by (repeat' apply And.intro) <;> first | decide +kernel | rfl | simp⟩,
    ⟨0, 0, 0, 1, bytesOf 64 [(4, [1])], .nop 0 (.queue 0 1) (bytesOf 64 [(4, [1])]), queued [(4, 1)], by decide +kernel⟩⟩

theorem test_meets_SequencerDescriptorsActAndEnd :
  (∃ (d : DieId) (pos : _) (raw : _) (s : State), s.issues 0 d pos raw) ∧
  (∃ (d : DieId) (pos : _) (raw : _) (s : State), s.issues 1 d pos raw) ∧
  (∃ (d : DieId) (pos : _) (raw : _) (s : State), s.issues 2 d pos raw) ∧
  (∃ (d : DieId) (pos : _) (raw : _) (s : State), s.issues 8 d pos raw ∧ ((bit (fb raw 0x0B 1) 0 = true → (∀ o ∈ (s.die d).inflight, o.src.isStream = false) ∧ ∀ o ∈ (s.die d).fenced, o.src.isStream = false)) ∧ slice (fb raw 0x0B 1) 2 1 ≤ 1) ∧
  (∃ (d : DieId) (pos : _) (raw : _) (s : State), s.issues 8 d pos raw ∧ bit (fb raw 0x0B 1) 0 = false ∧ 2 ≤ slice (fb raw 0x0B 1) 2 1 ∧ s.jobFailing = false) ∧
  (∃ (d : DieId) (pos : _) (raw : _) (s : State) (o : _), s.issues 8 d pos raw ∧ bit (fb raw 0x0B 1) 0 = true ∧ o ∈ (s.die d).inflight ∧ o.src.isStream = true) ∧
  (∃ (d : DieId) (pos : _) (raw : _) (s : State), s.issues 9 d pos raw) ∧
  (∃ (d : DieId) (pos : _) (raw : _) (s : State), s.issues 11 d pos raw) ∧
  (∃ (d : DieId) (pos : _) (raw : _) (s : State) (k : _), s.issues 0 d pos raw ∧ dDone raw = k ∧ k < 4096 ∧ (s.die d).fenced = [] ∧ (s.die d).ended = false ∧ (s.die d).stream ≠ [] ∧ s.jobFailing = false ∧ s.pool.msgs = [] ∧ s.pool.agents = []) :=
  ⟨⟨0, 0, desc 0 [], due (desc 0 []), by (repeat' apply And.intro) <;> decide +kernel⟩,
    ⟨0, 0, frame0, due frame0, by (repeat' apply And.intro) <;> decide +kernel⟩,
    ⟨0, 0, tensor0, due tensor0, by (repeat' apply And.intro) <;> decide +kernel⟩,
    ⟨0, 0, desc 8 [(0xB, [1])], due (desc 8 [(0xB, [1])]), by (repeat' apply And.intro) <;> decide +kernel⟩,
    ⟨0, 0, desc 8 [(0xB, [4]), (0x10, [1])], due (desc 8 [(0xB, [4]), (0x10, [1])]), by (repeat' apply And.intro) <;> decide +kernel⟩,
    ⟨0, 0, desc 8 [(0xB, [1])], due (desc 8 [(0xB, [1])]) { inflight := [⟨.stream 64 0, move0, 0, none, none, none, none, false, false, 0, 0⟩] }, ⟨.stream 64 0, move0, 0, none, none, none, none, false, false, 0, 0⟩, by (repeat' apply And.intro) <;> decide +kernel⟩,
    ⟨0, 0, desc 9 [], due (desc 9 []), by (repeat' apply And.intro) <;> decide +kernel⟩,
    ⟨0, 0, desc 11 [], due (desc 11 []), by (repeat' apply And.intro) <;> decide +kernel⟩,
    ⟨0, 0, bytesOf 64 [], due (bytesOf 64 []), 0, by (repeat' apply And.intro) <;> decide +kernel⟩⟩

theorem test_meets_SemaphoresWaitAndCount :
  (∃ (d : DieId) (pos : _) (raw : _) (s : State), s.issues 7 d pos raw ∧ semHolds (decide (fb raw 0x0A 1 = 1)) (fb raw 0x0C 4) (s.sem d (fb raw 8 2)) = true) ∧
  (∃ (d : DieId) (pos : _) (raw : _) (s : State), s.issues 7 d pos raw ∧ semHolds (decide (fb raw 0x0A 1 = 1)) (fb raw 0x0C 4) (s.sem d (fb raw 8 2)) = false ∧ s.jobFailing = false) ∧
  (∃ (d : DieId) (src : DescSrc) (s : State) (b : _) (o : _), (s.die d).blocks.find? (fun b => decide (b.src = src)) = some b ∧ (s.die d).inflight.find? (fun o => decide (o.src = src)) = some o ∧ semHolds b.eqCond b.v (s.sem d b.sem) = true) ∧
  (∃ (d : DieId) (src : DescSrc) (s : State) (b : _), (s.die d).blocks.find? (fun b => decide (b.src = src)) = some b ∧ semHolds b.eqCond b.v (s.sem d b.sem) = false) ∧
  (∃ (d : DieId) (src : DescSrc) (s : State) (b : _), (s.die d).blocks.find? (fun b => decide (b.src = src)) = some b ∧ b.reported = false) ∧
  (∃ (d : DieId) (src : DescSrc) (s : State), ((∀ b ∈ (s.die d).blocks, b.src = src → b.reported = true))) ∧
  (∃ (d : DieId) (k : Fin 4096) (set : Bool) (v : Word) (s : State), s.pool.msgs = [] ∧ s.pool.agents = []) :=
  ⟨⟨0, 0, desc 7 [], due (desc 7 []), by (repeat' apply And.intro) <;> decide +kernel⟩,
    ⟨0, 0, desc 7 [(0xC, [1])], due (desc 7 [(0xC, [1])]), by (repeat' apply And.intro) <;> decide +kernel⟩,
    ⟨0, .stream 0 0, onDie { blocks := [⟨.stream 0 0, 5, true, true, 2, false⟩], sems := [(5, 2)], inflight := [⟨.stream 0 0, [], 0, none, none, none, none, false, false, 0, 0⟩] }, ⟨.stream 0 0, 5, true, true, 2, false⟩, ⟨.stream 0 0, [], 0, none, none, none, none, false, false, 0, 0⟩, by decide +kernel⟩,
    ⟨0, .stream 0 0, onDie { blocks := [⟨.stream 0 0, 5, true, true, 2, false⟩], sems := [(5, 3)] }, ⟨.stream 0 0, 5, true, true, 2, false⟩, by decide +kernel⟩,
    ⟨0, .stream 0 0, onDie { blocks := [⟨.stream 0 0, 5, true, true, 2, false⟩] }, ⟨.stream 0 0, 5, true, true, 2, false⟩, by decide +kernel⟩,
    ⟨0, .stream 0 0, onDie { blocks := [⟨.stream 0 0, 5, true, true, 2, true⟩] }, by decide +kernel⟩,
    ⟨0, 4095, true, 7, State.reset, by decide +kernel⟩⟩

theorem test_meets_UnitDescriptorsJoinTheirUnits :
  (∃ (d : DieId) (pos : _) (raw : _) (s : State) (td : _), s.issues 3 d pos raw ∧ s.jobFailing = false ∧ (s.issuer d (s.streamSrc d pos) false).tensor (mmFields raw).d = some td) ∧
  (∃ (d : DieId) (pos : _) (raw : _) (s : State), s.issues 10 d pos raw ∧ s.jobFailing = false) ∧
  (∃ (d : DieId) (pos : _) (raw : _) (s : State), (s.issues 4 d pos raw ∨ s.issues 5 d pos raw)) ∧
  (∃ (d : DieId) (pos : _) (raw : _) (s : State), s.issues 6 d pos raw ∧ s.jobFailing = false ∧ (collFields raw).collId ∈ (s.ce d (collFields raw).ce).aborted) ∧
  (∃ (d : DieId) (pos : _) (raw : _) (s : State) (ranks : _) (u : _), s.issues 6 d pos raw ∧ (collFields raw).collId ∉ (s.ce d (collFields raw).ce).aborted ∧ (s.popWith d id).rankTable d (s.streamSrc d pos) (collFields raw) = (.ok ranks, u)) :=
  ⟨⟨0, 0, matmul0, due matmul0 { tensors := [(1, some (row0 .oc 0x10000))] }, row0 .oc 0x10000, by (repeat' apply And.intro) <;> decide +kernel⟩,
    ⟨0, 0, island0, due island0, by (repeat' apply And.intro) <;> decide +kernel⟩,
    ⟨0, 0, move0, due move0 { tensors := [(0, some (row0 .ts 0)), (1, some (row0 .oc 0))] }, .inr ⟨by decide +kernel, by decide +kernel, by decide +kernel, by decide +kernel, by decide +kernel⟩⟩,
    ⟨0, 0, coll0, due coll0 { ces := [(0, { aborted := [0] })] }, ⟨by decide +kernel, by decide +kernel, by decide +kernel, by decide +kernel, by decide +kernel⟩, by decide +kernel, by decide +kernel⟩,
    ⟨0, 0, coll0, due coll0, _, _, ⟨by decide +kernel, by decide +kernel, by decide +kernel, by decide +kernel, by decide +kernel⟩, by decide +kernel, rfl⟩⟩

theorem test_meets_SlotsAdvanceAndResume :
  (∃ (d : DieId) (s : State), s.slotReady d = true ∧ s.jobFailing = false ∧ s.memorySlow = false) ∧
  (∃ (d : DieId) (s : State) (j : _), s.slotReady d = true ∧ s.jobFailing = false ∧ s.memorySlow = false ∧ s.lantern.job = some j ∧ (s.die d).ended = false ∧ (s.die d).frameRepeat ≠ 0 ∧ (s.die d).sc + 1 = (s.die d).frameStart + (s.die d).frameL) ∧
  (∃ (d : DieId) (s : State), s.slotReady d = true ∧ s.jobFailing = false ∧ s.memorySlow = true) ∧
  (∃ (d : DieId) (s : State), s.jobFailing = true) ∧
  (∃ (d : DieId) (s : State), s.jobFailing = false ∧ s.slotReady d = false) ∧
  (∃ (d : DieId) (s : State) (c : _), (s.die d).stretch = some c ∧ s.causeCleared d c = true) ∧
  (∃ (d : DieId) (s : State), ((∀ c, (s.die d).stretch = some c → s.causeCleared d c = false))) ∧
  (∃ (d : DieId) (s : State), (s.die d).windowDue = true ∧ (s.die d).stretch = none ∧ ((∀ i ∈ (s.die d).islands, i.windowed = true → i.endSc ≤ (s.die d).sc → s.islandClosed d i = true))) ∧
  (∃ (d : DieId) (s : State) (i : _), i ∈ (s.die d).islands ∧ i.windowed = true ∧ i.endSc ≤ (s.die d).sc ∧ s.islandClosed d i = false ∧ (s.die d).stretch = none) ∧
  (∃ (d : DieId) (s : State), (s.die d).windowDue = false) :=
  ⟨⟨0, withJob { job0 with state := 3 } (onDie { running := true }), by decide +kernel⟩,
    ⟨0, withJob { job0 with state := 3 } (onDie { running := true, frameRepeat := 2, sc := 9, frameStart := 0, frameL := 10 }), { job0 with state := 3 }, by decide +kernel⟩,
    ⟨0, withJob { job0 with state := 3 } { onDie { running := true } with pool := { ctrls := [(0, { satMask := 1 })] } }, by decide +kernel⟩,
    ⟨0, withJob { job0 with state := 3, failStatus := 2 } (onDie { running := true }), by decide +kernel⟩,
    ⟨0, State.reset, by decide +kernel⟩,
    ⟨0, onDie { stretch := some 4 }, 4, by decide +kernel⟩,
    ⟨0, State.reset, by decide +kernel⟩,
    ⟨0, onDie { islands := [⟨.stream 0 0, [], 0, 1, 5, true, false, 0⟩], sc := 5 }, by decide +kernel⟩,
    ⟨0, { onTile { launches := [⟨.stream 0 0, 0, 0, 1, 0, 0, 0, 0, 0, 0, 0, 0, false, false⟩] } with dies := [(0, { islands := [⟨.stream 0 0, [], 0, 1, 5, true, false, 0⟩], sc := 5 })] }, ⟨.stream 0 0, [], 0, 1, 5, true, false, 0⟩, by decide +kernel⟩,
    ⟨0, onDie { islands := [⟨.stream 0 0, [], 0, 1, 5, true, false, 0⟩], sc := 4 }, by decide +kernel⟩⟩

theorem test_meets_TilesStepAndDescriptorsEnd :
  (∃ (d : DieId) (t : TileId) (s : State), ((s.tile d t).mxe = [] ∨ (s.tile d t).ringA.filled ≤ (s.tile d t).ringA.released ∨ (s.tile d t).ringB.filled ≤ (s.tile d t).ringB.released)) ∧
  (∃ (d : DieId) (t : TileId) (s : State) (o : MxeOp) (r : _) (y : _), (s.tile d t).mxe = o :: r ∧ (s.die d).inflight.find? (fun x => decide (x.src = o.src)) = some y ∧ s.blocked d y = false ∧ (s.tile d t).ringA.released < (s.tile d t).ringA.filled ∧ (s.tile d t).ringB.released < (s.tile d t).ringB.filled ∧ (s.tile d t).ocBad = [] ∧ o.kstep ≠ 0) ∧
  (∃ (d : DieId) (t : TileId) (c : Fin 4) (s : State) (p : _) (panel : _) (rest : _), packFirst (s.tile d t).packs c = some p ∧ p.panels = panel :: rest ∧ p.ringB = false ∧ (s.tile d t).ringA.base = p.base ∧ (s.tile d t).ringA.slot = p.slot ∧ (s.tile d t).ringA.slots = p.slots ∧ (s.tile d t).ringA.filled - (s.tile d t).ringA.released < p.slots) ∧
  (∃ (d : DieId) (t : TileId) (c : Fin 4) (s : State) (p : _), packFirst (s.tile d t).packs c = some p ∧ p.panels ≠ [] ∧ p.ringB = true ∧ (s.tile d t).ringB.base = p.base ∧ (s.tile d t).ringB.slot = p.slot ∧ (s.tile d t).ringB.slots = p.slots ∧ p.slots ≤ (s.tile d t).ringB.filled - (s.tile d t).ringB.released ∧ p.slots ≠ 0) ∧
  (∃ (d : DieId) (t : TileId) (s : State) (k : Kernel) (r : _), (s.tile d t).kernel = none ∧ (s.tile d t).launches = k :: r ∧ 0 < k.groups ∧ k.next = 0) ∧
  (∃ (d : DieId) (t : TileId) (s : State), ((s.tile d t).kernel.isSome = true ∨ (s.tile d t).launches = [])) ∧
  (∃ (d : DieId) (t : TileId) (s : State) (k : Kernel) (n : _), (s.tile d t).kernel = some k ∧ (s.tile d t).freeSlot = some n ∧ k.next < k.groups) ∧
  (∃ (d : DieId) (src : DescSrc) (s : State) (o : _), (s.die d).inflight.find? (fun o => decide (o.src = src)) = some o ∧ o.status = 0 ∧ ((∃ y ∈ (s.die d).older src, sameUnit y.raw o.raw = true))) ∧
  (∃ (d : DieId) (src : DescSrc) (s : State) (o : _), (s.die d).inflight.find? (fun o => decide (o.src = src)) = some o ∧ o.status = 0 ∧ dKind o.raw = 3 ∧ o.busy ≠ 0) ∧
  (∃ (d : DieId) (src : DescSrc) (s : State) (o : _), (s.die d).inflight.find? (fun o => decide (o.src = src)) = some o ∧ o.status = 0 ∧ dKind o.raw = 3 ∧ o.busy = 0 ∧ ((∀ y ∈ (s.die d).older src, sameUnit y.raw o.raw = false))) ∧
  (∃ (d : DieId) (pos : _) (n : _) (s : State) (o : _) (j : _), (s.die d).inflight.find? (fun o => decide (o.src = .stream pos n)) = some o ∧ o.status % 2 ^ 16 ≠ 0 ∧ dKind o.raw ≠ 6 ∧ s.lantern.job = some j ∧ j.state = 3 ∧ j.failStatus = 0) :=
  ⟨⟨0, 0, State.reset, by decide +kernel⟩,
    ⟨0, 0, { onTile { mxe := [⟨.stream 0 0, matmul0, none, row0 .oc 0x10000, 0, 0, 1, [], [], [], []⟩], ringA := { filled := 1 }, ringB := { filled := 1 } } with dies := [(0, { inflight := [⟨.stream 0 0, matmul0, 0, none, none, none, some (row0 .oc 0x10000), false, false, 1, 0⟩] })] }, ⟨.stream 0 0, matmul0, none, row0 .oc 0x10000, 0, 0, 1, [], [], [], []⟩, [], ⟨.stream 0 0, matmul0, 0, none, none, none, some (row0 .oc 0x10000), false, false, 1, 0⟩, by decide +kernel⟩,
    ⟨0, 0, 3, onTile { packs := [⟨.stream 0 0, 3, false, 0, 8192, 2, [[1]]⟩], ringA := ⟨0, 8192, 2, 2, 1⟩ }, ⟨.stream 0 0, 3, false, 0, 8192, 2, [[1]]⟩, [1], [], by decide +kernel⟩,
    ⟨0, 0, 3, onTile { packs := [⟨.stream 0 0, 3, true, 0, 8192, 2, [[1]]⟩], ringB := ⟨0, 8192, 2, 2, 0⟩ }, ⟨.stream 0 0, 3, true, 0, 8192, 2, [[1]]⟩, by decide +kernel⟩,
    ⟨0, 0, onTile { launches := [kernel0] }, kernel0, [], by decide +kernel⟩,
    ⟨0, 0, State.reset, by decide +kernel⟩,
    ⟨0, 0, onTile { kernel := some kernel0 }, kernel0, 0, by decide +kernel⟩,
    ⟨0, .stream 128 0, onDie { inflight := [⟨.stream 0 0, matmul0, 0, none, none, none, none, false, false, 1, 0⟩, ⟨.stream 128 0, matmul0, 0, none, none, none, none, false, false, 1, 0⟩] }, ⟨.stream 128 0, matmul0, 0, none, none, none, none, false, false, 1, 0⟩, by decide +kernel⟩,
    ⟨0, .stream 0 0, onDie { inflight := [⟨.stream 0 0, matmul0, 0, none, none, none, none, false, false, 1, 0⟩] }, ⟨.stream 0 0, matmul0, 0, none, none, none, none, false, false, 1, 0⟩, by decide +kernel⟩,
    ⟨0, .stream 0 0, onDie { inflight := [⟨.stream 0 0, matmul0, 0, none, none, none, none, false, false, 0, 0⟩] }, ⟨.stream 0 0, matmul0, 0, none, none, none, none, false, false, 0, 0⟩, by decide +kernel⟩,
    ⟨0, 0, 0, withJob { job0 with state := 3 } (onDie { inflight := [⟨.stream 0 0, matmul0, 0, none, none, none, none, false, false, 0, 9⟩] }), ⟨.stream 0 0, matmul0, 0, none, none, none, none, false, false, 0, 9⟩, { job0 with state := 3 }, by decide +kernel⟩⟩

theorem test_meets_DoorbellsMoveTheTail :
  (∃ (d : DieId) (q : Fin 16) (tail : Word) (bar4 : Bool) (s : State), ((bar4 = true → s.host.restarting = false)) ∧ s.domainOn .noc = true ∧ (tail - (s.wq d q).head).toNat ≤ 2 ^ (s.wq d q).log2size.toNat) ∧
  (∃ (d : DieId) (q : Fin 16) (tail : Word) (bar4 : Bool) (s : State), ((bar4 = true → s.host.restarting = false)) ∧ s.domainOn .noc = true ∧ 2 ^ (s.wq d q).log2size.toNat < (tail - (s.wq d q).head).toNat) ∧
  (∃ (d : DieId) (q : Fin 16) (s : State) (s1 : _) (raw : _), s.wqActive d q = true ∧ s.wqFetch d q = (.ok (some raw), s1) ∧ ((dAfter raw = true → s1.wqDrained d q = true)) ∧ s1.jobHolds = false ∧ s1.issueStatus d (.queue q (s1.wq d q).head.toNat) false raw = 0 ∧ dKind raw = 0) ∧
  (∃ (d : DieId) (q : Fin 16) (s : State), (s.wq d q).head = (s.wq d q).tail) :=
  ⟨⟨0, 0, 16, true, queued [], by decide +kernel⟩,
    ⟨0, 0, 17, false, queued [], by decide +kernel⟩,
    ⟨0, 0, queued [(4, 1), (7, 4)], _, _, by decide +kernel, rfl, by decide +kernel, by decide +kernel, by decide +kernel, by decide +kernel⟩,
    ⟨0, 0, State.reset, by decide +kernel⟩⟩

theorem test_meets_WorkQueuesFetchIssueAndStop :
  (∃ (d : DieId) (q : Fin 16) (cfg : Word) (s : State), 4 ≤ (if (s.wq d q).enable then (s.wq d q).log2size.toNat else slice cfg.toNat 11 8)) ∧
  (∃ (d : DieId) (q : Fin 16) (tail : Word) (bar4 : Bool) (s : State), ((bar4 = true ∧ s.host.restarting = true) ∨ s.domainOn .noc = false)) ∧
  (∃ (d : DieId) (q : Fin 16) (s : State) (s1 : _), s.wqActive d q = true ∧ s.wqFetch d q = (.ok none, s1) ∧ (s1.wq d q).retries + 1 < 64) ∧
  (∃ (d : DieId) (q : Fin 16) (s : State) (s1 : _), s.wqActive d q = true ∧ s.wqFetch d q = (.ok none, s1) ∧ (s1.wq d q).retries = 63) ∧
  (∃ (d : DieId) (q : Fin 16) (s : State) (s1 : _) (raw : _) (u : _), s.wqActive d q = true ∧ s.wqFetch d q = (.ok (some raw), s1) ∧ s1.wqTake d q raw = some u) ∧
  (∃ (d : DieId) (q : Fin 16) (s : State) (s1 : _) (raw : _), s.wqActive d q = true ∧ s.wqFetch d q = (.ok (some raw), s1) ∧ ((dAfter raw = true ∧ s1.wqDrained d q = false) ∨ (s1.jobHolds = true ∧ s1.heldPasses d raw = false))) ∧
  (∃ (d : DieId) (q : Fin 16) (s : State) (s1 : _) (raw : _), s.wqActive d q = true ∧ s.wqFetch d q = (.ok (some raw), s1) ∧ ((dAfter raw = true → s1.wqDrained d q = true)) ∧ s1.jobHolds = false ∧ s1.issueStatus d (.queue q (s1.wq d q).head.toNat) false raw ≠ 0) ∧
  (∃ (d : DieId) (q : Fin 16) (s : State), s.wqActive d q = false) ∧
  (∃ (d : DieId) (q : Fin 16) (s : State), (s.wq d q).state = 4) ∧
  (∃ (d : DieId) (q : Fin 16) (s : State), (s.wq d q).state ≠ 4) ∧
  (∃ (d : DieId) (q : Fin 16) (s : State), (s.wq d q).enable = false) ∧
  (∃ (d : DieId) (q : Fin 16) (s : State), (s.wq d q).enable = true) :=
  ⟨⟨0, 0, 0x401, State.reset, by decide +kernel⟩,
    ⟨0, 0, 0, true, { State.reset with host := { restarting := true } }, by decide +kernel⟩,
    ⟨0, 0, queued [] {} { retries := 62 }, _, by decide +kernel, rfl, by decide +kernel⟩,
    ⟨0, 0, queued [] {} { retries := 63 }, _, by decide +kernel, rfl, by decide +kernel⟩,
    ⟨0, 0, queued [(4, 1)], _, _, _, by decide +kernel, rfl, rfl⟩,
    ⟨0, 0, withJob { job0 with state := 3 } (queued [(4, 1)]), _, _, by decide +kernel, rfl, by decide +kernel⟩,
    ⟨0, 0, queued [(0, 1), (4, 1)], _, _, by decide +kernel, rfl, by decide +kernel, by decide +kernel, by decide +kernel⟩,
    ⟨0, 0, State.reset, by decide +kernel⟩,
    ⟨0, 0, onDie { wqs := [(0, { state := 4 })] }, by decide +kernel⟩,
    ⟨0, 0, State.reset, by decide +kernel⟩,
    ⟨0, 0, State.reset, by decide +kernel⟩,
    ⟨0, 0, queued [], by decide +kernel⟩⟩

theorem test_meets_GroupsFaultParkAndResolve :
  (∃ (d : DieId) (t : TileId) (n : Fin 24) (v : _) (c : _) (s : State) (k : _) (e : _), gxeRow v d t n = some c ∧ ((s.tile d t).slot n).st = .running ∧ (s.tile d t).kernel = some k ∧ s.issueFault d t n = some e) ∧
  (∃ (d : DieId) (t : TileId) (n : Fin 24) (v : _) (c : _) (s : State), gxeRow v d t n = some c ∧ ((s.tile d t).slot n).st ≠ .running) ∧
  (∃ (d : DieId) (t : TileId) (n : Fin 24) (v : _) (c : _) (s : State) (k : _) (w : _), gxeRow v d t n = some c ∧ s.groupAt d t n k w ∧ gxeRow w d t n ≠ some c) ∧
  (∃ (d : DieId) (t : TileId) (n : Fin 32) (s : State), n.val < 24 ∧ ((s.tile d t).slot n).st = .parked) ∧
  (∃ (d : DieId) (t : TileId) (n : Fin 32) (s : State) (k : _), n.val < 24 ∧ ((s.tile d t).slot n).st = .parked ∧ (s.tile d t).kernel = some k) ∧
  (∃ (d : DieId) (t : TileId) (n : Fin 32) (s : State) (e : _) (s1 : _) (k : _), n.val < 24 ∧ ((s.tile d t).slot n).st = .parked ∧ (s.tile d t).kernel = some k ∧ s.writeMem (k.acc d t) (s.tile d t).ctxBase ((s.tile d t).slot n).context = (e, s1)) ∧
  (∃ (d : DieId) (t : TileId) (n : Fin 32) (s : State) (c : Instr), (24 ≤ n.val ∨ ((s.tile d t).slot n).st ≠ .parked) ∧ (c = .gxeReplay d t n ∨ c = .gxeSave d t n ∨ c = .gxeDiscard d t n)) ∧
  (∃ (d : DieId) (t : TileId) (s : State) (r : _) (s1 : _) (k : _), (s.tile d t).kernel = some k ∧ s.readMem (k.acc d t) (s.tile d t).ctxBase 16896 = (r, s1)) ∧
  (∃ (d : DieId) (t : TileId) (s : State), (s.tile d t).kernel = none) :=
  ⟨⟨0, 0, 0, 0, .gxeInteger 0 0 0, at0 0 { active := 1, live := 1, pc := 4 }, kernel0, 1, by decide +kernel⟩,
    ⟨0, 0, 0, 0, .gxeInteger 0 0 0, State.reset, by decide +kernel⟩,
    ⟨0, 0, 0, 0, .gxeInteger 0 0 0, at0 (ins 14 7 0), kernel0, ins 14 7 0, by (repeat' apply And.intro) <;> decide +kernel⟩,
    ⟨0, 0, 23, onTile { slots := [(23, { st := .parked })] }, by decide +kernel⟩,
    ⟨0, 0, 0, onTile { slots := [(0, { st := .parked })], kernel := some kernel0 }, kernel0, by decide +kernel⟩,
     (pair_of (parked0.writeMem (kernel0.acc (0 : DieId) (0 : TileId)) (parked0.tile (0 : DieId) (0 : TileId)).ctxBase ((parked0.tile (0 : DieId) (0 : TileId)).slot (0 : Fin 32)).context)).elim fun e h => h.elim fun s1 h => ⟨0, 0, 0, parked0, e, s1, kernel0, by decide +kernel, by decide +kernel, by decide +kernel, h⟩,
    ⟨0, 0, 24, State.reset, .gxeSave 0 0 24, by decide +kernel⟩,
     (pair_of (parked0.readMem (kernel0.acc (0 : DieId) (0 : TileId)) (parked0.tile (0 : DieId) (0 : TileId)).ctxBase 16896)).elim fun e h => h.elim fun s1 h => ⟨0, 0, parked0, e, s1, kernel0, by decide +kernel, h⟩,
    ⟨0, 0, State.reset, by decide +kernel⟩⟩

theorem test_meets_ThreadsWriteTheirResults :
  (∃ (d : DieId) (t : TileId) (n : Fin 24) (s : State) (k : _) (w : _) (g : _), s.groupAt d t n k w ∧ g = (s.tile d t).slot n ∧ (gCls w = 0 ∨ gCls w = 1) ∧ gOp w ≠ 0x0F ∧ gOp w ≠ 0x10) ∧
  (∃ (d : DieId) (t : TileId) (n : Fin 24) (s : State) (k : _) (w : _) (g : _), s.groupAt d t n k w ∧ g = (s.tile d t).slot n ∧ gCls w = 0 ∧ (gOp w = 0x0F ∨ gOp w = 0x10)) ∧
  (∃ (d : DieId) (t : TileId) (n : Fin 24) (s : State) (k : _) (w : _) (g : _), s.groupAt d t n k w ∧ g = (s.tile d t).slot n ∧ gCls w = 1 ∧ (gOp w = 0x0F ∨ gOp w = 0x10)) ∧
  (∃ (d : DieId) (t : TileId) (n : Fin 24) (s : State) (k : _) (w : _) (g : _), s.groupAt d t n k w ∧ g = (s.tile d t).slot n ∧ gCls w = 2) ∧
  (∃ (d : DieId) (t : TileId) (n : Fin 24) (s : State) (k : _) (w : _) (g : _), s.groupAt d t n k w ∧ g = (s.tile d t).slot n ∧ gCls w = 3) ∧
  (∃ (d : DieId) (t : TileId) (n : Fin 24) (s : State) (k : _) (w : _) (g : _) (f : Fmt), s.groupAt d t n k w ∧ g = (s.tile d t).slot n ∧ f = (if bit w 4 then .fp16 else .bf16) ∧ gCls w = 4) ∧
  (∃ (d : DieId) (t : TileId) (n : Fin 24) (s : State) (k : _) (w : _) (g : _) (a : _) (b : _), s.groupAt d t n k w ∧ g = (s.tile d t).slot n ∧ gCls w = 5 ∧ cvtFmt (slice w 14 10) = some a ∧ cvtFmt (slice w 9 5) = some b) ∧
  (∃ (d : DieId) (t : TileId) (n : Fin 24) (s : State) (k : _) (w : _) (g : _), s.groupAt d t n k w ∧ g = (s.tile d t).slot n ∧ gCls w = 7 ∧ gOp w < 3) ∧
  (∃ (d : DieId) (t : TileId) (n : Fin 24) (s : State) (k : _) (w : _) (g : _), s.groupAt d t n k w ∧ g = (s.tile d t).slot n ∧ gCls w = 8) ∧
  (∃ (d : DieId) (t : TileId) (n : Fin 24) (s : State) (k : _) (w : _) (g : _), s.groupAt d t n k w ∧ g = (s.tile d t).slot n ∧ gCls w = 0x10 ∧ gOp w = 0) ∧
  (∃ (d : DieId) (t : TileId) (n : Fin 24) (s : State) (k : _) (w : _) (g : _), s.groupAt d t n k w ∧ g = (s.tile d t).slot n ∧ gCls w = 0x10 ∧ gOp w = 1) ∧
  (∃ (d : DieId) (t : TileId) (n : Fin 24) (s : State) (k : _) (w : _) (g : _), s.groupAt d t n k w ∧ g = (s.tile d t).slot n ∧ gCls w = 7 ∧ gOp w = 3) ∧
  (∃ (d : DieId) (t : TileId) (n : Fin 24) (s : State) (k : _) (w : _) (g : _), s.groupAt d t n k w ∧ g = (s.tile d t).slot n ∧ gCls w = 7 ∧ gOp w = 4) ∧
  (∃ (d : DieId) (t : TileId) (n : Fin 24) (s : State) (k : _) (w : _) (g : _), s.groupAt d t n k w ∧ g = (s.tile d t).slot n ∧ gCls w = 6) ∧
  (∃ (d : DieId) (t : TileId) (n : Fin 24) (s : State) (k : _) (w : _) (g : _), s.groupAt d t n k w ∧ g = (s.tile d t).slot n ∧ gCls w = 0x0E ∧ gOp w = 7) :=
  ⟨⟨0, 0, 0, at0 (ins 1 0 0), kernel0, ins 1 0 0, group0 (at0 (ins 1 0 0)), by (repeat' apply And.intro) <;> decide +kernel⟩,
    ⟨0, 0, 0, at0 (ins 0 15 0), kernel0, ins 0 15 0, group0 (at0 (ins 0 15 0)), by (repeat' apply And.intro) <;> decide +kernel⟩,
    ⟨0, 0, 0, at0 (ins 1 15 0), kernel0, ins 1 15 0, group0 (at0 (ins 1 15 0)), by (repeat' apply And.intro) <;> decide +kernel⟩,
    ⟨0, 0, 0, at0 (ins 2 0 0), kernel0, ins 2 0 0, group0 (at0 (ins 2 0 0)), by (repeat' apply And.intro) <;> decide +kernel⟩,
    ⟨0, 0, 0, at0 (ins 3 0 0), kernel0, ins 3 0 0, group0 (at0 (ins 3 0 0)), by (repeat' apply And.intro) <;> decide +kernel⟩,
    ⟨0, 0, 0, at0 (ins 4 0 0), kernel0, ins 4 0 0, group0 (at0 (ins 4 0 0)), .bf16, by (repeat' apply And.intro) <;> decide +kernel⟩,
    ⟨0, 0, 0, at0 (ins 5 0 (7 * 2 ^ 10 + 7 * 2 ^ 5)), kernel0, ins 5 0 (7 * 2 ^ 10 + 7 * 2 ^ 5), group0 (at0 (ins 5 0 (7 * 2 ^ 10 + 7 * 2 ^ 5))), .fp32, .fp32, by (repeat' apply And.intro) <;> decide +kernel⟩,
    ⟨0, 0, 0, at0 (ins 7 2 0), kernel0, ins 7 2 0, group0 (at0 (ins 7 2 0)), by (repeat' apply And.intro) <;> decide +kernel⟩,
    ⟨0, 0, 0, at0 (ins 8 0 0), kernel0, ins 8 0 0, group0 (at0 (ins 8 0 0)), by (repeat' apply And.intro) <;> decide +kernel⟩,
    ⟨0, 0, 0, at0 (ins 16 0 0), kernel0, ins 16 0 0, group0 (at0 (ins 16 0 0)), by (repeat' apply And.intro) <;> decide +kernel⟩,
    ⟨0, 0, 0, at0 (ins 16 1 0), kernel0, ins 16 1 0, group0 (at0 (ins 16 1 0)), by (repeat' apply And.intro) <;> decide +kernel⟩,
    ⟨0, 0, 0, at0 (ins 7 3 0), kernel0, ins 7 3 0, group0 (at0 (ins 7 3 0)), by (repeat' apply And.intro) <;> decide +kernel⟩,
    ⟨0, 0, 0, at0 (ins 7 4 0), kernel0, ins 7 4 0, group0 (at0 (ins 7 4 0)), by (repeat' apply And.intro) <;> decide +kernel⟩,
    ⟨0, 0, 0, at0 (ins 6 0 0), kernel0, ins 6 0 0, group0 (at0 (ins 6 0 0)), by (repeat' apply And.intro) <;> decide +kernel⟩,
    ⟨0, 0, 0, at0 (ins 14 7 0), kernel0, ins 14 7 0, group0 (at0 (ins 14 7 0)), by (repeat' apply And.intro) <;> decide +kernel⟩⟩

theorem test_meets_GroupMemoryAndPlatesAct :
  (∃ (d : DieId) (t : TileId) (n : Fin 24) (s : State) (k : _) (w : _) (c : Instr) (a : _) (e : _) (f : _), s.groupAt d t n k w ∧ ((gCls w = 9 ∧ c = .gxeLoad d t n ∧ e = memBytes (gOp w)) ∨ (gCls w = 0x0A ∧ c = .gxeStore d t n ∧ e = memBytes (gOp w)) ∨ (gCls w = 0x0B ∧ c = .gxeAtomic d t n ∧ e = (if 0x10 ≤ gOp w then 8 else 4))) ∧ (s.at d t n k w).checkAll s e = some (f, a)) ∧
  (∃ (d : DieId) (t : TileId) (n : Fin 24) (s : State) (k : _) (w : _) (g : _) (s1 : _) (rs : _), s.groupAt d t n k w ∧ g = (s.tile d t).slot n ∧ gCls w = 9 ∧ (s.at d t n k w).checkAll s (memBytes (gOp w)) = none ∧ (s.at d t n k w).readAll (memBytes (gOp w)) (g.part w) s = (.ok rs, s1)) ∧
  (∃ (d : DieId) (t : TileId) (n : Fin 24) (s : State) (k : _) (w : _) (g : _), s.groupAt d t n k w ∧ g = (s.tile d t).slot n ∧ gCls w = 0x0A ∧ (s.at d t n k w).checkAll s (memBytes (gOp w)) = none ∧ gMt w = 2) ∧
  (∃ (d : DieId) (t : TileId) (n : Fin 24) (s : State) (k : _) (w : _) (g : _), s.groupAt d t n k w ∧ g = (s.tile d t).slot n ∧ gCls w = 0x0A ∧ (s.at d t n k w).checkAll s (memBytes (gOp w)) = none ∧ gMt w = 3) ∧
  (∃ (d : DieId) (t : TileId) (n : Fin 24) (s : State) (k : _) (w : _) (g : _), s.groupAt d t n k w ∧ g = (s.tile d t).slot n ∧ gCls w = 0x0A ∧ (s.at d t n k w).checkAll s (memBytes (gOp w)) = none ∧ gMt w < 2) ∧
  (∃ (d : DieId) (t : TileId) (n : Fin 24) (s : State) (k : _) (w : _) (g : _) (l : _), s.groupAt d t n k w ∧ g = (s.tile d t).slot n ∧ gCls w = 0x0A ∧ (s.at d t n k w).checkAll s (memBytes (gOp w)) = none ∧ gMt w < 2 ∧ g.part w = [l]) ∧
  (∃ (d : DieId) (t : TileId) (n : Fin 24) (s : State) (k : _) (w : _) (g : _) (l : _) (b : _), s.groupAt d t n k w ∧ g = (s.tile d t).slot n ∧ gCls w = 0x0B ∧ gOp w < 0x10 ∧ (s.at d t n k w).checkAll s 4 = none ∧ gMt w = 2 ∧ g.part w = [l] ∧ ((s.at d t n k w).read s 4 l).1 = .ok b) ∧
  (∃ (d : DieId) (t : TileId) (n : Fin 24) (s : State) (k : _) (w : _) (e : _) (l : _) (q : _) (rs : _) (b : _) (s1 : _) (c : _), s.groupAt d t n k w ∧ gCls w = 0x0B ∧ e = (if 0x10 ≤ gOp w then 8 else 4) ∧ (s.at d t n k w).checkAll s e = none ∧ ((s.at d t n k w).bypass.readAll e (((s.tile d t).slot n).part w) s).1 = .ok rs ∧ ((s.tile d t).slot n).part w = l :: q ∧ ((∀ m ∈ q, (s.at d t n k w).addr m = (s.at d t n k w).addr l)) ∧ (s.at d t n k w).bypass.read s e l = (.ok b, s1) ∧ (s.at d t n k w).combine e (l :: q) (leNat b) = c) ∧
  (∃ (d : DieId) (t : TileId) (n : Fin 24) (s : State) (k : _) (w : _) (f : _) (a : _) (s1 : _), s.groupAt d t n k w ∧ gCls w = 9 ∧ (s.at d t n k w).checkAll s (memBytes (gOp w)) = none ∧ (s.at d t n k w).readAll (memBytes (gOp w)) (((s.tile d t).slot n).part w) s = (.error (f, a), s1)) ∧
  (∃ (d : DieId) (t : TileId) (n : Fin 24) (s : State) (k : _) (w : _) (f : _) (a : _) (s1 : _) (e : _), s.groupAt d t n k w ∧ e = (if 0x10 ≤ gOp w then 8 else 4) ∧ gCls w = 0x0B ∧ (s.at d t n k w).checkAll s e = none ∧ (s.at d t n k w).bypass.readAll e (((s.tile d t).slot n).part w) s = (.error (f, a), s1)) ∧
  (∃ (d : DieId) (t : TileId) (n : Fin 24) (s : State) (k : _) (w : _) (p : _) (r : _) (c : Instr) (x : _), s.groupAt d t n k w ∧ ((s.tile d t).slot n).part w = p :: r ∧ gxeRow w d t n = some c ∧ (c = .plateOp d t n ∨ c = .plateLookup d t n) ∧ k.badPlateOf (plateOperands w) = some x) ∧
  (∃ (d : DieId) (t : TileId) (n : Fin 24) (s : State) (k : _) (w : _) (p : _) (r : _) (c : Instr) (x : _), s.groupAt d t n k w ∧ ((s.tile d t).slot n).part w = p :: r ∧ gxeRow w d t n = some c ∧ (c = .plateOp d t n ∨ c = .plateLookup d t n) ∧ k.badPlateOf (plateOperands w) = none ∧ badPlateSource s (s.at d t n k w) = some x) ∧
  (∃ (d : DieId) (t : TileId) (n : Fin 24) (s : State) (k : _) (w : _) (g : _) (p : _) (r : _) (f : _), s.groupAt d t n k w ∧ g = (s.tile d t).slot n ∧ g.part w = p :: r ∧ gCls w = 0x0D ∧ gOp w ≤ 0x0C ∧ plateFmt (slice w 37 35) = some f ∧ k.badPlateOf (plateOperands w) = none ∧ badPlateSource s (s.at d t n k w) = none) ∧
  (∃ (d : DieId) (t : TileId) (n : Fin 24) (s : State) (k : _) (w : _) (g : _) (p : _) (r : _) (f : _), s.groupAt d t n k w ∧ g = (s.tile d t).slot n ∧ g.part w = p :: r ∧ gCls w = 0x0C ∧ gOp w ≤ 0x0C ∧ plateFmt (slice w 27 25) = some f ∧ k.badPlateOf (plateOperands w) = none ∧ badPlateSource s (s.at d t n k w) = none) ∧
  (∃ (d : DieId) (t : TileId) (n : Fin 24) (s : State) (k : _) (w : _) (g : _) (p : _) (r : _) (f : _), s.groupAt d t n k w ∧ g = (s.tile d t).slot n ∧ g.part w = p :: r ∧ gCls w = 0x0C ∧ gOp w = 0x0D ∧ plateFmt (slice w 27 25) = some f ∧ k.badPlateOf (plateOperands w) = none ∧ badPlateSource s (s.at d t n k w) = none) ∧
  (∃ (d : DieId) (t : TileId) (n : Fin 24) (s : State) (k : _) (w : _) (g : _) (l : _) (r : _) (c : Instr) (e : _) (a : _), s.groupAt d t n k w ∧ g = (s.tile d t).slot n ∧ g.part w = l :: r ∧ gxeRow w d t n = some c ∧ (c = .plateLoad d t n ∨ c = .plateStore d t n) ∧ (plateMem (s.at d t n k w) l).fault s (s.at d t n k w) (gOp w = 0x10) = some (e, a)) ∧
  (∃ (d : DieId) (t : TileId) (n : Fin 24) (s : State) (k : _) (w : _) (g : _) (l : _) (r : _) (c : Instr), s.groupAt d t n k w ∧ g = (s.tile d t).slot n ∧ g.part w = l :: r ∧ gxeRow w d t n = some c ∧ (c = .plateLoad d t n ∨ c = .plateStore d t n) ∧ (plateMem (s.at d t n k w) l).fault s (s.at d t n k w) (gOp w = 0x10) = none) ∧
  (∃ (d : DieId) (t : TileId) (n : Fin 24) (s : State) (k : _) (w : _) (g : _) (l : _) (r : _) (m : _), s.groupAt d t n k w ∧ g = (s.tile d t).slot n ∧ g.part w = l :: r ∧ gCls w = 0x0C ∧ gOp w = 0x10 ∧ m = plateMem (s.at d t n k w) l ∧ m.fault s (s.at d t n k w) true = none) ∧
  (∃ (d : DieId) (t : TileId) (n : Fin 24) (s : State) (k : _) (w : _) (g : _) (l : _) (r : _) (m : _), s.groupAt d t n k w ∧ g = (s.tile d t).slot n ∧ g.part w = l :: r ∧ gCls w = 0x0C ∧ gOp w = 0x11 ∧ m = plateMem (s.at d t n k w) l ∧ m.fault s (s.at d t n k w) false = none) ∧
  (∃ (d : DieId) (t : TileId) (n : Fin 24) (s : State) (k : _) (w : _), s.groupAt d t n k w ∧ gCls w = 0x0F ∧ gOp w = 4) :=
  ⟨⟨0, 0, 0, at0 (ins 9 0 (2 * 2 ^ 32)), kernel0, ins 9 0 (2 * 2 ^ 32), .gxeLoad 0 0 0, _, _, _, ⟨by decide +kernel, by decide +kernel, by decide +kernel, by decide +kernel⟩, .inl ⟨by decide +kernel, rfl, rfl⟩, rfl⟩,
    ⟨0, 0, 0, at0 (ins 9 0 (2 * 2 ^ 32)) { active := 1, live := 1 } kernel1, kernel1, ins 9 0 (2 * 2 ^ 32), group0 (at0 (ins 9 0 (2 * 2 ^ 32)) { active := 1, live := 1 } kernel1), _, _, ⟨by decide +kernel, by decide +kernel, by decide +kernel, by decide +kernel⟩, rfl, by decide +kernel, by decide +kernel, rfl⟩,
    ⟨0, 0, 0, at0 (ins 10 0 (2 * 2 ^ 32)) { active := 0xFFFFFFFF, live := 0xFFFFFFFF } kernel1, kernel1, ins 10 0 (2 * 2 ^ 32), group0 (at0 (ins 10 0 (2 * 2 ^ 32)) { active := 0xFFFFFFFF, live := 0xFFFFFFFF } kernel1), by (repeat' apply And.intro) <;> decide +kernel⟩,
    ⟨0, 0, 0, at0 (ins 10 0 (3 * 2 ^ 32)) { active := 1, live := 1 } kernel1, kernel1, ins 10 0 (3 * 2 ^ 32), group0 (at0 (ins 10 0 (3 * 2 ^ 32)) { active := 1, live := 1 } kernel1), by (repeat' apply And.intro) <;> decide +kernel⟩,
    ⟨0, 0, 0, at0 (ins 10 0 0) { active := 3, live := 3 } kernel1, kernel1, ins 10 0 0, group0 (at0 (ins 10 0 0) { active := 3, live := 3 } kernel1), by (repeat' apply And.intro) <;> decide +kernel⟩,
    ⟨0, 0, 0, at0 (ins 10 0 0) { active := 1, live := 1 } kernel1, kernel1, ins 10 0 0, group0 (at0 (ins 10 0 0) { active := 1, live := 1 } kernel1), 0, by (repeat' apply And.intro) <;> decide +kernel⟩,
    ⟨0, 0, 0, at0 (ins 11 0 (2 * 2 ^ 32)) { active := 1, live := 1 } kernel1, kernel1, ins 11 0 (2 * 2 ^ 32), group0 (at0 (ins 11 0 (2 * 2 ^ 32)) { active := 1, live := 1 } kernel1), 0, _, ⟨by decide +kernel, by decide +kernel, by decide +kernel, by decide +kernel⟩, rfl, by decide +kernel, by decide +kernel, by decide +kernel, by decide +kernel, by decide +kernel, rfl⟩,
    ⟨0, 0, 0, at0 (ins 11 0 (2 * 2 ^ 32)) { active := 3, live := 3 } kernel1, kernel1, ins 11 0 (2 * 2 ^ 32), 4, 0, [1], _, _, _, _, ⟨by decide +kernel, by decide +kernel, by decide +kernel, by decide +kernel⟩, by decide +kernel, by decide +kernel, by decide +kernel, rfl, by decide +kernel, by decide +kernel, rfl, rfl⟩,
    ⟨0, 0, 0, fenced0 (at0 (ins 9 0 0) { active := 1, live := 1 } kernel1), kernel1, ins 9 0 0, 6, 0, _, ⟨by decide +kernel, by decide +kernel, by decide +kernel, by decide +kernel⟩, by decide +kernel, by decide +kernel, rfl⟩,
    ⟨0, 0, 0, fenced0 (at0 (ins 11 0 0) { active := 1, live := 1 } kernel1), kernel1, ins 11 0 0, 6, 0, _, 4, ⟨by decide +kernel, by decide +kernel, by decide +kernel, by decide +kernel⟩, by decide +kernel, by decide +kernel, by decide +kernel, rfl⟩,
    ⟨0, 0, 0, at0 (ins 12 0 0) { active := 1, live := 1 }, kernel0, ins 12 0 0, 0, [], .plateOp 0 0 0, 0, by (repeat' apply And.intro) <;> decide +kernel⟩,
    ⟨0, 0, 0, badPlates (at0 (ins 12 0 0) { active := 1, live := 1 } kernel1), kernel1, ins 12 0 0, 0, [], .plateOp 0 0 0, _, ⟨by decide +kernel, by decide +kernel, by decide +kernel, by decide +kernel⟩, by decide +kernel, by decide +kernel, .inl rfl, by decide +kernel, Option.eq_some_of_isSome (by decide +kernel)⟩,
    ⟨0, 0, 0, at0 (ins 13 0 0) { active := 1, live := 1 } kernel1, kernel1, ins 13 0 0, group0 (at0 (ins 13 0 0) { active := 1, live := 1 } kernel1), 0, [], .fp32, by (repeat' apply And.intro) <;> decide +kernel⟩,
    ⟨0, 0, 0, at0 (ins 12 0 0) { active := 1, live := 1 } kernel1, kernel1, ins 12 0 0, group0 (at0 (ins 12 0 0) { active := 1, live := 1 } kernel1), 0, [], .fp32, by (repeat' apply And.intro) <;> decide +kernel⟩,
    ⟨0, 0, 0, at0 (ins 12 13 0) { active := 1, live := 1 } kernel1, kernel1, ins 12 13 0, group0 (at0 (ins 12 13 0) { active := 1, live := 1 } kernel1), 0, [], .fp32, by (repeat' apply And.intro) <;> decide +kernel⟩,
    ⟨0, 0, 0, at0 (ins 12 16 (7 * 2 ^ 17)) { active := 1, live := 1 }, kernel0, ins 12 16 (7 * 2 ^ 17), group0 (at0 (ins 12 16 (7 * 2 ^ 17)) { active := 1, live := 1 }), 0, [], .plateLoad 0 0 0, 3, 0, by (repeat' apply And.intro) <;> decide +kernel⟩,
    ⟨0, 0, 0, at0 (ins 12 17 (7 * 2 ^ 17)) { active := 1, live := 1 } kernel1, kernel1, ins 12 17 (7 * 2 ^ 17), group0 (at0 (ins 12 17 (7 * 2 ^ 17)) { active := 1, live := 1 } kernel1), 0, [], .plateStore 0 0 0, by (repeat' apply And.intro) <;> decide +kernel⟩,
    ⟨0, 0, 0, at0 (ins 12 16 (7 * 2 ^ 17)) { active := 1, live := 1 } kernel1, kernel1, ins 12 16 (7 * 2 ^ 17), group0 (at0 (ins 12 16 (7 * 2 ^ 17)) { active := 1, live := 1 } kernel1), 0, [], _, ⟨by decide +kernel, by decide +kernel, by decide +kernel, by decide +kernel⟩, by decide +kernel, by decide +kernel, by decide +kernel, by decide +kernel, rfl, by decide +kernel⟩,
    ⟨0, 0, 0, at0 (ins 12 17 (7 * 2 ^ 17)) { active := 1, live := 1 } kernel1, kernel1, ins 12 17 (7 * 2 ^ 17), group0 (at0 (ins 12 17 (7 * 2 ^ 17)) { active := 1, live := 1 } kernel1), 0, [], _, ⟨by decide +kernel, by decide +kernel, by decide +kernel, by decide +kernel⟩, by decide +kernel, by decide +kernel, by decide +kernel, by decide +kernel, rfl, by decide +kernel⟩,
    ⟨0, 0, 0, at0 (ins 15 4 0), kernel0, ins 15 4 0, by (repeat' apply And.intro) <;> decide +kernel⟩⟩

theorem test_meets_GroupControlAndBarriers :
  (∃ (d : DieId) (t : TileId) (n : Fin 24) (s : State) (k : _) (w : _) (g : _), s.groupAt d t n k w ∧ g = (s.tile d t).slot n ∧ gCls w = 0x0E ∧ gOp w = 0 ∧ g.part w ≠ [] ∧ maskOf (g.part w) = g.active) ∧
  (∃ (d : DieId) (t : TileId) (n : Fin 24) (s : State) (k : _) (w : _) (g : _) (c : Instr), s.groupAt d t n k w ∧ g = (s.tile d t).slot n ∧ gCls w = 0x0E ∧ ((gOp w = 0 ∧ c = .bra d t n) ∨ (gOp w = 3 ∧ c = .call d t n) ∨ (gOp w = 4 ∧ c = .ret d t n) ∨ (gOp w = 5 ∧ c = .jmpi d t n)) ∧ g.part w = []) ∧
  (∃ (d : DieId) (t : TileId) (n : Fin 24) (s : State) (k : _) (w : _) (g : _) (c : Instr), s.groupAt d t n k w ∧ g = (s.tile d t).slot n ∧ gCls w = 0x0E ∧ ((gOp w = 0 ∧ c = .bra d t n) ∨ (gOp w = 3 ∧ c = .call d t n) ∨ (gOp w = 4 ∧ c = .ret d t n) ∨ (gOp w = 5 ∧ c = .jmpi d t n)) ∧ g.part w ≠ [] ∧ maskOf (g.part w) ≠ g.active) ∧
  (∃ (d : DieId) (t : TileId) (n : Fin 24) (s : State) (k : _) (w : _) (g : _), s.groupAt d t n k w ∧ g = (s.tile d t).slot n ∧ gCls w = 0x0E ∧ gOp w = 3 ∧ g.part w ≠ [] ∧ maskOf (g.part w) = g.active) ∧
  (∃ (d : DieId) (t : TileId) (n : Fin 24) (s : State) (k : _) (w : _) (g : _) (l : _) (q : _), s.groupAt d t n k w ∧ g = (s.tile d t).slot n ∧ gCls w = 0x0E ∧ gOp w = 4 ∧ g.part w = l :: q ∧ maskOf (g.part w) = g.active ∧ ((∀ m ∈ q, g.reg m 1 = g.reg l 1))) ∧
  (∃ (d : DieId) (t : TileId) (n : Fin 24) (s : State) (k : _) (w : _) (g : _) (l : _) (q : _), s.groupAt d t n k w ∧ g = (s.tile d t).slot n ∧ gCls w = 0x0E ∧ gOp w = 5 ∧ g.part w = l :: q ∧ maskOf (g.part w) = g.active ∧ ((∀ m ∈ q, g.reg m (gA w) = g.reg l (gA w)))) ∧
  (∃ (d : DieId) (t : TileId) (n : Fin 24) (s : State) (k : _) (w : _) (g : _) (l : _) (r : _) (q : _), s.groupAt d t n k w ∧ g = (s.tile d t).slot n ∧ gCls w = 0x0E ∧ ((gOp w = 4 ∧ r = 1) ∨ (gOp w = 5 ∧ r = gA w)) ∧ g.part w = l :: q ∧ maskOf (g.part w) = g.active ∧ ((∃ m ∈ q, g.reg m r ≠ g.reg l r))) ∧
  (∃ (d : DieId) (t : TileId) (n : Fin 24) (s : State) (k : _) (w : _) (g : _), s.groupAt d t n k w ∧ g = (s.tile d t).slot n ∧ gCls w = 0x0E ∧ gOp w = 1 ∧ maskOf (g.part w) = g.active ∧ g.active ≠ 0) ∧
  (∃ (d : DieId) (t : TileId) (n : Fin 24) (s : State) (k : _) (w : _) (g : _), s.groupAt d t n k w ∧ g = (s.tile d t).slot n ∧ gCls w = 0x0E ∧ gOp w = 1 ∧ g.part w = [] ∧ g.active ≠ 0) ∧
  (∃ (d : DieId) (t : TileId) (n : Fin 24) (s : State) (k : _) (w : _) (g : _), s.groupAt d t n k w ∧ g = (s.tile d t).slot n ∧ gCls w = 0x0E ∧ gOp w = 1 ∧ g.part w ≠ [] ∧ maskOf (g.part w) ≠ g.active ∧ g.stack = []) ∧
  (∃ (d : DieId) (t : TileId) (n : Fin 24) (s : State) (k : _) (w : _) (g : _), s.groupAt d t n k w ∧ g = (s.tile d t).slot n ∧ gCls w = 0x0E ∧ gOp w = 1 ∧ g.part w ≠ [] ∧ maskOf (g.part w) ≠ g.active ∧ g.stack.length = 16 ∧ ((∀ e ∈ g.stack, e.pendMask ≠ 0))) ∧
  (∃ (d : DieId) (t : TileId) (n : Fin 24) (s : State) (k : _) (w : _) (g : _) (e : _) (r : _), s.groupAt d t n k w ∧ g = (s.tile d t).slot n ∧ gCls w = 0x0E ∧ gOp w = 2 ∧ g.stack = r ++ [e] ∧ e.rpc = g.pc ∧ e.pendMask ≠ 0) ∧
  (∃ (d : DieId) (t : TileId) (n : Fin 24) (s : State) (k : _) (w : _) (g : _) (e : _) (r : _), s.groupAt d t n k w ∧ g = (s.tile d t).slot n ∧ gCls w = 0x0E ∧ gOp w = 2 ∧ g.stack = r ++ [e] ∧ e.rpc = g.pc ∧ e.pendMask = 0) ∧
  (∃ (d : DieId) (t : TileId) (n : Fin 24) (s : State) (k : _) (w : _) (g : _), s.groupAt d t n k w ∧ g = (s.tile d t).slot n ∧ gCls w = 0x0E ∧ gOp w = 2 ∧ ((∀ e ∈ g.stack, e.rpc ≠ g.pc))) ∧
  (∃ (d : DieId) (t : TileId) (n : Fin 24) (s : State) (k : _) (w : _) (g : _), s.groupAt d t n k w ∧ g = (s.tile d t).slot n ∧ gCls w = 0x0E ∧ gOp w = 6 ∧ g.stack = [] ∧ maskOf (g.part w) = g.active) ∧
  (∃ (d : DieId) (t : TileId) (n : Fin 24) (s : State) (k : _) (w : _) (g : _), s.groupAt d t n k w ∧ g = (s.tile d t).slot n ∧ gCls w = 0x0E ∧ gOp w = 6 ∧ g.bwait = 0 ∧ g.active &&& ~~~(maskOf (g.part w)) ≠ 0) ∧
  (∃ (d : DieId) (t : TileId) (n : Fin 24) (s : State) (k : _) (w : _) (g : _), s.groupAt d t n k w ∧ g = (s.tile d t).slot n ∧ gCls w = 0x0F ∧ gOp w = 0 ∧ maskOf (g.part w) = g.active ∧ g.live = g.active ∧ g.active ≠ 0 ∧ g.bwait = 0 ∧ g.stack = []) ∧
  (∃ (d : DieId) (t : TileId) (n : Fin 24) (s : State) (k : _) (w : _) (g : _), s.groupAt d t n k w ∧ g = (s.tile d t).slot n ∧ gCls w = 0x0F ∧ gOp w = 0 ∧ g.part w ≠ [] ∧ maskOf (g.part w) ||| g.bwait = 0xFFFFFFFF ∧ g.live = 0xFFFFFFFF ∧ ((∃ l < 32, g.bwait.getLsbD l = true ∧ l ∉ g.part w ∧ g.barrier l ≠ gB w % 16))) ∧
  (∃ (d : DieId) (t : TileId) (n : Fin 24) (s : State) (k : _) (w : _) (g : _), s.groupAt d t n k w ∧ g = (s.tile d t).slot n ∧ gCls w = 0x0F ∧ gOp w = 1) ∧
  (∃ (d : DieId) (t : TileId) (n : Fin 24) (s : State) (k : _) (w : _) (g : _), s.groupAt d t n k w ∧ g = (s.tile d t).slot n ∧ gCls w = 0x0F ∧ gOp w = 2 ∧ g.part w ≠ []) ∧
  (∃ (d : DieId) (t : TileId) (n : Fin 24) (s : State) (k : _) (w : _) (g : _), s.groupAt d t n k w ∧ g = (s.tile d t).slot n ∧ gCls w = 0x0F ∧ gOp w = 3 ∧ g.part w ≠ [] ∧ (s.release.tile d t).barErr = []) ∧
  (∃ (d : DieId) (t : TileId) (n : Fin 24) (s : State) (k : _) (w : _) (g : _) (a : _) (r : _), s.groupAt d t n k w ∧ g = (s.tile d t).slot n ∧ gCls w = 0x0F ∧ gOp w = 3 ∧ g.part w ≠ [] ∧ (s.release.tile d t).barErr = a :: r) ∧
  (∃ (d : DieId) (t : TileId) (n : Fin 24) (s : State) (k : _) (w : _) (g : _), s.groupAt d t n k w ∧ g = (s.tile d t).slot n ∧ gCls w = 0x0F ∧ s.pool.msgs = [] ∧ s.pool.agents = []) ∧
  (∃ (d : DieId) (t : TileId) (n : Fin 24) (s : State) (k : _) (w : _) (g : _), s.groupAt d t n k w ∧ g = (s.tile d t).slot n ∧ gCls w = 0x0F ∧ gOp w = 3 ∧ g.part w = []) ∧
  (∃ (d : DieId) (t : TileId) (n : Fin 24) (s : State), ((s.tile d t).slot n).bwait ≠ 0 ∧ ((s.tile d t).slot n).st = .waiting) ∧
  (∃ (d : DieId) (t : TileId) (n : Fin 24) (s : State), ((s.tile d t).slot n).bwait = 0) :=
  ⟨⟨0, 0, 0, at0 (ins 14 0 0), kernel0, ins 14 0 0, group0 (at0 (ins 14 0 0)), by (repeat' apply And.intro) <;> decide +kernel⟩,
    ⟨0, 0, 0, at0 (ins 14 3 onP1), kernel0, ins 14 3 onP1, group0 (at0 (ins 14 3 onP1)), .call 0 0 0, by (repeat' apply And.intro) <;> decide +kernel⟩,
    ⟨0, 0, 0, at0 (ins 14 0 onP1) { active := 0xFFFFFFFF, live := 0xFFFFFFFF, preds := [(0, 2)] }, kernel0, ins 14 0 onP1, group0 (at0 (ins 14 0 onP1) { active := 0xFFFFFFFF, live := 0xFFFFFFFF, preds := [(0, 2)] }), .bra 0 0 0, by (repeat' apply And.intro) <;> decide +kernel⟩,
    ⟨0, 0, 0, at0 (ins 14 3 0), kernel0, ins 14 3 0, group0 (at0 (ins 14 3 0)), by (repeat' apply And.intro) <;> decide +kernel⟩,
    ⟨0, 0, 0, at0 (ins 14 4 0) { active := 3, live := 3, regs := [(1, 8), (129, 8)] }, kernel0, ins 14 4 0, group0 (at0 (ins 14 4 0) { active := 3, live := 3, regs := [(1, 8), (129, 8)] }), 0, [1], by (repeat' apply And.intro) <;> decide +kernel⟩,
    ⟨0, 0, 0, at0 (ins 14 5 (2 * 2 ^ 34)) { active := 3, live := 3 }, kernel0, ins 14 5 (2 * 2 ^ 34), group0 (at0 (ins 14 5 (2 * 2 ^ 34)) { active := 3, live := 3 }), 0, [1], by (repeat' apply And.intro) <;> decide +kernel⟩,
    ⟨0, 0, 0, at0 (ins 14 5 (2 * 2 ^ 34)) { active := 3, live := 3, regs := [(2, 8)] }, kernel0, ins 14 5 (2 * 2 ^ 34), group0 (at0 (ins 14 5 (2 * 2 ^ 34)) { active := 3, live := 3, regs := [(2, 8)] }), 0, 2, [1], by (repeat' apply And.intro) <;> decide +kernel⟩,
    ⟨0, 0, 0, at0 (ins 14 1 0), kernel0, ins 14 1 0, group0 (at0 (ins 14 1 0)), by (repeat' apply And.intro) <;> decide +kernel⟩,
    ⟨0, 0, 0, at0 (ins 14 1 onP1), kernel0, ins 14 1 onP1, group0 (at0 (ins 14 1 onP1)), by (repeat' apply And.intro) <;> decide +kernel⟩,
    ⟨0, 0, 0, at0 (ins 14 1 onP1) { active := 0xFFFFFFFF, live := 0xFFFFFFFF, preds := [(0, 2)] }, kernel0, ins 14 1 onP1, group0 (at0 (ins 14 1 onP1) { active := 0xFFFFFFFF, live := 0xFFFFFFFF, preds := [(0, 2)] }), by (repeat' apply And.intro) <;> decide +kernel⟩,
    ⟨0, 0, 0, at0 (ins 14 1 onP1) { active := 0xFFFFFFFF, live := 0xFFFFFFFF, preds := [(0, 2)], stack := List.replicate 16 ⟨0, 0, 0, 1⟩ }, kernel0, ins 14 1 onP1, group0 (at0 (ins 14 1 onP1) { active := 0xFFFFFFFF, live := 0xFFFFFFFF, preds := [(0, 2)], stack := List.replicate 16 ⟨0, 0, 0, 1⟩ }), by (repeat' apply And.intro) <;> decide +kernel⟩,
    ⟨0, 0, 0, at0 (ins 14 2 0) { active := 1, live := 3, stack := [⟨0, 3, 8, 2⟩] }, kernel0, ins 14 2 0, group0 (at0 (ins 14 2 0) { active := 1, live := 3, stack := [⟨0, 3, 8, 2⟩] }), ⟨0, 3, 8, 2⟩, [], by (repeat' apply And.intro) <;> decide +kernel⟩,
    ⟨0, 0, 0, at0 (ins 14 2 0) { active := 1, live := 3, stack := [⟨0, 3, 8, 0⟩] }, kernel0, ins 14 2 0, group0 (at0 (ins 14 2 0) { active := 1, live := 3, stack := [⟨0, 3, 8, 0⟩] }), ⟨0, 3, 8, 0⟩, [], by (repeat' apply And.intro) <;> decide +kernel⟩,
    ⟨0, 0, 0, at0 (ins 14 2 0), kernel0, ins 14 2 0, group0 (at0 (ins 14 2 0)), by (repeat' apply And.intro) <;> decide +kernel⟩,
    ⟨0, 0, 0, at0 (ins 14 6 0), kernel0, ins 14 6 0, group0 (at0 (ins 14 6 0)), by (repeat' apply And.intro) <;> decide +kernel⟩,
    ⟨0, 0, 0, at0 (ins 14 6 onP1) { active := 0xFFFFFFFF, live := 0xFFFFFFFF, preds := [(0, 2)] }, kernel0, ins 14 6 onP1, group0 (at0 (ins 14 6 onP1) { active := 0xFFFFFFFF, live := 0xFFFFFFFF, preds := [(0, 2)] }), by (repeat' apply And.intro) <;> decide +kernel⟩,
    ⟨0, 0, 0, at0 (ins 15 0 0), kernel0, ins 15 0 0, group0 (at0 (ins 15 0 0)), by (repeat' apply And.intro) <;> decide +kernel⟩,
    ⟨0, 0, 0, at0 (ins 15 0 0) { active := 1, live := 0xFFFFFFFF, bwait := 0xFFFFFFFE, bid := [(1, 3)] }, kernel0, ins 15 0 0, group0 (at0 (ins 15 0 0) { active := 1, live := 0xFFFFFFFF, bwait := 0xFFFFFFFE, bid := [(1, 3)] }), by (repeat' apply And.intro) <;> decide +kernel⟩,
    ⟨0, 0, 0, at0 (ins 15 1 0), kernel0, ins 15 1 0, group0 (at0 (ins 15 1 0)), by (repeat' apply And.intro) <;> decide +kernel⟩,
    ⟨0, 0, 0, at0 (ins 15 2 0), kernel0, ins 15 2 0, group0 (at0 (ins 15 2 0)), by (repeat' apply And.intro) <;> decide +kernel⟩,
    ⟨0, 0, 0, at0 (ins 15 3 0), kernel0, ins 15 3 0, group0 (at0 (ins 15 3 0)), by (repeat' apply And.intro) <;> decide +kernel⟩,
    ⟨0, 0, 0, { at0 (ins 15 3 0) with tiles := [(0, { at0 (ins 15 3 0) |>.tile 0 0 with barErr := [5] })] }, kernel0, ins 15 3 0, group0 (at0 (ins 15 3 0)), 5, [], by (repeat' apply And.intro) <;> decide +kernel⟩,
    ⟨0, 0, 0, at0 (ins 15 3 0), kernel0, ins 15 3 0, group0 (at0 (ins 15 3 0)), by (repeat' apply And.intro) <;> decide +kernel⟩,
    ⟨0, 0, 0, at0 (ins 15 3 onP1), kernel0, ins 15 3 onP1, group0 (at0 (ins 15 3 onP1)), by (repeat' apply And.intro) <;> decide +kernel⟩,
    ⟨0, 0, 0, onTile { slots := [(0, { st := .waiting, bwait := 1 })] }, by decide +kernel⟩,
    ⟨0, 0, 0, State.reset, by decide +kernel⟩⟩

theorem test_meets_CoresOrderAndMaintainLines :
  (∃ (h : HartId) (b : Fin 8) (s : State) (c : _) (u : _), (Map.get {} (s.hart h).wc b).valid = true ∧ s.place ((Map.get {} (s.hart h).wc b).line * 128) = .mem c ∧ s.holds .core (Map.get {} (s.hart h).wc b).key = true ∧ (s.modHart h (fun x => { x with wc := Map.put {} x.wc b {} })).coherentWrite ⟨16 * h, 2, .core, (Map.get {} (s.hart h).wc b).key, false⟩ c (Map.get {} (s.hart h).wc b).line (Map.get {} (s.hart h).wc b).mask.toNat (Map.get {} (s.hart h).wc b).data = (true, u)) ∧
  (∃ (h : HartId) (b : Fin 8) (s : State), (Map.get {} (s.hart h).wc b).valid = false) ∧
  (∃ (h : HartId) (b : Fin 8) (s : State), s.wcLost h b = true) ∧
  (∃ (h : HartId) (a : DWord) (key : KeyId) (l : List Byte) (s : State) (b : _), s.place a.toNat ≠ .dev ∧ l ≠ [] ∧ a.toNat % 128 + l.length ≤ 128 ∧ (((s.hart h).wcSlot (a.toNat / 128) (s.pageKey h key) = some b ∨ ((s.hart h).wcSlot (a.toNat / 128) (s.pageKey h key) = none ∧ (List.range 8).find? (fun i => !(Map.get {} (s.hart h).wc i).valid) = some b))) ∧ ((Map.get ({} : WcBuf) (s.hart h).wc b).mask ||| BitVec.ofNat 128 ((2 ^ l.length - 1) * 2 ^ (a.toNat % 128))).toNat ≠ fullMask) ∧
  (∃ (h : HartId) (a : DWord) (key : KeyId) (l : List Byte) (s : State), s.place a.toNat = .dev) ∧
  (∃ (h : HartId) (e : Word) (s : State), customOp e.toNat = some 0) ∧
  (∃ (h : HartId) (e : Word) (s : State), customOp e.toNat = some 1 ∧ ((∀ b < 8, (Map.get {} (s.hart h).wc b).valid = false)) ∧ (s.release.hart h).pendErr = none) ∧
  (∃ (h : HartId) (e : Word) (s : State) (a : _), customOp e.toNat = some 1 ∧ ((∀ b < 8, (Map.get {} (s.hart h).wc b).valid = false)) ∧ s.pool.msgs = [] ∧ s.pool.agents = [] ∧ (s.hart h).pendErr = some a) ∧
  (∃ (s : State), s.pool.msgs = [] ∧ s.pool.agents = []) ∧
  (∃ (h : HartId) (p : Priv) (sel : DWord) (e : Word) (s : State), customOp e.toNat = some 2 ∧ (p ≠ .u ∨ (s.hart h).uinval = true)) ∧
  (∃ (h : HartId) (sel : DWord) (e : Word) (s : State), (s.hart h).uinval = false ∧ ((∀ b < 8, (Map.get {} (s.hart h).wc b).valid = false))) ∧
  (∃ (h : HartId) (p : Priv) (sel : DWord) (e : Word) (s : State) (c : Instr), ((∀ b < 8, (Map.get {} (s.hart h).wc b).valid = false)) ∧ ((c = .jlSyncC ⟨h, e⟩ ∧ customOp e.toNat ≠ some 0) ∨ (c = .jlSyncS ⟨h, e⟩ ∧ customOp e.toNat ≠ some 1) ∨ (c = .jlInvalT ⟨h, e⟩ p sel ∧ customOp e.toNat ≠ some 2))) ∧
  (∃ (h : HartId) (a : DWord) (s : State) (c : _), s.place a.toNat = .mem c ∧ s.calm ∧ s.dirtyHolder (a.toNat / 128) = none) ∧
  (∃ (h : HartId) (a : DWord) (s : State) (c : _) (x : _), s.place a.toNat = .mem c ∧ s.calm ∧ s.dirtyHolder (a.toNat / 128) = some x ∧ (s.agentLine x (a.toNat / 128)).st = .m) ∧
  (∃ (h : HartId) (a : DWord) (s : State) (c : _), s.place a.toNat = .mem c) ∧
  (∃ (h : HartId) (a : DWord) (s : State) (c : Instr), s.place a.toNat = .none ∧ ((∀ b < 8, (Map.get {} (s.hart h).wc b).valid = false)) ∧ (c = .cboClean h a ∨ c = .cboFlush h a ∨ c = .cboInval h a)) ∧
  (∃ (h : HartId) (a : DWord) (k : KeyId) (s : State) (u : _), s.writeMem ⟨16 * h, 2, .core, s.pageKey h k, false⟩ (a.toNat / 128 * 128) (zeros 128) = (none, u)) ∧
  (∃ (g : BitVec 16) (a : DWord) (s : State), g.toNat % 16 = 0) ∧
  (∃ (g : BitVec 16) (a : DWord) (s : State), g.toNat % 16 = 1 ∧ (s.tile (g.toNat / 16 / 128) (g.toNat / 16 % 128)).kernel.isSome = true) ∧
  (∃ (g : BitVec 16) (a : DWord) (s : State), g.toNat % 16 = 0 ∧ ((∀ b < 8, (Map.get {} (s.hart (g.toNat / 16)).wc b).valid = false))) ∧
  (∃ (d : Fin 5) (s : State), d.val < 4) ∧
  (∃ (s : State), s.pool.msgs = [] ∧ s.writesDue (fun _ => true) = [] ∧ ((∀ e ∈ s.dies, s.dieWrites e.1 = []))) :=
  ⟨⟨0, 0, onHart { wc := [(0, { valid := true, line := 0, key := 1, mask := 1, data := [7] })] }, 0, _, by decide +kernel, by decide +kernel, by decide +kernel, true_ok (by decide +kernel)⟩,
    ⟨95, 7, State.reset, by decide +kernel⟩,
    ⟨0, 0, onHart { wc := [(0, { valid := true, line := 0, key := 9, mask := 1, data := [7] })] }, by decide +kernel⟩,
    ⟨0, 126, 0, [1, 2], State.reset, 0, by decide +kernel⟩,
    ⟨0, 0x0F0000000000, 0, [1, 2], State.reset, by decide +kernel⟩,
    ⟨0, 0x0000000B, State.reset, by decide +kernel⟩,
    ⟨0, 0x0200000B, State.reset, by decide +kernel⟩,
    ⟨0, 0x0200000B, onHart { pendErr := some 5 }, 5, by decide +kernel⟩,
    ⟨State.reset, by decide +kernel⟩,
    ⟨0, .m, 0, 0x0405000B, State.reset, by decide +kernel⟩,
    ⟨0, 0, 0x0405000B, State.reset, by decide +kernel⟩,
    ⟨0, .m, 0, 0, State.reset, .jlSyncC ⟨0, 0⟩, by decide +kernel⟩,
    ⟨0, 0, State.reset, 0, by (repeat' apply And.intro) <;> decide +kernel⟩,
    ⟨0, 0, held { st := .m } [], 0, 0, by (repeat' apply And.intro) <;> decide +kernel⟩,
    ⟨0, 0, State.reset, 0, by decide +kernel⟩,
    ⟨0, 0x00C000000000, State.reset, .cboClean 0 0x00C000000000, by decide +kernel⟩,
    ⟨0, 0, 1, keyed, _, write_ok (by decide +kernel)⟩,
    ⟨0, 0, State.reset, by decide +kernel⟩,
    ⟨1, 0, onTile { kernel := some kernel0 }, by decide +kernel⟩,
    ⟨0, 0, State.reset, by decide +kernel⟩,
    ⟨0, State.reset, by decide +kernel⟩,
    ⟨State.reset, by decide +kernel⟩⟩

theorem test_meets_LinesFollowTheDirectory :
  (∃ (a : CacheId) (line : LineAddr) (key : KeyId) (x : CoreAccess) (c : Instr) (s : State), ((c = .rdS a line ⟨key, x⟩ ∨ c = .rdU a line ⟨key, x⟩ ∨ c = .upg a line ⟨key, x⟩)) ∧ x.kind ≠ .prefetch ∧ s.power.state ≠ .idle ∧ (s.place (128 * line.toNat + x.offset.toNat) = .none ∨ s.holds .core (s.pageKey x.hart key) = false) ∧ ((∀ b < 8, (Map.get {} (s.hart x.hart).wc b).valid = false))) ∧
  (∃ (r : Requester) (line : LineAddr) (key : KeyId) (m : BitVec 128) (data : List Byte) (op : AtomOp) (s : State) (c : Instr), s.unitMayNot line.toNat key r ∧ 3 ≤ r.agent.toNat % 16 ∧ ((c = .rdSn r line key ∨ c = .atom r line key op))) ∧
  (∃ (r : Requester) (line : LineAddr) (key : KeyId) (m : BitVec 128) (data : List Byte) (op : AtomOp) (s : State) (c : Instr), s.unitMayNot line.toNat key r ∧ 3 ≤ r.agent.toNat % 16 ∧ ((c = .wrFull r line key data ∨ c = .wrPart r line key m data))) ∧
  (∃ (r : Requester) (line : LineAddr) (key : KeyId) (m : BitVec 128) (data : List Byte) (op : AtomOp) (s : State), s.unitMayNot line.toNat key r ∧ r.agent.toNat % 16 = 1 ∧ (s.tile (r.agent.toNat / 16 / 128) (r.agent.toNat / 16 % 128)).runningSlots ≠ []) ∧
  (∃ (a : CacheId) (line : LineAddr) (key : KeyId) (x : _) (s : State) (l : _) (c : Instr), s.coreMay line.toNat (s.pageKey x.hart key) x ∧ (s.agentLine a line.toNat) = l ∧ l.key = s.pageKey x.hart key ∧ l.st = .m ∧ ((c = .rdS a line ⟨key, x⟩ ∨ c = .rdU a line ⟨key, x⟩ ∨ c = .upg a line ⟨key, x⟩)) ∧ x.kind = .load) ∧
  (∃ (a : CacheId) (line : LineAddr) (key : KeyId) (x : _) (s : State) (l : _) (c : Instr), s.coreMay line.toNat (s.pageKey x.hart key) x ∧ (s.agentLine a line.toNat) = l ∧ l.key = s.pageKey x.hart key ∧ l.st = .m ∧ ((c = .rdS a line ⟨key, x⟩ ∨ c = .rdU a line ⟨key, x⟩ ∨ c = .upg a line ⟨key, x⟩)) ∧ x.kind = .lr) ∧
  (∃ (a : CacheId) (line : LineAddr) (key : KeyId) (x : _) (s : State) (l : _) (c : Instr), s.coreMay line.toNat (s.pageKey x.hart key) x ∧ (s.agentLine a line.toNat) = l ∧ l.key = s.pageKey x.hart key ∧ l.st = .m ∧ ((c = .rdS a line ⟨key, x⟩ ∨ c = .rdU a line ⟨key, x⟩ ∨ c = .upg a line ⟨key, x⟩)) ∧ x.kind = .sc ∧ (s.hart x.hart).reservation = some line.toNat) ∧
  (∃ (a : CacheId) (line : LineAddr) (key : KeyId) (x : _) (s : State) (l : _) (c : Instr), s.coreMay line.toNat (s.pageKey x.hart key) x ∧ (s.agentLine a line.toNat) = l ∧ l.key = s.pageKey x.hart key ∧ l.st = .m ∧ ((c = .rdS a line ⟨key, x⟩ ∨ c = .rdU a line ⟨key, x⟩ ∨ c = .upg a line ⟨key, x⟩)) ∧ x.kind = .sc ∧ (s.hart x.hart).reservation ≠ some line.toNat) ∧
  (∃ (a : CacheId) (line : LineAddr) (key : KeyId) (x : _) (s : State) (c : _) (l : _), s.coreMiss a line.toNat (s.pageKey x.hart key) x ∧ s.lineCtrl line.toNat = some c ∧ s.homeOpen line.toNat ∧ s.home line.toNat = {} ∧ (s.dirPeers line.toNat).length < dirWays line.toNat ∧ (s.homeRead ⟨cacheAgent a, 2, .anyone, s.pageKey x.hart key, false⟩ c line.toNat).1 = some l) ∧
  (∃ (a : CacheId) (line : LineAddr) (key : KeyId) (x : _) (s : State) (c : _), s.coreMay line.toNat (s.pageKey x.hart key) x ∧ (s.agentLine a line.toNat).st = .s ∧ x.kind = .store ∧ s.wbDue a line.toNat = false ∧ s.lineCtrl line.toNat = some c ∧ s.homeOpen line.toNat ∧ s.home line.toNat = { dir := .ds, sharers := agentMask [a], key := s.pageKey x.hart key }) ∧
  (∃ (r : Requester) (line : LineAddr) (key : KeyId) (c : _) (s : State) (l : _), s.unitMay line.toNat key c r ∧ s.home line.toNat = {} ∧ (s.homeRead (unitAcc r key) c line.toNat).1 = some l) ∧
  (∃ (r : Requester) (line : LineAddr) (key : KeyId) (c : _) (s : State) (l : _) (op : AtomOp), s.unitMay line.toNat key c r ∧ s.home line.toNat = {} ∧ (s.homeRead (unitAcc r key) c line.toNat).1 = some l) ∧
  (∃ (r : Requester) (line : LineAddr) (key : KeyId) (m : BitVec 128) (data : List Byte) (c : _) (s : State), s.unitMay line.toNat key c r ∧ s.home line.toNat = {}) ∧
  (∃ (r : Requester) (line : LineAddr) (key : KeyId) (c : _) (s : State), s.power.state ≠ .idle ∧ s.place (128 * line.toNat) = .mem c ∧ s.holds (s.partyHolder (.other r)) key = true ∧ sliceLimit ≤ s.sliceLoad line.toNat ∧ (s.home line.toNat).placed = false) ∧
  (∃ (a : CacheId) (o : _) (line : LineAddr) (key : KeyId) (x : _) (s : State) (c : _), s.coreMiss a line.toNat (s.pageKey x.hart key) x ∧ s.lineCtrl line.toNat = some c ∧ s.homeOpen line.toNat ∧ a ≠ o ∧ s.home line.toNat = { dir := .de, owner := some o, key := s.pageKey x.hart key }) ∧
  (∃ (a : CacheId) (line : LineAddr) (f : _) (r : _) (s : State), s.pool.msgs = .snoop .sh a line.toNat f :: r ∧ s.grantDue a line.toNat = false ∧ (s.agentLine a line.toNat).st = .m ∧ (s.agentLine a line.toNat).hold = true) ∧
  (∃ (a : CacheId) (line : LineAddr) (f : _) (r : _) (s : State) (p : _), s.pool.msgs = .snoop .sh a line.toNat f :: r ∧ s.grantDue a line.toNat = false ∧ (s.agentLine a line.toNat).st = .m ∧ f = some p ∧ (s.agentLine a line.toNat).hold = false) ∧
  (∃ (a : CacheId) (line : LineAddr) (r : _) (s : State), s.pool.msgs = .snoop .un a line.toNat none :: r ∧ s.grantDue a line.toNat = false ∧ (s.agentLine a line.toNat).st = .m ∧ (s.agentLine a line.toNat).hold = false) ∧
  (∃ (a : CacheId) (line : LineAddr) (f : _) (r : _) (s : State), s.pool.msgs = .snoop .inv a line.toNat f :: r ∧ s.grantDue a line.toNat = false ∧ (s.agentLine a line.toNat).st = .s ∧ (s.agentLine a line.toNat).hold = false) ∧
  (∃ (a : CacheId) (line : LineAddr) (p : _) (r : _) (s : State), s.pool.msgs = .snoop .rd a line.toNat (some p) :: r ∧ s.grantDue a line.toNat = false ∧ (s.agentLine a line.toNat).st = .o ∧ (s.agentLine a line.toNat).hold = false) ∧
  (∃ (a : CacheId) (line : LineAddr) (s : State), (s.agentLine a line.toNat).hold = true ∧ (s.agentLine a line.toNat).snoops = []) ∧
  (∃ (a : _) (line : LineAddr) (b : _) (st : _) (r : _) (s : State), s.pool.msgs = .data (.cache a) line.toNat b st false :: r ∧ ((∀ m ∈ s.pool.misses, m.cache ≠ a ∨ m.line ≠ line.toNat))) ∧
  (∃ (a : CacheId) (line : LineAddr) (b : _) (st : _) (r : _) (s : State) (x : _) (q : _), s.pool.msgs = .data (.cache a) line.toNat b st false :: r ∧ s.pool.misses = ⟨a, line.toNat, x⟩ :: q ∧ x.kind = .load) ∧
  (∃ (a : _) (line : LineAddr) (b : _) (st : _) (r : List CohMsg) (s : State) (x : _) (q : _), s.pool.msgs = .data (.cache a) line.toNat b st true :: r ∧ s.pool.misses = ⟨a, line.toNat, x⟩ :: q ∧ ((∀ b < 8, (Map.get {} (s.hart x.hart).wc b).valid = false))) ∧
  (∃ (q : _) (line : LineAddr) (b : _) (st : _) (r : _) (s : State), s.pool.msgs = .data (.other q) line.toNat b st false :: r) ∧
  (∃ (a : _) (line : LineAddr) (r : _) (s : State), s.pool.msgs = .comp (.cache a) line.toNat :: r ∧ (s.agentLine a line.toNat).st ≠ .i ∧ ((∀ m ∈ s.pool.misses, m.cache ≠ a ∨ m.line ≠ line.toNat))) ∧
  (∃ (q : _) (line : LineAddr) (r : _) (s : State), s.pool.msgs = .comp (.other q) line.toNat :: r) ∧
  (∃ (a : CacheId) (b : _) (line : LineAddr) (d : _) (r : _) (s : State) (x : _) (h : _), s.lineCtrl line.toNat = some x ∧ s.homeOpen line.toNat ∧ s.pool.msgs = .ack a line.toNat true d :: r ∧ s.home line.toNat = h ∧ h.txn = some ⟨.rdS, .cache b, h.key, [], 0, ⟨0, false, 0, 0, 0⟩⟩ ∧ h.waiting = agentMask [a] ∧ h.queue = []) ∧
  (∃ (a : CacheId) (q : Requester) (line : LineAddr) (data : _) (r : _) (s : State) (x : _) (h : _) (m : _) (w : _), s.lineCtrl line.toNat = some x ∧ s.homeOpen line.toNat ∧ s.pool.msgs = .ackD a line.toNat data :: r ∧ s.home line.toNat = h ∧ h.txn = some ⟨.wrPart, .other q, h.key, w, m, ⟨0, false, 0, 0, 0⟩⟩ ∧ h.waiting = agentMask [a] ∧ h.owner = some a ∧ h.placed = false ∧ h.queue = []) ∧
  (∃ (a : CacheId) (line : LineAddr) (r : _) (s : State), s.pool.msgs = .ndwb a line.toNat :: r ∧ (s.home line.toNat).waiting.getLsbD a.val = true ∧ (s.home line.toNat).wbHeld = none ∧ s.wbDue a line.toNat = true) ∧
  (∃ (a : CacheId) (line : LineAddr) (key : KeyId) (data : List Byte) (x : Nat) (s : State) (l : _), s.lineCtrl line.toNat = some x ∧ s.agentLine a line.toNat = l ∧ l.key = key.val ∧ l.snoops = [] ∧ (l.st = .m ∨ l.st = .o ∨ l.st = .e) ∧ s.wbDue a line.toNat = false) ∧
  (∃ (a : CacheId) (line : LineAddr) (key : KeyId) (data : List Byte) (x : _) (s : State) (k : _) (b : _) (r : _), s.lineCtrl line.toNat = some x ∧ s.homeOpen line.toNat ∧ s.pool.msgs = .wb a line.toNat k b :: r ∧ (s.home line.toNat).waiting.getLsbD a.val = false) ∧
  (∃ (a : CacheId) (line : LineAddr) (key : KeyId) (data : List Byte) (x : _) (s : State) (k : _) (b : _) (r : _), s.lineCtrl line.toNat = some x ∧ s.homeOpen line.toNat ∧ s.pool.msgs = .wb a line.toNat k b :: r ∧ (s.home line.toNat).waiting.getLsbD a.val = true ∧ (s.home line.toNat).ndwb ≠ some a) ∧
  (∃ (a : CacheId) (line : LineAddr) (key : KeyId) (s : State) (l : _), s.homeOpen line.toNat ∧ s.agentLine a line.toNat = l ∧ l.key = key.val ∧ l.snoops = [] ∧ (l.st = .s ∨ l.st = .e) ∧ (s.home line.toNat).waiting.getLsbD a.val = false) ∧
  (∃ (a : CacheId) (line : LineAddr) (r : _) (s : State), (s.agentLine a line.toNat).st = .wbp ∧ s.pool.msgs = .wbAck a line.toNat :: r) ∧
  (∃ (a : CacheId) (line : LineAddr) (r : _) (s : State), (s.agentLine a line.toNat).st = .wbp ∧ s.pool.msgs = .wbConsumed a line.toNat :: r) :=
  ⟨⟨0, 0x1FFFFFFFFFF, 1, core0 .load, .rdS 0 0x1FFFFFFFFFF ⟨1, (core0 .load)⟩, keyed, by decide +kernel⟩,
    ⟨⟨3, false⟩, 0, 9, 0, [], ⟨0, false, 0, 0, 0⟩, keyed, .rdSn ⟨3, false⟩ 0 9, ⟨by decide +kernel, .inl (by decide +kernel)⟩, by decide +kernel, .inl rfl⟩,
    ⟨⟨3, false⟩, 0, 9, 0, [], ⟨0, false, 0, 0, 0⟩, keyed, .wrFull ⟨3, false⟩ 0 9 [], ⟨by decide +kernel, .inl (by decide +kernel)⟩, by decide +kernel, .inl rfl⟩,
    ⟨⟨1, false⟩, 0, 9, 0, [], ⟨0, false, 0, 0, 0⟩, at0 (ins 10 0 0), ⟨by decide +kernel, .inl (by decide +kernel)⟩, by decide +kernel, by decide +kernel⟩,
    ⟨0, 0, 1, core0 .load, held { st := .m, key := 1 } [], { st := .m, key := 1 }, .rdS 0 0 ⟨1, (core0 .load)⟩, by (repeat' apply And.intro) <;> decide +kernel⟩,
    ⟨0, 0, 1, core0 .lr, held { st := .m, key := 1 } [], { st := .m, key := 1 }, .rdS 0 0 ⟨1, (core0 .lr)⟩, by (repeat' apply And.intro) <;> decide +kernel⟩,
    ⟨0, 0, 1, core0 .sc, { held { st := .m, key := 1 } [] with host := { harts := [(0, { kidEn := true, reservation := some 0 })] } }, { st := .m, key := 1 }, .rdU 0 0 ⟨1, (core0 .sc)⟩, by (repeat' apply And.intro) <;> decide +kernel⟩,
    ⟨0, 0, 1, core0 .sc, held { st := .m, key := 1 } [], { st := .m, key := 1 }, .rdU 0 0 ⟨1, (core0 .sc)⟩, by (repeat' apply And.intro) <;> decide +kernel⟩,
    ⟨0, 0, 1, core0 .load, keyed, 0, _, ⟨⟨by decide +kernel, by decide +kernel, by decide +kernel, by decide +kernel, by decide +kernel, by decide +kernel⟩, by decide +kernel, by decide +kernel, by decide +kernel⟩, by decide +kernel, ⟨by decide +kernel, by decide +kernel, by decide +kernel⟩, by decide +kernel, by decide +kernel, Option.eq_some_of_isSome (by decide +kernel)⟩,
    ⟨0, 0, 1, core0 .store, (held { st := .s, key := 1 } []).putHome 0 { dir := .ds, sharers := agentMask [0], key := 1 }, 0, by (repeat' apply And.intro) <;> decide +kernel⟩,
    ⟨⟨2, false⟩, 0, 1, 0, keyed, _, ⟨by decide +kernel, by decide +kernel, by decide +kernel, by decide +kernel, by decide +kernel, by decide +kernel⟩, by decide +kernel, Option.eq_some_of_isSome (by decide +kernel)⟩,
    ⟨⟨2, false⟩, 0, 1, 0, keyed, _, ⟨0, false, 0, 0, 0⟩, ⟨by decide +kernel, by decide +kernel, by decide +kernel, by decide +kernel, by decide +kernel, by decide +kernel⟩, by decide +kernel, Option.eq_some_of_isSome (by decide +kernel)⟩,
    ⟨⟨2, false⟩, 0, 1, 1, [7], 0, keyed, by (repeat' apply And.intro) <;> decide +kernel⟩,
    ⟨⟨2, false⟩, 0, 1, 0, homed { queue := List.replicate 256 ⟨.rdSn, .other ⟨2, false⟩, 1, [], 0, ⟨0, false, 0, 0, 0⟩⟩ } [], by decide +kernel⟩,
    ⟨0, 1, 0, 1, core0 .load, homed { dir := .de, owner := some 1, key := 1 } [], 0, by (repeat' apply And.intro) <;> decide +kernel⟩,
    ⟨0, 0, none, [], held { st := .m, hold := true } [.snoop .sh 0 0 none], by decide +kernel⟩,
    ⟨0, 0, some (.cache 1), [], held { st := .m } [.snoop .sh 0 0 (some (.cache 1))], .cache 1, by decide +kernel⟩,
    ⟨0, 0, [], held { st := .m } [.snoop .un 0 0 none], by decide +kernel⟩,
    ⟨0, 0, none, [], held { st := .s } [.snoop .inv 0 0 none], by decide +kernel⟩,
    ⟨0, 0, .cache 1, [], held { st := .o } [.snoop .rd 0 0 (some (.cache 1))], by decide +kernel⟩,
    ⟨0, 0, held { st := .m, hold := true } [], by decide +kernel⟩,
    ⟨0, 0, [], .s, [], held {} [.data (.cache 0) 0 [] .s false], by decide +kernel⟩,
    ⟨0, 0, [], .s, [], { keyed with pool := { msgs := [.data (.cache 0) 0 [] .s false], misses := [⟨0, 0, core0 .load⟩] } }, core0 .load, [], by decide +kernel⟩,
    ⟨0, 0, [], .s, [], { keyed with pool := { msgs := [.data (.cache 0) 0 [] .s true], misses := [⟨0, 0, core0 .load⟩] } }, core0 .load, [], by decide +kernel⟩,
    ⟨⟨2, false⟩, 0, [], .s, [], held {} [.data (.other ⟨2, false⟩) 0 [] .s false], by decide +kernel⟩,
    ⟨0, 0, [], held { st := .s } [.comp (.cache 0) 0], by decide +kernel⟩,
    ⟨⟨2, false⟩, 0, [], homed {} [.comp (.other ⟨2, false⟩) 0], by decide +kernel⟩,
    ⟨0, 1, 0, false, [], homed homeSh [.ack 0 0 true false], 0, homeSh, by (repeat' apply And.intro) <;> decide +kernel⟩,
    ⟨0, ⟨2, false⟩, 0, [], [], homed homeWr [.ackD 0 0 []], 0, homeWr, 0, [], by (repeat' apply And.intro) <;> decide +kernel⟩,
    ⟨0, 0, [.wb 0 0 1 []], homed { waiting := agentMask [0] } [.ndwb 0 0, .wb 0 0 1 []], by decide +kernel⟩,
    ⟨0, 0, 1, [], 0, held { st := .m, key := 1 } [], { st := .m, key := 1 }, by decide +kernel⟩,
    ⟨0, 0, 1, [], 0, held { st := .wbp, key := 1 } [.wb 0 0 1 []], 1, [], [], by (repeat' apply And.intro) <;> decide +kernel⟩,
    ⟨0, 0, 1, [], 0, (held { st := .wbp, key := 1 } [.wb 0 0 1 []]).putHome 0 { waiting := agentMask [0] }, 1, [], [], by (repeat' apply And.intro) <;> decide +kernel⟩,
    ⟨0, 0, 1, held { st := .s, key := 1 } [], { st := .s, key := 1 }, by (repeat' apply And.intro) <;> decide +kernel⟩,
    ⟨0, 0, [], held { st := .wbp } [.wbAck 0 0], by decide +kernel⟩,
    ⟨0, 0, [], held { st := .wbp } [.wbConsumed 0 0], by decide +kernel⟩⟩

theorem test_meets_CachesAndTiersServeLines :
  (∃ (line : LineAddr) (key : KeyId) (src : PrefetchSource) (s : State) (c : _), s.lineCtrl line.toNat = some c ∧ c < 12 ∧ s.isFenced c line.toNat = false ∧ ((src = .detector → (s.die (c / 3)).dc.pfDetect = true)) ∧ (s.die (c / 3)).dc.satMask.getLsbD (dcSlice line.toNat) = false ∧ (s.die (c / 3)).dc.find line.toNat = none ∧ ((∀ e ∈ s.sideOf (c / 3) line.toNat, e.line ≠ line.toNat)) ∧ (s.sideOf (c / 3) line.toNat).length < 64) ∧
  (∃ (line : LineAddr) (key : KeyId) (src : PrefetchSource) (s : State) (c : _), s.lineCtrl line.toNat = some c ∧ (12 ≤ c ∨ s.isFenced c line.toNat = true ∨ (src = .detector ∧ (s.die (c / 3)).dc.pfDetect = false))) ∧
  (∃ (d : DieId) (s : State), s.calm ∧ ((∀ e ∈ (s.die d).dc.lines, e.2.dirty = false))) ∧
  (∃ (c : CtrlId) (line : LineAddr) (g : BitVec 16) (er : List (List Byte)) (s : State), s.place (line.toNat * 128) ≠ .mem c) ∧
  (∃ (c : CtrlId) (line : LineAddr) (g : BitVec 16) (er : List (List Byte)) (s : State), s.place (line.toNat * 128) = .mem c ∧ s.isFenced c line.toNat = true ∧ 3 ≤ g.toNat % 16) ∧
  (∃ (c : CtrlId) (line : LineAddr) (g : BitVec 16) (er : List (List Byte)) (s : State), s.place (line.toNat * 128) = .mem c ∧ s.isFenced c line.toNat = true ∧ g.toNat % 16 = 0 ∧ ((∀ b < 8, (Map.get {} (s.hart (g.toNat / 16)).wc b).valid = false))) ∧
  (∃ (c : CtrlId) (line : LineAddr) (g : BitVec 16) (s : State), s.place (line.toNat * 128) = .mem c ∧ s.isFenced c line.toNat = false) ∧
  (∃ (c : CtrlId) (line : LineAddr) (g : BitVec 16) (er : List (List Byte)) (s : State), s.place (line.toNat * 128) = .mem c ∧ s.isFenced c line.toNat = false ∧ lineBad er = true ∧ 3 ≤ g.toNat % 16) ∧
  (∃ (c : CtrlId) (ch : Fin 32) (n : Nat) (s : State), 3 ≤ n ∧ ch.val < ctrlChans c) ∧
  (∃ (c : CtrlId) (ch : Fin 32) (n : Nat) (r : Bool) (s : State), (r = true ∨ n < 3 ∨ ctrlChans c ≤ ch.val)) ∧
  (∃ (c : CtrlId) (er : List (List Byte)) (s : State), s.rakePaused c = true) ∧
  (∃ (c : CtrlId) (s : State) (p : _), s.rakePaused c = false ∧ (s.ctrl c).rakePos = p ∧ p + 1 < s.ctrlLines c ∧ s.isFenced c (ctrlBase c / 128 + p) = false) ∧
  (∃ (c : CtrlId) (er : List (List (List Byte))) (s : State) (r : _) (rest : _), (s.ctrl c).repairing = r :: rest ∧ ((∀ e ∈ er, lineBad e = false ∧ lineFixed e = 0))) ∧
  (∃ (c : CtrlId) (e : List (List Byte)) (s : State) (r : _) (rest : _) (l : _) (ls : _), (s.ctrl c).repairing = r :: rest ∧ s.rowLines c r = l :: ls ∧ s.isFenced c l = false ∧ lineBad e = true) ∧
  (∃ (c : CtrlId) (er : List (List (List Byte))) (s : State), (s.ctrl c).repairing = []) ∧
  (∃ (c : CtrlId) (ch : Fin 32) (s : State), ch.val < ctrlChans c) ∧
  (∃ (c : CtrlId) (ch : Fin 32) (s : State), ctrlChans c ≤ ch.val) :=
  ⟨⟨0, 1, .detector, keyed, 0, by decide +kernel⟩,
    ⟨0x800000000, 1, .core, keyed, 12, by decide +kernel⟩,
    ⟨0, State.reset, by (repeat' apply And.intro) <;> decide +kernel⟩,
    ⟨0, 0x1800000000, 3, [], State.reset, by decide +kernel⟩,
    ⟨0, 0, 3, [[1, 2]], fenced0 keyed, by decide +kernel⟩,
    ⟨0, 0, 16, [[1, 2]], fenced0 keyed, by decide +kernel⟩,
    ⟨0, 0, 0, State.reset, by decide +kernel⟩,
    ⟨0, 0, 3, [[1, 2]], State.reset, by decide +kernel⟩,
    ⟨0, 0, 3, State.reset, by decide +kernel⟩,
    ⟨0, 0, 0, true, State.reset, by decide +kernel⟩,
    ⟨0, [], State.reset, by decide +kernel⟩,
    ⟨0, inState .active, 0, by decide +kernel⟩,
    ⟨0, [], onCtrl { repairing := [⟨0, 0, 0, 0⟩] }, ⟨0, 0, 0, 0⟩, [], by decide +kernel⟩,
    ⟨0, [[1, 2]], onCtrl { repairing := [⟨0, 0, 0, 0⟩] }, ⟨0, 0, 0, 0⟩, [], _, _, by decide +kernel, rfl, by decide +kernel, by decide +kernel⟩,
    ⟨0, [], State.reset, by decide +kernel⟩,
    ⟨0, 0, State.reset, by decide +kernel⟩,
    ⟨12, 31, State.reset, by decide +kernel⟩⟩

theorem test_meets_BundlesReplayAndDegrade :
  (∃ (e : LinkEnd) (m : Fin 12) (f : List Byte) (s : State), ((s.link e).module m).serves = true ∧ d2dOk f = false ∧ ((s.link e).module m).replayTimes = []) ∧
  (∃ (e : LinkEnd) (m : Fin 12) (f : List Byte) (s : State) (c : _) (r : _), ((s.link e).module m).serves = true ∧ d2dOk f = true ∧ c = slice (fieldAt f 0 4) 2 0 ∧ c < 4 ∧ (s.link e).held = [] ∧ slice (fieldAt f 0 4) 14 3 = (s.link e).rxNext.toNat ∧ r = takeUnits c (unitsOf 7 (bytesAt f 4 56)) (Map.get [] (s.link e).rxPart c) []) ∧
  (∃ (e : LinkEnd) (k : LinkMsg) (s : State), k.ddie ≠ endNode e) ∧
  (∃ (e : LinkEnd) (k : LinkMsg) (s : State) (a : _) (l : _) (fw : _) (d : _), k.ddie = endNode e ∧ s.pool.msgs.find? k.carries = some (.ack a l fw d)) ∧
  (∃ (e : LinkEnd) (k : LinkMsg) (s : State), k.ddie = endNode e ∧ s.pool.msgs = [] ∧ k.chan = 2 ∧ k.op = 1 ∧ k.body.headD 0 % 65536 < 96 ∧ 1 ≤ slice (k.body.headD 0) 31 16 ∧ slice (k.body.headD 0) 31 16 ≤ 2047) ∧
  (∃ (s : State) (node : _) (odd : _) (k : LinkMsg) (b : _) (r : _) (e : LinkEnd), s.diePath node k.ddie odd = some (node :: b :: r) ∧ e = endToward node b ∧ k.chan < 4 ∧ (s.link e).outq = [] ∧ (s.link e).resend = [] ∧ (s.link e).handover = false ∧ (s.link e).rotation e ≠ [] ∧ 0 < Map.get 0 (s.link e).credits k.chan ∧ (s.link e).replay.length < 2048 ∧ k.body.length ≤ 6) ∧
  (∃ (e : LinkEnd) (m : Fin 12) (f : List Byte) (s : State), ((s.link e).module m).serves = true ∧ d2dOk f = true ∧ slice (fieldAt f 0 4) 2 0 < 4 ∧ 2048 ≤ (slice (fieldAt f 0 4) 14 3 + 4096 - (s.link e).rxNext.toNat) % 4096) ∧
  (∃ (e : LinkEnd) (f : List Byte) (s : State), d2dOk f = true ∧ slice (fieldAt f 0 4) 2 0 = 7 ∧ bit (fieldAt f 4 56) 12 = false ∧ (s.link e).outq = [] ∧ (s.link e).resend = []) ∧
  (∃ (e : LinkEnd) (f : List Byte) (s : State), d2dOk f = true ∧ slice (fieldAt f 0 4) 2 0 = 7 ∧ bit (fieldAt f 4 56) 12 = true ∧ (s.link e).handover = false ∧ (s.link e).rotation e ≠ []) ∧
  (∃ (e : LinkEnd) (f : List Byte) (s : State), (d2dOk f = false ∨ slice (fieldAt f 0 4) 2 0 ≠ 7)) ∧
  (∃ (e : LinkEnd) (s : State), (s.link e).owesAck = true) ∧
  (∃ (e : LinkEnd) (s : State), (s.link e).owesAck = false ∧ (s.link e).nak = false ∧ (s.link e).owedCredits = []) ∧
  (∃ (e : LinkEnd) (m : Fin 12) (n : _) (s : State), m.val < endModules e ∧ n < endModules e ∧ n ≠ m.val ∧ ((s.link e).module m).serves = true ∧ ((s.link e).module n).serves = true) ∧
  (∃ (e : LinkEnd) (m : Fin 12) (r : LaneResult) (s : State), ((s.link e).module m).checking = true ∧ ((s.link e).module m).checkTimes = [] ∧ ((∀ k, ((s.link e).module k).checkDue = false ∧ ((s.link (partnerEnd e)).module k).checkDue = false)) ∧ s.fabric.commonFeatures.getLsbD 0 = true) ∧
  (∃ (e : LinkEnd) (m : Fin 12) (r : LaneResult) (s : State), ((s.link e).module m).checking = false) ∧
  (∃ (e : LinkEnd) (m : Fin 12) (s : State), ((s.link e).module m).retraining = true ∧ ((∀ k, ((s.link e).module k).checkDue = false ∧ ((s.link (partnerEnd e)).module k).checkDue = false))) ∧
  (∃ (e : LinkEnd) (m : Fin 12) (s : State), m.val < endModules e ∧ ((s.link e).module m).st ≠ .retired) ∧
  (∃ (e : LinkEnd) (dl : BitVec 12) (s : State), (s.link e).handover = true) ∧
  (∃ (e : LinkEnd) (dl : BitVec 12) (s : State), (s.link e).handover = false) :=
  ⟨⟨0, 0, [], onLink { modules := [(0, { st := .full })] }, by decide +kernel⟩,
    ⟨0, 0, flit 0, onLink { modules := [(0, { st := .full })] }, _, _, by decide +kernel, by decide +kernel, rfl, by decide +kernel, by decide +kernel, by decide +kernel, rfl⟩,
    ⟨0, { chan := 1, op := 2, ddie := 3 }, State.reset, by decide +kernel⟩,
    ⟨0, msg0, sent [.ack 12 0 false false] keyed, 12, 0, false, false, by decide +kernel⟩,
    ⟨12, { chan := 2, op := 1, ddie := 4, body := [2047 * 65536] }, State.reset, by decide +kernel⟩,
    ⟨{ inState .active with links := [(0, { modules := [(0, { st := .full })] }), (12, { modules := [(0, { st := .full })] })] }, 0, true, { chan := 0, op := 1, ddie := 4 }, 4, [], 0, by decide +kernel⟩,
    ⟨0, 0, flit 32760, onLink { modules := [(0, { st := .full })] }, by decide +kernel⟩,
    ⟨0, flit 7, State.reset, by decide +kernel⟩,
    ⟨0, ackFlit, onLink { modules := [(0, { st := .full })] }, by decide +kernel⟩,
    ⟨0, [], State.reset, by decide +kernel⟩,
    ⟨0, onLink { owesAck := true }, by decide +kernel⟩,
    ⟨0, State.reset, by decide +kernel⟩,
    ⟨0, 0, 1, onLink { modules := [(0, { st := .full }), (1, { st := .full })] }, by decide +kernel⟩,
    ⟨0, 0, {}, { onLink { modules := [(0, { checking := true })] } with fabric := { commonFeatures := 1 } }, by decide +kernel, by decide +kernel, fun k => by cases k <;> exact ⟨rfl, rfl⟩, by decide +kernel⟩,
    ⟨0, 0, {}, State.reset, by decide +kernel⟩,
    ⟨0, 0, onLink { modules := [(0, { retraining := true })] }, by decide +kernel, fun k => by cases k <;> exact ⟨rfl, rfl⟩⟩,
    ⟨0, 0, onLink { modules := [(0, { st := .full })] }, by decide +kernel⟩,
    ⟨0, 0, onLink { handover := true }, by decide +kernel⟩,
    ⟨0, 5, State.reset, by decide +kernel⟩⟩

theorem test_meets_FabricPortsAndPacketsAct :
  (∃ (p : PortId) (lanes : BitVec 8) (pl : Fin 4) (j6 : Bool) (partner : BitVec 16) (s : State), bit (s.port p).cfg.toNat 0 = true ∧ (s.port p).state = 1 ∧ pl.val = p.val / 6 ∧ j6 = bit (s.port p).cfg.toNat 1 ∧ trainedWidth lanes.toNat ≠ 0 ∧ s.fabric.isRoot = false) ∧
  (∃ (p : PortId) (lanes : BitVec 8) (pl : Fin 4) (j6 : Bool) (partner : BitVec 16) (s : State), bit (s.port p).cfg.toNat 0 = true ∧ (s.port p).state = 3 ∧ pl.val = p.val / 6 ∧ j6 = bit (s.port p).cfg.toNat 1 ∧ trainedWidth lanes.toNat ≠ 0) ∧
  (∃ (p : PortId) (lanes : BitVec 8) (pl : Fin 4) (j6 : Bool) (partner : BitVec 16) (s : State), bit (s.port p).cfg.toNat 0 = true ∧ (s.port p).state = 1 ∧ pl.val ≠ p.val / 6 ∧ (s.port p).violTimes = []) ∧
  (∃ (p : PortId) (lanes : BitVec 8) (pl : Fin 4) (j6 : Bool) (partner : BitVec 16) (s : State), bit (s.port p).cfg.toNat 0 = false) ∧
  (∃ (p : PortId) (s : State), (s.port p).state = 1 ∧ (s.port p).trainFail = 0) ∧
  (∃ (p : PortId) (s : State), (s.port p).state = 1 ∧ (s.port p).trainFail = 2 ∧ (s.port p).outq = [] ∧ (s.port p).violTimes = [] ∧ s.fabric.isRoot = false) ∧
  (∃ (p : PortId) (s : State), (s.port p).state = 2 ∧ (s.port p).outq = [] ∧ s.fabric.isRoot = false) ∧
  (∃ (p : PortId) (s : State), (s.port p).state = 0) ∧
  (∃ (p : PortId) (f : List Byte) (s : State), (s.port p).state ≠ 2) ∧
  (∃ (p : PortId) (f : List Byte) (s : State), (s.port p).state = 2 ∧ f.length = 256 ∧ crc32c (f.take 252) ≠ fb f 252 4) ∧
  (∃ (p : PortId) (f : List Byte) (s : State), (s.port p).state = 2 ∧ f.length = 256 ∧ crc32c (f.take 252) = fb f 252 4 ∧ flitClean f = true ∧ fb f 0 8 % 16 = 2 ∧ slice (fb f 0 8) 17 6 = (s.port p).rxNext.toNat ∧ bit (fb f 0 8) 30 = false ∧ (s.port p).replayTimes = [] ∧ (s.port p).unacked (fb f 0 8) ≤ 2048) ∧
  (∃ (p : PortId) (f : List Byte) (s : State) (k : _), (s.port p).state = 2 ∧ f.length = 256 ∧ crc32c (f.take 252) = fb f 252 4 ∧ flitClean f = true ∧ fb f 0 8 % 16 = 0 ∧ slice (fb f 0 8) 17 6 = (s.port p).rxNext.toNat ∧ bit (fb f 0 8) 30 = false ∧ (s.port p).replayTimes = [] ∧ (s.port p).unacked (fb f 0 8) ≤ 2048 ∧ Map.get 0 (s.port p).owed (slice (fb f 0 8) 5 4) < classBuffer (slice (fb f 0 8) 5 4) ∧ Map.get [] (s.port p).partial_ (slice (fb f 0 8) 5 4) = [] ∧ k = packetOf (bytesAt f 8 240) ∧ k.len.toNat ≤ 208 ∧ ((∀ b ∈ (bytesAt f 8 240).drop (32 + k.len.toNat), b = 0)) ∧ packetOpOk k.op.toNat = true ∧ packetClean k = true ∧ s.packetHere (p.val / 6) k = true ∧ s.power.state ≠ .idle) ∧
  (∃ (x : Port), x.j6 = false ∧ ((x.tc2Wait < 31 ∨ x.ready 2 = false)) ∧ x.ready 0 = true) ∧
  (∃ (x : Port), x.j6 = false ∧ ((x.tc2Wait < 31 ∨ x.ready 2 = false)) ∧ x.ready 0 = false ∧ x.ready 3 = true ∧ x.tc3Gap = 0) ∧
  (∃ (x : Port), x.j6 = false ∧ ((x.tc2Wait < 31 ∨ x.ready 2 = false)) ∧ x.ready 0 = false ∧ (x.ready 3 = false ∨ x.tc3Gap ≠ 0) ∧ x.ready 1 = true) ∧
  (∃ (x : Port), x.j6 = false ∧ ((x.tc2Wait < 31 ∨ x.ready 2 = false)) ∧ x.ready 0 = false ∧ (x.ready 3 = false ∨ x.tc3Gap ≠ 0) ∧ x.ready 1 = false ∧ x.ready 2 = true) ∧
  (∃ (x : Port), x.j6 = false ∧ 31 ≤ x.tc2Wait ∧ x.ready 2 = true) ∧
  (∃ (x : Port) (c : _) (k : _), x.resend = [] ∧ x.nextClass = some c ∧ c < 4 ∧ Map.get [] x.cut c = [] ∧ x.outq = [k] ∧ k.tc = c ∧ k.data.length = k.len.toNat ∧ k.len.toNat ≤ 208) ∧
  (∃ (d : DieId) (k : Packet) (s : State) (l : _) (u : _), k.op = 1 ∧ fb k.arg 0 4 ≤ 1024 ∧ (s.takeRx k).readMem (s.fabricAcc d k) k.local (fb k.arg 0 4) = (.ok l, u)) ∧
  (∃ (d : DieId) (k : Packet) (s : State) (e : _) (u : _), k.op = 1 ∧ fb k.arg 0 4 ≤ 1024 ∧ (s.takeRx k).readMem (s.fabricAcc d k) k.local (fb k.arg 0 4) = (.error e, u)) ∧
  (∃ (d : DieId) (k : Packet) (s : State) (u : _), k.op = 3 ∧ (s.takeRx k).writeMem (s.fabricAcc d k) k.local (bytesAt k.data 0 k.len.toNat) = (none, u)) ∧
  (∃ (d : DieId) (k : Packet) (s : State) (e : _) (u : _), k.op = 3 ∧ (s.takeRx k).writeMem (s.fabricAcc d k) k.local (bytesAt k.data 0 k.len.toNat) = (some e, u)) ∧
  (∃ (d : DieId) (k : Packet) (s : State) (q : RemoteReq), q ∈ (s.die k.die).remote ∧ q.tag = k.tag.toNat ∧ q.done = false ∧ k.op = 2 ∧ q.op = 1) ∧
  (∃ (d : DieId) (k : Packet) (s : State) (q : RemoteReq), q ∈ (s.die k.die).remote ∧ q.tag = k.tag.toNat ∧ q.done = false ∧ k.op = 4 ∧ q.op = 3) ∧
  (∃ (d : DieId) (k : Packet) (s : State), k.op = 5 ∧ s.pool.msgs = [] ∧ s.pool.agents = []) ∧
  (∃ (d : DieId) (k : Packet) (s : State), k.op = 5) ∧
  (∃ (d : DieId) (k : Packet) (s : State) (src : _) (o : _), k.op = 6 ∧ (s.die k.die).signals = [(k.tag.toNat, src)] ∧ (s.die k.die).inflight.find? (fun o => decide (o.src = src)) = some o) ∧
  (∃ (d : DieId) (k : Packet) (s : State) (q : _), k.op = 0x0F ∧ (s.die k.die).remote.find? (fun q => decide (q.tag = k.tag.toNat) && !q.done) = some q) :=
  ⟨⟨0, 0xFF, 0, false, 5, onPort { state := 1 }, by decide +kernel⟩,
    ⟨0, 0xFF, 0, false, 5, onPort { state := 3 }, by decide +kernel⟩,
    ⟨0, 0xFF, 1, false, 5, onPort { state := 1 }, by decide +kernel⟩,
    ⟨0, 0xFF, 0, false, 5, onPort { cfg := 0 }, by decide +kernel⟩,
    ⟨0, onPort { state := 1 }, by decide +kernel⟩,
    ⟨0, onPort { state := 1, trainFail := 2 }, by decide +kernel⟩,
    ⟨0, onPort { state := 2 }, by decide +kernel⟩,
    ⟨0, State.reset, by decide +kernel⟩,
    ⟨0, [], State.reset, by decide +kernel⟩,
    ⟨0, zeros 256, onPort { state := 2 }, by decide +kernel⟩,
    ⟨0, fabFlit (2 + 4095 * 2 ^ 18), onPort { state := 2 }, by decide +kernel⟩,
    ⟨0, dataFlit (4095 * 2 ^ 18) ([5, 0, 0, 0, 5] ++ zeros 27), onFabric { node := 5 }, _, by decide +kernel, by decide +kernel, by decide +kernel, by decide +kernel, by decide +kernel, by decide +kernel, by decide +kernel, by decide +kernel, by decide +kernel, by decide +kernel, by decide +kernel, rfl, by decide +kernel, by decide +kernel, by decide +kernel, by decide +kernel, by decide +kernel, by decide +kernel⟩,
    ⟨{ outq := [pk 8 [] []], credits := [(0, 1)] }, by decide +kernel⟩,
    ⟨{ cut := [(3, [1])], credits := [(3, 1)] }, by decide +kernel⟩,
    ⟨{ cut := [(1, [1]), (3, [1])], credits := [(1, 1), (3, 1)], tc3Gap := 1 }, by decide +kernel⟩,
    ⟨{ cut := [(2, [1])], credits := [(2, 1)] }, by decide +kernel⟩,
    ⟨{ cut := [(0, [1]), (2, [1])], credits := [(0, 1), (2, 1)], tc2Wait := 31 }, by decide +kernel⟩,
    ⟨{ outq := [pk 5 [] [1]], credits := [(0, 1), (1, 1), (2, 1), (3, 1)] }, (pk 5 [] [1]).tc, pk 5 [] [1], by decide +kernel⟩,
     (read_ok (p := (keyed.takeRx (pk 1 (leBytes 4 4) [])).readMem (keyed.fabricAcc (0 : DieId) (pk 1 (leBytes 4 4) [])) (pk 1 (leBytes 4 4) []).local (fb (pk 1 (leBytes 4 4) []).arg 0 4)) (by decide +kernel)).elim fun c h => ⟨0, pk 1 (leBytes 4 4) [], keyed, c, _, by decide +kernel, by decide +kernel, h⟩,
     (read_err (p := (State.reset.takeRx (pk 1 (leBytes 4 4) [])).readMem (State.reset.fabricAcc (0 : DieId) (pk 1 (leBytes 4 4) [])) (pk 1 (leBytes 4 4) []).local (fb (pk 1 (leBytes 4 4) []).arg 0 4)) (by decide +kernel)).elim fun c h => ⟨0, pk 1 (leBytes 4 4) [], State.reset, c, _, by decide +kernel, by decide +kernel, h⟩,
    ⟨0, pk 3 [] [1, 2], keyed, _, by decide +kernel, write_ok (by decide +kernel)⟩,
    ⟨0, pk 3 [] [1], fenced0 keyed, _, _, by decide +kernel, rfl⟩,
    ⟨0, pk 2 [] [], onDie { remote := [⟨0, .stream 0 0, 1, 0, 0, 0, [], false⟩] }, ⟨0, .stream 0 0, 1, 0, 0, 0, [], false⟩, by decide +kernel⟩,
    ⟨0, pk 4 [] [], onDie { remote := [⟨0, .stream 0 0, 3, 0, 0, 0, [], false⟩] }, ⟨0, .stream 0 0, 3, 0, 0, 0, [], false⟩, by decide +kernel⟩,
    ⟨0, pk 5 [] [], State.reset, by decide +kernel⟩,
    ⟨0, pk 5 [] [], State.reset, by decide +kernel⟩,
    ⟨0, pk 6 [] [], onDie { signals := [(0, .stream 0 0)], inflight := [{ src := .stream 0 0, raw := move0 }] }, .stream 0 0, _, by decide +kernel, by decide +kernel, rfl⟩,
    ⟨0, pk 0x0F [] [], onDie { remote := [⟨0, .stream 0 0, 3, 0, 0, 0, [], false⟩] }, ⟨0, .stream 0 0, 3, 0, 0, 0, [], false⟩, by decide +kernel⟩⟩

theorem test_meets_FabricIsDiscoveredAndTimed :
  (∃ (p : PortId) (k : Packet) (s : State), k.op = 0x20 ∧ fb k.arg 10 1 ≤ fb k.arg 11 1) ∧
  (∃ (p : PortId) (k : Packet) (s : State), k.op = 0x20 ∧ fb k.arg 11 1 < fb k.arg 10 1 ∧ s.fabric.node = 0) ∧
  (∃ (p : PortId) (k : Packet) (s : State), k.op = 0x20 ∧ fb k.arg 11 1 < fb k.arg 10 1 ∧ s.fabric.node ≠ 0 ∧ fb k.data (fb k.arg 11 1) 1 < 6) ∧
  (∃ (p : PortId) (k : Packet) (s : State), k.op = 0x21 ∧ fb k.arg 11 1 = 0 ∧ s.fabric.probes = []) ∧
  (∃ (p : PortId) (k : Packet) (s : State) (q : _), k.op = 0x21 ∧ fb k.arg 11 1 = 0 ∧ s.fabric.walking = false ∧ s.fabric.probes = [q] ∧ q.tag = k.tag.toNat ∧ q.rootPort = p.val ∧ k.src = 0) ∧
  (∃ (p : PortId) (k : Packet) (s : State), k.op = 0x22 ∧ fb k.arg 10 1 ≤ fb k.arg 11 1 ∧ (s.fabric.root = 0 ∨ k.src ≠ s.fabric.root)) ∧
  (∃ (p : PortId) (k : Packet) (s : State), k.op = 0x22 ∧ fb k.arg 10 1 ≤ fb k.arg 11 1 ∧ s.fabric.root ≠ 0 ∧ k.src = s.fabric.root ∧ fb k.arg 0 1 = 0) ∧
  (∃ (p : PortId) (k : Packet) (s : State), k.op = 0x22 ∧ fb k.arg 10 1 ≤ fb k.arg 11 1 ∧ s.fabric.root ≠ 0 ∧ k.src = s.fabric.root ∧ fb k.arg 0 1 = 1) ∧
  (∃ (p : PortId) (k : Packet) (s : State) (n : _), k.op = 0x22 ∧ fb k.arg 10 1 ≤ fb k.arg 11 1 ∧ s.fabric.root ≠ 0 ∧ k.src = s.fabric.root ∧ fb k.arg 0 1 = 2 ∧ s.fabric.newNode = some n) ∧
  (∃ (k : Packet) (s : State), k.op = 0x23 ∧ s.fabric.node ≠ 0) ∧
  (∃ (plan : Map (BitVec 16)) (s : State), ((∃ p < 24, s.portUp p = true))) ∧
  (∃ (p : PortId) (sent : DWord) (heard : DWord) (s : State) (delay : _), s.fabric.upstream = some p.val ∧ s.portUp p = true ∧ s.fabric.joining = true ∧ delay = (((s.timeNs : Int) - sent.toNat + heard.toInt) / 2).toNat) ∧
  (∃ (p : PortId) (sent : DWord) (heard : DWord) (s : State) (delay : _), s.fabric.upstream = some p.val ∧ s.portUp p = true ∧ s.fabric.joining = false ∧ delay = (((s.timeNs : Int) - sent.toNat + heard.toInt) / 2).toNat ∧ s.timeNs + 1 ≤ sent.toNat + delay ∧ sent.toNat + delay ≤ s.timeNs + 1000) ∧
  (∃ (p : PortId) (sent : DWord) (heard : DWord) (s : State), s.fabric.upstream ≠ some p.val ∧ s.portUp p = true) ∧
  (∃ (p : PortId) (sent : DWord) (heard : DWord) (s : State), s.portUp p = false) ∧
  (∃ (p : PortId) (s : State), s.portUp p = true) ∧
  (∃ (p : PortId) (s : State), s.portUp p = false) ∧
  (∃ (p : _) (r : _) (s : State), s.fabric.upstream = some p ∧ s.fabric.reserve = some r ∧ r ≠ p ∧ s.portUp r = true) ∧
  (∃ (p : _) (s : State), s.fabric.upstream = some p ∧ s.fabric.reserve = none) ∧
  (∃ (s : State), s.fabric.holdover = true) ∧
  (∃ (s : State), s.fabric.holdover = false ∧ s.fabric.refHoldover = false) :=
  ⟨⟨0, pk 0x20 [] [], State.reset, by decide +kernel⟩,
    ⟨0, pk 0x20 (zeros 10 ++ [1, 0]) [], State.reset, by decide +kernel⟩,
    ⟨0, pk 0x20 [0, 0, 0, 0, 0, 0, 0, 0, 0, 0, 1, 0] [2], onFabric { node := 5 }, by decide +kernel⟩,
    ⟨0, pk 0x21 [] [], State.reset, by decide +kernel⟩,
    ⟨0, pk 0x21 [] [], onFabric { probes := [⟨0, 0, [], 0, 0⟩] }, ⟨0, 0, [], 0, 0⟩, by decide +kernel⟩,
    ⟨0, pk 0x22 [] [], State.reset, by decide +kernel⟩,
    ⟨0, { pk 0x22 [0] [] with src := 5 }, onFabric { root := 5 }, by decide +kernel⟩,
    ⟨0, { pk 0x22 [1] [] with src := 5 }, onFabric { root := 5 }, by decide +kernel⟩,
    ⟨0, { pk 0x22 [2] [] with src := 5 }, onFabric { root := 5, newNode := some 7 }, 7, by decide +kernel⟩,
    ⟨pk 0x23 [] [], onFabric { node := 5 }, by decide +kernel⟩,
    ⟨[], onFabric {}, by decide +kernel⟩,
    ⟨0, 5, 5, onFabric { upstream := some 0, joining := true }, _, by decide +kernel, by decide +kernel, by decide +kernel, rfl⟩,
    ⟨0, 5, 5, onFabric { upstream := some 0 }, _, by decide +kernel, by decide +kernel, by decide +kernel, rfl, by decide +kernel, by decide +kernel⟩,
    ⟨0, 5, 5, onFabric {}, by decide +kernel⟩,
    ⟨1, 5, 5, onFabric { upstream := some 0 }, by decide +kernel⟩,
    ⟨0, onFabric {}, by decide +kernel⟩,
    ⟨1, onFabric { upstream := some 0 }, by decide +kernel⟩,
    ⟨5, 0, onFabric { upstream := some 5, reserve := some 0 }, by decide +kernel⟩,
    ⟨5, onFabric { upstream := some 5 }, by decide +kernel⟩,
    ⟨onFabric { holdover := true }, by decide +kernel⟩,
    ⟨State.reset, by decide +kernel⟩⟩

theorem test_meets_BeaconMessagesTravelTheTree :
  (∃ (m : BeaconMsg) (s : State) (j : _), s.fabric.beaconVersion = 1 ∧ s.lantern.job = some j ∧ j.jobId = m.jobId ∧ j.rank ≠ 0 ∧ m.rank = (j.rank - 1) / 4 ∧ s.fabric.beacon.seq < m.seq) ∧
  (∃ (m : BeaconMsg) (s : State) (j : _), s.lantern.job = some j ∧ j.jobId = m.jobId ∧ m.seq ≤ s.fabric.beacon.seq ∧ s.fabric.beaconVersion = 1) ∧
  (∃ (m : BeaconMsg) (s : State), s.lantern.job = none) ∧
  (∃ (m : BeaconMsg) (s : State) (j : _) (a : _), s.fabric.beaconVersion = 1 ∧ s.lantern.job = some j ∧ j.jobId = m.jobId ∧ s.fabric.beacon.arm = some a ∧ a.seq = m.seq ∧ s.fabric.beacon.root = true ∧ s.fabric.beacon.ownStatus = 0 ∧ j.rank = 0 ∧ j.nranks = 2 ∧ m.rank = 1 ∧ m.armed = 1 ∧ m.status = 0 ∧ s.fabric.beacon.acks = [] ∧ s.fabric.beacon.sent = false ∧ s.timeNs + 10000 ≤ a.start.toNat) ∧
  (∃ (m : BeaconMsg) (s : State) (j : _) (a : _), s.fabric.beaconVersion = 1 ∧ s.lantern.job = some j ∧ j.jobId = m.jobId ∧ s.fabric.beacon.arm = some a ∧ a.seq = m.seq ∧ s.fabric.beacon.root = true ∧ s.fabric.beacon.ownStatus = 0 ∧ j.rank = 0 ∧ j.nranks = 2 ∧ m.rank = 1 ∧ m.armed = 1 ∧ m.status = 0 ∧ s.fabric.beacon.acks = [] ∧ s.fabric.beacon.sent = false ∧ a.start.toNat < s.timeNs + 10000) ∧
  (∃ (m : BeaconMsg) (s : State), s.fabric.beacon.arm = none) ∧
  (∃ (m : BeaconMsg) (s : State) (j : _) (a : _), s.fabric.beaconVersion = 1 ∧ s.lantern.job = some j ∧ j.jobId = m.jobId ∧ s.fabric.beacon.arm = some a ∧ a.seq = m.seq ∧ s.timeNs ≤ m.start.toNat) ∧
  (∃ (m : BeaconMsg) (s : State) (j : _) (a : _), s.fabric.beaconVersion = 1 ∧ s.lantern.job = some j ∧ j.jobId = m.jobId ∧ s.fabric.beacon.arm = some a ∧ a.seq = m.seq ∧ m.start.toNat < s.timeNs) ∧
  (∃ (m : BeaconMsg) (s : State) (j : _) (a : _), s.fabric.beaconVersion = 1 ∧ s.lantern.job = some j ∧ j.jobId = m.jobId ∧ s.fabric.beacon.arm = some a ∧ a.seq = m.seq) ∧
  (∃ (s : State) (j : _) (a : _) (r : _), s.lantern.job = some j ∧ s.fabric.beacon.root = true ∧ s.fabric.beacon.arm = some a ∧ s.fabric.beacon.request = some r ∧ s.fabric.beacon.change = false ∧ j.resuming = false) ∧
  (∃ (s : State), s.fabric.beacon.root = false) :=
  ⟨⟨bm 0 1 100000 0, onBeacon (ofTwo 1) {}, ofTwo 1, by decide +kernel⟩,
    ⟨bm 0 0 100000 0, onBeacon (ofTwo 1) {}, ofTwo 1, by decide +kernel⟩,
    ⟨bm 0 1 100000 0, State.reset, by decide +kernel⟩,
    ⟨bm 1 1 100000 1, onBeacon (ofTwo 0) { arm := some (bm 0 1 100000 0), root := true }, ofTwo 0, bm 0 1 100000 0, by decide +kernel⟩,
    ⟨bm 1 1 0 1, onBeacon (ofTwo 0) { arm := some (bm 0 1 0 0), root := true }, ofTwo 0, bm 0 1 0 0, by decide +kernel⟩,
    ⟨bm 1 1 100000 1, State.reset, by decide +kernel⟩,
    ⟨bm 0 1 100000 0, onBeacon (ofTwo 1) { arm := some (bm 0 1 100000 0) }, ofTwo 1, bm 0 1 100000 0, by decide +kernel⟩,
    ⟨bm 0 1 0 0, { onBeacon (ofTwo 1) { arm := some (bm 0 1 100000 0) } with timeNs := 5 }, ofTwo 1, bm 0 1 100000 0, by decide +kernel⟩,
    ⟨bm 0 1 0 0, onBeacon (ofTwo 1) { arm := some (bm 0 1 100000 0) }, ofTwo 1, bm 0 1 100000 0, by decide +kernel⟩,
    ⟨onBeacon (ofTwo 0) { arm := some (bm 0 1 0 0), root := true, request := some (ask .os []) }, ofTwo 0, bm 0 1 0 0, ask .os [], by decide +kernel⟩,
    ⟨State.reset, by decide +kernel⟩⟩

theorem test_meets_CollectivesCheckWaitAndAbort :
  (∃ (d : DieId) (e : CeId) (k : Packet) (s : State) (st : _) (have_ : _) (n : _) (l : _), k.op = 7 ∧ kindOf k = 0 ∧ (s.ce d e).steps = [st] ∧ (s.ce d e).step (collOf k) (stepOf k) = some st ∧ rankOf k < st.ranks.length ∧ have_ = Map.get [] st.got (rankOf k) ∧ k.addr.toNat % 2 ^ 22 = have_.length % 2 ^ 22 ∧ ((st.checked.contains (rankOf k) = true ∧ n = 0 ∨ (st.checked.contains (rankOf k) = false ∧ n = 4 ∧ 4 ≤ k.len.toNat ∧ fb k.data 0 4 = checkValue st.raw st.ranks))) ∧ l = (bytesAt k.data 0 k.len.toNat).drop n ∧ st.received (rankOf k) + l.length ≤ Map.get 0 st.granted (rankOf k) ∧ (s.ce d e).waitRank ≠ some (rankOf k)) ∧
  (∃ (d : DieId) (e : CeId) (k : Packet) (s : State) (st : _), k.op = 7 ∧ (s.ce d e).step (collOf k) (stepOf k) = some st ∧ st.checked.contains (rankOf k) = false ∧ 4 ≤ k.len.toNat ∧ fb k.data 0 4 ≠ checkValue st.raw st.ranks) ∧
  (∃ (d : DieId) (e : CeId) (k : Packet) (s : State), k.op = 7 ∧ (s.ce d e).step (collOf k) (stepOf k) = none ∧ ((∀ p, (s.port p).violTimes = [] ∧ (s.port p).state ≠ 2))) ∧
  (∃ (d : DieId) (e : CeId) (k : Packet) (s : State) (st : _), k.op = 8 ∧ kindOf k = 0 ∧ (s.ce d e).steps = [st] ∧ (s.ce d e).step (collOf k) (stepOf k) = some st ∧ st.checked.contains (rankOf k) = true ∧ (s.ce d e).waitRank ≠ some (rankOf k)) ∧
  (∃ (d : DieId) (e : CeId) (k : Packet) (s : State), k.op = 8 ∧ kindOf k = 0 ∧ s.engines = [] ∧ (s.ce d e).steps = [] ∧ (s.ce d e).waitRank ≠ some (rankOf k)) ∧
  (∃ (d : DieId) (e : CeId) (k : Packet) (s : State), k.op ≠ 8) ∧
  (∃ (d : DieId) (e : CeId) (k : Packet) (s : State), k.op = 8 ∧ kindOf k = 1 ∧ (s.ce d e).step (collOf k) (stepOf k) = none) ∧
  (∃ (d : DieId) (e : CeId) (k : Packet) (s : State) (st : _) (l : _), k.op = 8 ∧ kindOf k = 1 ∧ (s.ce d e).steps = st :: l ∧ (s.ce d e).step (collOf k) (stepOf k) = some st ∧ st.greeted.contains (rankOf k) = true ∧ k.len.toNat < 4) ∧
  (∃ (d : DieId) (e : CeId) (k : Packet) (s : State) (st : _), k.op = 8 ∧ kindOf k = 1 ∧ (s.ce d e).steps = [st] ∧ (s.ce d e).step (collOf k) (stepOf k) = some st ∧ st.greeted.contains (rankOf k) = false ∧ rankOf k < st.ranks.length ∧ k.len.toNat < 4) ∧
  (∃ (d : DieId) (e : CeId) (k : Packet) (s : State) (n : _), k.op = 8 ∧ kindOf k = 2 ∧ (s.ce d e).probing = some n ∧ ((∀ st, (s.ce d e).step (collOf k) (stepOf k) = some st → k.len.toNat < 12 ∨ fb k.data 0 4 = checkValue st.raw st.ranks))) ∧
  (∃ (d : DieId) (e : CeId) (k : Packet) (s : State), k.op = 8 ∧ kindOf k = 3 ∧ collOf k ∈ (s.ce d e).aborted) ∧
  (∃ (d : DieId) (e : CeId) (k : Packet) (s : State), k.op = 8 ∧ kindOf k = 3 ∧ collOf k ∉ (s.ce d e).aborted ∧ (s.ce d e).steps = []) ∧
  (∃ (d : DieId) (e : CeId) (rank : Word) (s : State) (st : _) (l : _), (s.ce d e).steps = st :: l ∧ rank.toNat < st.ranks.length ∧ rank.toNat ≠ (collFields st.raw).rank ∧ s.isLocal (st.ranks.getD rank.toNat 0) = false) ∧
  (∃ (d : DieId) (e : CeId) (rank : Word) (s : State), (s.ce d e).steps = []) ∧
  (∃ (d : DieId) (e : CeId) (rank : Word) (s : State), (s.ce d e).steps = [] ∧ s.engines = []) ∧
  (∃ (d : DieId) (e : CeId) (rank : Word) (s : State) (st : _) (p : _) (n : _) (j : _), (s.ce d e).steps = [st] ∧ st.src = .stream p n ∧ (s.ce d e).probing = some rank.toNat ∧ s.lantern.job = some j ∧ j.state = 3 ∧ j.failStatus = 0 ∧ (s.localPeers st) = []) ∧
  (∃ (d : DieId) (e : CeId) (s : State) (st : _) (p : _) (n : _) (j : _), s.engines = [(d.val, e.val)] ∧ (s.ce d e).steps = [st] ∧ st.src = .stream p n ∧ st.started = false ∧ ((∀ o ∈ (s.die d).inflight, o.src = st.src → o.status = 0)) ∧ s.badTable d e (collFields st.raw) st.ranks = true ∧ s.lantern.job = some j ∧ j.state = 3 ∧ j.failStatus = 0 ∧ (s.localPeers st) = []) ∧
  (∃ (d : DieId) (e : CeId) (s : State) (v : State) (st : _) (r : _), s.collGo = v ∧ (v.ce d e).steps = st :: r ∧ st.started = true ∧ st.rounds ≤ st.round ∧ st.out = [] ∧ st.outCeil = [] ∧ v.allPassed st = true ∧ st.writing = false ∧ st.b = none) ∧
  (∃ (d : DieId) (e : CeId) (s : State) (v : State) (st : _) (r : _) (b : _) (y : _) (w : _), s.collGo = v ∧ (v.ce d e).steps = st :: r ∧ st.started = true ∧ st.rounds ≤ st.round ∧ st.out = [] ∧ st.outCeil = [] ∧ v.allPassed st = true ∧ st.writing = false ∧ st.b = some b ∧ b.remote = false ∧ (collFields st.raw).op ≠ 6 ∧ bit (collFields st.raw).fl 2 = false ∧ writePieces (ceAcc (v.stepOwner d st) d e b) (codePieces b st.rep st.result none) v = (y, w)) :=
  ⟨⟨0, 0, pk 7 [] [], onCe { steps := [step0 [0]] }, step0 [0], [], 0, [], by decide +kernel⟩,
    ⟨0, 0, pk 7 [] [1, 1, 1, 1], onCe { steps := [{ step0 [0] with checked := [] }] }, { step0 [0] with checked := [] }, by decide +kernel⟩,
    ⟨0, 0, pk 7 [] [], State.reset, by decide +kernel, by decide +kernel, fun p => ⟨rfl, by show (0 : BitVec 3) ≠ 2; decide⟩⟩,
    ⟨0, 0, pk 8 [] [], onCe { steps := [step0 [0]] }, step0 [0], by decide +kernel⟩,
    ⟨0, 0, pk 8 [] [], State.reset, by decide +kernel⟩,
    ⟨0, 0, pk 0 [] [], State.reset, by decide +kernel⟩,
    ⟨0, 0, pk 8 (zeros 6 ++ [1]) [], State.reset, by decide +kernel⟩,
    ⟨0, 0, pk 8 (zeros 6 ++ [1]) [], onCe { steps := [{ step0 [0] with greeted := [0] }] }, { step0 [0] with greeted := [0] }, [], by decide +kernel⟩,
    ⟨0, 0, pk 8 (zeros 6 ++ [1]) [], onCe { steps := [step0 [0]] }, step0 [0], by decide +kernel⟩,
    ⟨0, 0, pk 8 (zeros 6 ++ [2]) [], onCe { probing := some 0 }, 0, by decide +kernel, by decide +kernel, by decide +kernel, fun _ h => nomatch h⟩,
    ⟨0, 0, pk 8 (zeros 6 ++ [3]) [], onCe { aborted := [0] }, by decide +kernel⟩,
    ⟨0, 0, pk 8 (zeros 6 ++ [3]) [], State.reset, by decide +kernel⟩,
    ⟨0, 0, 1, onCe { steps := [step0 [0, 0xFFFFF]] }, step0 [0, 0xFFFFF], [], by decide +kernel⟩,
    ⟨0, 0, 0, State.reset, by decide +kernel⟩,
    ⟨0, 0, 0, State.reset, by decide +kernel⟩,
    ⟨0, 0, 0, onCe { steps := [step0 [0]], probing := some 0 }, step0 [0], 0, 0, { job0 with state := 3 }, by decide +kernel⟩,
    ⟨0, 0, onCe { steps := [step0 [0xFFFFF]] }, step0 [0xFFFFF], 0, 0, { job0 with state := 3 }, by decide +kernel⟩,
    ⟨0, 0, onCe { steps := [{ step0 [0] with started := true, round := 1 }] }, _, { step0 [0] with started := true, round := 1 }, [], rfl, by decide +kernel, by decide +kernel, by decide +kernel, by decide +kernel, by decide +kernel, by decide +kernel, by decide +kernel, by decide +kernel⟩,
    ⟨0, 0, onCe { steps := [{ step0 [0] with started := true, round := 1, b := some (row0 .memory 0) }] }, _, { step0 [0] with started := true, round := 1, b := some (row0 .memory 0) }, [], row0 .memory 0, _, _, rfl, by decide +kernel, by decide +kernel, by decide +kernel, by decide +kernel, by decide +kernel, by decide +kernel, by decide +kernel, by decide +kernel, by decide +kernel, by decide +kernel, by decide +kernel, rfl⟩⟩

theorem test_meets_HostWindowsAndRestarts :
  (∃ (r : BitVec 12) (a : DWord) (v : Word) (h : _) (s : State), s.domainOn .pe1 = true ∧ h < 96 ∧ a.toNat = 0x0F0003000000 + h * 0x1000 ∧ 1 ≤ v.toNat ∧ v.toNat ≤ 2047) ∧
  (∃ (r : BitVec 12) (a : DWord) (v : Word) (s : State), s.domainOn .pe1 = true ∧ (a.toNat < 0x0F0003000000 ∨ 0x0F0003060000 ≤ a.toNat)) ∧
  (∃ (o : BitVec 29) (n : Nat) (s : State), s.domainOn .pe0 = true ∧ s.host.restarting = true) ∧
  (∃ (o : BitVec 29) (l : List Byte) (s : State), s.domainOn .pe0 = true ∧ s.host.restarting = true) ∧
  (∃ (o : BitVec 29) (l : List Byte) (s : State) (u : _), s.power.state = .active ∧ s.host.restarting = false ∧ s.host.readAhead = [] ∧ s.writeMem ⟨3, 2, .bar2, slice s.host.winBase.toNat 5 0, false⟩ (slice s.host.winBase.toNat 47 21 * 2 ^ 21 + o.toNat) l = (none, u)) ∧
  (∃ (o : BitVec 29) (n : Nat) (s : State), s.power.state = .active ∧ s.host.restarting = false ∧ s.host.readAhead = [] ∧ 0 < n ∧ s.holds .bar2 (slice s.host.winBase.toNat 5 0) = false) ∧
  (∃ (o : BitVec 29) (a : Access) (s : State), s.power.state = .pilot ∧ s.host.restarting = false) ∧
  (∃ (o : BitVec 29) (a : Access) (s : State), s.power.state = .idle ∧ s.host.restarting = false ∧ s.holds .bar2 (slice s.host.winBase.toNat 5 0) = true) ∧
  (∃ (r : BitVec 12) (a : DWord) (n : Nat) (s : State), s.domainOn .pe1 = true ∧ s.host.pe1Root = true ∧ s.host.dma = []) ∧
  (∃ (r : BitVec 12) (a : DWord) (l : List Byte) (s : State) (k : _) (u : _), s.power.state = .active ∧ s.host.pe1Root = true ∧ s.dmaKey a.toNat l.length = some k ∧ s.writeMem ⟨4 + 16 * r.toNat, 2, .os, k, false⟩ a.toNat l = (none, u)) ∧
  (∃ (r : BitVec 12) (a : DWord) (v : Word) (x : Access) (s : State), s.domainOn .pe1 = false) ∧
  (∃ (s : State), s.host.pe1Root = true) ∧
  (∃ (s : State), s.host.pe1Root = false) ∧
  (∃ (os : Option OsStage) (s : State), (s.host.hbEnable = false ∨ s.lantern.handover = true ∨ (s.power.state ≠ .active ∧ s.power.state ≠ .idle))) ∧
  (∃ (os : Option OsStage) (s : State), s.host.hbEnable = true ∧ s.lantern.handover = false ∧ s.power.state = .active ∧ s.host.missed.toNat < 2) ∧
  (∃ (os : Option OsStage) (s : State), s.host.hbEnable = true ∧ s.lantern.handover = false ∧ s.power.state = .active ∧ s.host.missed.toNat = 2) ∧
  (∃ (os : Option OsStage) (s : State), s.power.state ≠ .active ∧ s.power.state ≠ .idle) ∧
  (∃ (s : State), s.power.state = .active) :=
  ⟨⟨0, 0x0F000305F000, 2047, 95, inState .active, by decide +kernel⟩,
    ⟨0, 0x0F0003060000, 1, inState .active, by decide +kernel⟩,
    ⟨0, 4, { inState .pilot with host := { restarting := true } }, by decide +kernel⟩,
    ⟨0, [1], { inState .pilot with host := { restarting := true } }, by decide +kernel⟩,
    ⟨0, [7], onHost {} [(0, { state := 1, bar2 := true })], _, by decide +kernel, by decide +kernel, by decide +kernel, write_ok (by decide +kernel)⟩,
    ⟨0, 1, onHost {}, by decide +kernel⟩,
    ⟨0, .read 4, inState .pilot, by decide +kernel⟩,
    ⟨0, .read 4, { onKeys [(0, { state := 1, bar2 := true })] with power := { state := .idle } }, by decide +kernel⟩,
    ⟨0, 0, 4, inState .active, by decide +kernel⟩,
    ⟨5, 0, [7], onHost { dma := [(0, 1)] } [(0, { state := 1, pe1 := true })], 0, _, by decide +kernel, by decide +kernel, by decide +kernel, write_ok (by decide +kernel)⟩,
    ⟨0, 0, 0, .read 4, inState .pilot, by decide +kernel⟩,
    ⟨State.reset, by decide +kernel⟩,
    ⟨onHost { pe1Root := false }, by decide +kernel⟩,
    ⟨none, State.reset, by decide +kernel⟩,
    ⟨none, onHost { hbEnable := true }, by decide +kernel⟩,
    ⟨none, onHost { hbEnable := true, missed := 2 }, by decide +kernel⟩,
    ⟨none, State.reset, by decide +kernel⟩,
    ⟨inState .active, by decide +kernel⟩⟩

theorem test_meets_RegistersReadAndWrite :
  (∃ (d : DieId) (q : Fin 16) (s : State), s.domainOn .noc = true) ∧
  (∃ (d : DieId) (c : Fin 4) (s : State), s.domainOn .noc = true) ∧
  (∃ (d : DieId) (s : State), s.domainOn .noc = true) ∧
  (∃ (c : CtrlId) (s : State), s.domainOn (if c.val < 12 then .noc else .unc) = true) ∧
  (∃ (e : LinkEnd) (s : State), s.domainOn (if e.val < 12 then .noc else .unc) = true) ∧
  (∃ (p : PortId) (s : State), s.domainOn .noc = true) ∧
  (∃ (d : DieId) (e : CeId) (s : State), s.domainOn .noc = true) ∧
  (∃ (eh : Bool) (s : State), s.domainOn .lnt = true) ∧
  (∃ (d : DieId) (q : Fin 16) (p : PortId) (e : CeId) (c : Nat) (s : State), s.domainOn .noc = false) ∧
  (∃ (w : RegAgent) (a : DWord) (v : DWord) (os : Option OsStage) (s : State), s.domainOn (agentDomain w) = false) ∧
  (∃ (h : HartId) (a : DWord) (v : DWord) (os : Option OsStage) (s : State), s.domainOn .cpu = true ∧ s.regFind a.toNat = none ∧ ((∀ b < 8, (Map.get {} (s.hart h).wc b).valid = false))) ∧
  (∃ (a : DWord) (v : DWord) (os : Option OsStage) (s : State) (d : _) (o : _), s.domainOn .lnt = true ∧ s.regFind a.toNat = some (.dc d o) ∧ o = 8 ∧ (s.die d).dc.locked = true) ∧
  (∃ (a : DWord) (v : DWord) (os : Option OsStage) (s : State) (d : _), s.domainOn .lnt = true ∧ s.regFind a.toNat = some (.dc d 8) ∧ d < 4 ∧ (s.die d).dc.locked = false) ∧
  (∃ (h : HartId) (a : DWord) (v : DWord) (os : Option OsStage) (s : State) (c : _), s.domainOn .cpu = true ∧ s.regFind a.toNat = some (.mc c 0x200)) ∧
  (∃ (h : HartId) (a : DWord) (v : DWord) (os : Option OsStage) (s : State) (k : _), s.domainOn .cpu = true ∧ s.regFind a.toNat = some (.intSteer k)) ∧
  (∃ (h : HartId) (a : DWord) (v : DWord) (os : Option OsStage) (s : State) (r : _), s.domainOn .cpu = true ∧ s.regFind a.toNat = some r ∧ (r = .secState ∨ r = .pwrStatus ∨ r = .timeNow ∨ r = .fwStatus)) ∧
  (∃ (h : HartId) (v : DWord) (os : Option OsStage) (s : State), s.domainOn .cpu = true) ∧
  (∃ (v : DWord) (os : Option OsStage) (s : State), s.domainOn .pe0 = true) ∧
  (∃ (o : BitVec 24) (n : Nat) (os : Option OsStage) (s : State), s.domainOn .pe0 = true ∧ s.regFind (0x0F0000000000 + s.host.regwin.toNat % 256 * 2 ^ 24 + o.toNat) = none) ∧
  (∃ (o : BitVec 24) (n : Nat) (os : Option OsStage) (s : State), s.domainOn .pe0 = true ∧ s.regFind (0x0F0000000000 + s.host.regwin.toNat % 256 * 2 ^ 24 + o.toNat) = some .timeNow) :=
  ⟨⟨0, 15, inState .active, by decide +kernel⟩,
    ⟨3, 3, inState .active, by decide +kernel⟩,
    ⟨3, inState .active, by decide +kernel⟩,
    ⟨27, inState .active, by decide +kernel⟩,
    ⟨15, inState .active, by decide +kernel⟩,
    ⟨23, inState .active, by decide +kernel⟩,
    ⟨3, 3, inState .active, by decide +kernel⟩,
    ⟨true, inState .pilot, by decide +kernel⟩,
    ⟨0, 0, 0, 0, 0, inState .pilot, by decide +kernel⟩,
    ⟨.host, 0, 0, none, State.reset, by decide +kernel⟩,
    ⟨0, 0x0F0000000000, 0, none, inState .active, by decide +kernel⟩,
    ⟨0x0F0010300008, 1, none, onDie { dc := { locked := true } }, 0, 8, by decide +kernel⟩,
    ⟨0x0F0010300008, 1, none, inState .active, 0, by decide +kernel⟩,
    ⟨0, 0x0F0080000200, 0, none, inState .active, 0, by decide +kernel⟩,
    ⟨0, 0x0F0000010000, 0, none, inState .active, 0, by decide +kernel⟩,
    ⟨0, 0x0F0000500008, 0, none, inState .active, .timeNow, by decide +kernel⟩,
    ⟨0, 1, none, inState .active, by decide +kernel⟩,
    ⟨255, none, inState .pilot, by decide +kernel⟩,
    ⟨0, 4, none, inState .active, by decide +kernel⟩,
    ⟨0x500008, 4, none, inState .active, by decide +kernel⟩⟩

/-! ## Well-formed commands: each check refuses an ill-formed term -/

/-- A request with a payload of n zero bytes. -/
def sized (n : Nat) : Request := ask .os (zeros n)

/-- A report of a start that meets nothing wrong, with the tile tests given for TD0. -/
def reported (tiles : Map TileTest) (lanes : Map LaneResult) : StartReport :=
  let d : DieReport := ⟨0, none, [], [], [], [], [], [], none, [], true, true⟩
  ⟨0, false, none, true, { d with tiles := tiles }, d, d, d, ⟨0, 0, 0, 0⟩, lanes, [], [], none, 0, none⟩

/-- A packet of an operation. -/
def packet (op : BitVec 8) : Packet := ⟨0, 0, op, 0, 0, 0, 0, 0, 0, zeros 12, []⟩

theorem test_accepts_well_formed : (Instr.powerOn (reported [(135, {})] [(255, {})])).wf = true ∧ (Instr.nop 0 (.stream 0 0) (desc 0 [])).wf = true ∧
    (Instr.remoteRead 0 (packet 1)).wf = true ∧ (Instr.devQuery (sized 4096)).wf = true := by decide +kernel
theorem test_refuses_descriptor_length : (Instr.nop 0 (.stream 0 0) (zeros 65)).wf = false ∧ (Instr.frame 0 (.stream 0 0) (desc 1 [] ++ [0])).wf = false := by
  decide +kernel
theorem test_refuses_descriptor_kind : (Instr.frame 0 (.stream 0 0) (desc 0 [])).wf = false := by decide +kernel
theorem test_refuses_atomic_alignment : (Instr.atom ⟨0, false⟩ 0 0 ⟨0, true, 4, 0, 0⟩).wf = false ∧ (Instr.atom ⟨0, false⟩ 0 0 ⟨0, false, 2, 0, 0⟩).wf = false := by
  decide +kernel
theorem test_refuses_five_codewords : (Instr.lineReadReturn 0 0 ⟨0, [[], [], [], [], []]⟩).wf = false := by decide +kernel
theorem test_refuses_long_codeword : (Instr.rakeRead 0 [zeros 37]).wf = false ∧ (Instr.rakeWaitExpiry 0 [zeros 37]).wf = false := by decide +kernel
theorem test_refuses_packet_of_another_row : (Instr.remoteRead 0 (packet 2)).wf = false ∧ (Instr.readData 0 (packet 2)).wf = true := by
  decide +kernel
theorem test_refuses_reserved_packet_bits : (Instr.remoteRead 0 { packet 1 with key := 64 }).wf = false ∧
    (Instr.remoteRead 0 { packet 1 with ctl := 128 }).wf = false ∧ (Instr.remoteRead 0 { packet 1 with addr := 2 ^ 50 }).wf = false ∧
    (Instr.remoteRead 0 { packet 1 with sdie := 4 }).wf = false := by decide +kernel
theorem test_refuses_hart_of_another_cluster : (Instr.rdS 0 0 ⟨0, ⟨8, .load, .pma, 0, 0⟩⟩).wf = false ∧ (Instr.rdS 12 0 ⟨0, ⟨8, .load, .pma, 0, 0⟩⟩).wf = true := by
  decide +kernel
theorem test_refuses_access_past_line : (Instr.upg 0 0 ⟨0, ⟨0, .store, .pma, 127, 1⟩⟩).wf = false ∧
    (Instr.wcBufferDrain 0 (.store 127 0 [1, 2])).wf = false ∧ (Instr.wcBufferDrain 0 (.store 0 0 [])).wf = false := by decide +kernel
theorem test_refuses_repair_of_seven_lines : (Instr.rowSoftRepairComplete ⟨0, (List.replicate 7 [])⟩).wf = false := by decide +kernel
theorem test_refuses_heard_module :
    (Instr.powerOn { reported [] [] with td0 := { (reported [] []).td0 with heardE := [(12, 0)] } }).wf = false ∧
    (Instr.powerOn { reported [] [] with td0 := { (reported [] []).td0 with heardH := [(6, 0)] } }).wf = false := by decide +kernel
theorem test_refuses_packet_length : (Instr.readData 0 { packet 2 with len := 1 }).wf = false := by decide +kernel
theorem test_refuses_packet_argument : (Instr.readData 0 { packet 2 with arg := [] }).wf = false := by decide +kernel
theorem test_refuses_empty_access : (Instr.bar2Access 0 (.read 0)).wf = false := by decide +kernel
theorem test_refuses_access_past_window : (Instr.bar2Access 0x1FFFFFFF (.read 2)).wf = false := by decide +kernel
theorem test_refuses_long_dma : (Instr.pe1InboundDma 0 0 (.write (zeros 513))).wf = false ∧ (Instr.pe1InboundDma 0 0 (.read 4097)).wf = false := by
  decide +kernel
theorem test_refuses_wide_view_access : (Instr.registerViewAccess 0 (.read 9) none).wf = false := by decide +kernel
theorem test_refuses_long_request : (Instr.devQuery (sized 4097)).wf = false := by decide +kernel
theorem test_refuses_long_request_of_entry : (Instr.powerEntryRefused (.module (sized 4097))).wf = false := by decide +kernel
theorem test_refuses_tile_number : (Instr.powerOn (reported [(136, {})] [])).wf = false := by decide +kernel
theorem test_refuses_module_number : (Instr.resetNRelease (reported [] [(256, {})])).wf = false := by decide +kernel
theorem test_refuses_unordered_report : (Instr.powerOn (reported [(1, {}), (0, {})] [])).wf = false := by decide +kernel
theorem test_refuses_short_spdm : (Instr.getVersion [0x10]).wf = false := by decide +kernel
theorem test_refuses_spdm_code : (Instr.getVersion [0x10, 0x81, 0, 0]).wf = false := by decide +kernel
theorem test_refuses_line_length : (Instr.wb 0 0 0 []).wf = false ∧ (Instr.ackD 0 0 (zeros 127)).wf = false := by decide +kernel
theorem test_refuses_flit_length : (Instr.d2dFlitReceive 0 0 (zeros 63)).wf = false ∧ (Instr.linkControlFlit 0 (zeros 65)).wf = false ∧
    (Instr.fabricFlitReceive 0 (zeros 255)).wf = false := by decide +kernel
theorem test_refuses_msi_alignment : (Instr.pe1MsiWrite 0 2 0).wf = false := by decide +kernel
theorem test_refuses_mailbox_as_message : (Instr.mgRequest .os []).wf = false ∧ (Instr.mgRequest .eh []).wf = false ∧
    (Instr.mgRequest .i3c (zeros 4113)).wf = false := by decide +kernel
theorem test_refuses_rail_count : (Instr.pmbusPoll []).wf = false := by decide +kernel
theorem test_refuses_unordered_plan : (Instr.topologyWalk [(1, 0), (0, 0)]).wf = false := by decide +kernel
theorem test_refuses_long_scrub_errors : (Instr.memScrubPass (sized 8) [(0, [zeros 37])]).wf = false := by decide +kernel
theorem test_refuses_unordered_selftest : (Instr.svcSelftest (sized 8) [(1, {}), (0, {})] [] []).wf = false := by decide +kernel

/-! ## Values the spec states -/

/-- Table 07-2. -/
theorem test_philox_zeros : philox 0 (0, 0, 0, 0) = (0x6627E8D5, 0xE169C58D, 0xBC57AC4C, 0x9B00DBD8) := by decide +kernel
/-- Table 07-2. -/
theorem test_philox_ones : philox 0xFFFFFFFFFFFFFFFF (0xFFFFFFFF, 0xFFFFFFFF, 0xFFFFFFFF, 0xFFFFFFFF) =
    (0x408F276D, 0x41C83B0E, 0xA20BC7C6, 0x6D5451FD) := by decide +kernel
/-- Table 07-2. -/
theorem test_philox_digits : philox 0x299F31D0A4093822 (0x243F6A88, 0x85A308D3, 0x13198A2E, 0x03707344) =
    (0xD16CFE09, 0x94FDCCEB, 0x5001E420, 0x24126EA1) := by decide +kernel
/-- Table 02-3: the greatest finite E4M3 code is 448, and 449 rounds to it. -/
theorem test_e4m3_max : Fmt.e4m3.decode 0x7E = .num false 448 1 ∧ (convert .e4m3 {} 0 (.num false 449 1)).1 = 0x7E := by decide +kernel
/-- Table 02-3: MX FP4 has no NaN, and its greatest value is 6. -/
theorem test_fp4_max : Fmt.fp4.decode 7 = .num false 6 1 := by decide +kernel
/-- Table 01-6: S1 begins at 64 GiB and C1 at 0x0420_0000_0000. -/
theorem test_address_map : ctrlBase 1 = 0x001000000000 ∧ ctrlBase 13 = 0x042000000000 ∧ tsBase 3 127 = 0x080000000000 + 511 * 0x200000 := by decide
/-- The module starts off, and a tick of the idle queue is one nanosecond. -/
theorem test_idle_tick : (match Machine.step State.reset with | .next t => decide (t.timeNs = 1) | _ => false) = true := by decide +kernel
/-- R420 releases nothing while the module is off: the commands of M-OFF leave the queue alone. -/
theorem test_front_command : (match Machine.step { State.reset with pending := [.resetNAssert, .refclkLoss] } with
    | .next t => decide (t.pending = [.refclkLoss]) | _ => false) = true := by decide +kernel

/-! ## Worked examples of the spec -/

/-- Example 01-1: an open strap on TD1; TD0 to TD2 resolve from their fuses, TD3 from its straps. -/
theorem test_example_01_1 : resolvePos 4 4 0 7 1 7 = (0, 1) ∧ resolvePos 0 1 4 2 4 2 = (1, 1) ∧ resolvePos 2 2 7 0 7 1 = (2, 1) ∧
    resolvePos 7 7 2 4 2 4 = (3, 0) := by decide +kernel
/-- Example 01-2: the store of tile 77 of TD2, and an address of S7 with two channels retired. -/
theorem test_example_01_2 : tsBase 2 77 = 0x080029A00000 ∧
    (({ State.reset with pool := { ctrls := [(7, { retired := 3 })] } } : State).served 7 = 60 * 2 ^ 30) ∧
    State.reset.place 0x007640000A80 = .mem 7 ∧ State.reset.place 0x04A300000000 = .mem 17 ∧
    ({ State.reset with lnVariant := true } : State).place 0x04A300000000 = .none := by decide +kernel
/-- Example 02-1: an MXFP4 block. -/
theorem test_example_02_1 : (quantiseBlock .mxfp4 {} ([(.num false 11 2, false), (.num true 13 16, false), (.num false 3 32, false), (.num false 15 1, false)] ++
    List.replicate 28 (.zero, false)) (List.replicate 32 0)).1 = 0x80 ∧
    ((quantiseBlock .mxfp4 {} ([(.num false 11 2, false), (.num true 13 16, false), (.num false 3 32, false), (.num false 15 1, false)] ++
    List.replicate 28 (.zero, false)) (List.replicate 32 0)).2.1.take 4) = [5, 9, 0, 7] := by decide +kernel
/-- Example 02-2: FP32 0x4215C000 to E4M3 in each mode. -/
theorem test_example_02_2 : (convert .e4m3 {} 0 (Fmt.fp32.decode 0x4215C000)).1 = 0x61 ∧ (convert .e4m3 { mode := .rtz } 0 (Fmt.fp32.decode 0x4215C000)).1 = 0x61 ∧
    (convert .e4m3 { mode := .sr } 0xA3FF (Fmt.fp32.decode 0x4215C000)).1 = 0x61 ∧ (convert .e4m3 { mode := .sr } 0xA400 (Fmt.fp32.decode 0x4215C000)).1 = 0x62 := by
  decide +kernel
/-- Example 02-3: a WA192 element with c = 6, its sum with 2.0, both as E4M3. -/
theorem test_example_02_3 : (winTerm 192 6 1 (.num true 599 16)).1 = -599 * 2 ^ 150 ∧ (wadd 192 (-599 * 2 ^ 150) (2 ^ 155)).1 = -567 * 2 ^ 150 ∧
    (convertWin .e4m3 {} 0 (Val.ofInt 1) (winValue 192 6 (-599 * 2 ^ 150))).1 = 0xE1 ∧
    (convertWin .e4m3 {} 0 (Val.ofInt 1) (winValue 192 6 (-567 * 2 ^ 150))).1 = 0xE1 := by decide +kernel
/-- Example 03-1: products 2^40, 2^16 and 2^−60 in one block. -/
theorem test_example_03_1 :
    (convert .fp32 {} 0 (reduceSeq .fp32 .rne [.num false (2 ^ 40) 1, .num false (2 ^ 16) 1, .num false 1 (2 ^ 60)]).1).1 = 0x53800001 ∧
    (convert .fp32 {} 0 (reduceSeq .fp32 .rtz [.num false (2 ^ 40) 1, .num false (2 ^ 16) 1, .num false 1 (2 ^ 60)]).1).1 = 0x53800000 := by decide +kernel
/-- Example 03-2: one reduction as one operation (X) and as the two blocks of Y2. -/
theorem test_example_03_2 :
    (convert .fp32 {} 0 (reduceSeq .fp32 .rne ([.num false (2 ^ 24) 1, .num false 1 1] ++ List.replicate 30 .zero ++ [.num false 1 1])).1).1 = 0x4B800000 ∧
    (convert .fp32 {} 0 (reduceSeq .fp32 .rne ([.num false 1 1] ++ List.replicate 30 .zero ++ [.num false 1 1])).1).1 = 0x40000000 := by decide +kernel
/-- Example 03-3: the same reduction in window mode, split after k = 31. -/
theorem test_example_03_3 : ceilC 13 13 64 = 34 ∧ (winStep 192 34 64 0 [.num false (2 ^ 12) 1, .num false 1 1] [.num false (2 ^ 12) 1, .num false 1 1]).1 = 2 ^ 150 + 2 ^ 126 ∧
    (wadd 192 (2 ^ 150 + 2 ^ 126) (2 ^ 126)).1 = 2 ^ 150 + 2 ^ 127 ∧
    (convertWin .fp32 {} 0 (Val.ofInt 1) (winValue 192 34 (2 ^ 150 + 2 ^ 127))).1 = 0x4B800001 := by decide +kernel
/-- Example 05-1: the fields of g5 := g6 × g7 + g8. -/
theorem test_example_05_1 : gCls 0x08200A1838800000 = 2 ∧ gOp 0x08200A1838800000 = 2 ∧ gD 0x08200A1838800000 = 5 ∧ gA 0x08200A1838800000 = 6 ∧
    gB 0x08200A1838800000 = 7 ∧ gC 0x08200A1838800000 = 8 ∧ gMod 0x08200A1838800000 = 0 ∧ gGp 0x08200A1838800000 = 0 := by decide +kernel
/-- Example 07-1: a dropout mask. -/
theorem test_example_07_1 : ((List.range 8).map (fun c => (bernoulli 0x3F400000 (field16 0 0 0 0 c)).1)) = [0, 1, 0, 0, 1, 1, 0, 1] := by decide +kernel
/-- Example 07-2: a categorical draw. -/
theorem test_example_07_2 : (categorical [.num false 1 2, .num false 5 4, .zero, .num false 9 4] 0xA0000000).1 = 3 := by decide +kernel
/-- Example 09-1: the slice of the line at 0x001000002A80. -/
theorem test_example_09_1 : dcSlice (0x001000002A80 / 128) = 7 := by decide +kernel
/-- Example 10-1: placing a byte with and without retired channels. -/
theorem test_example_10_1 : State.reset.rowOf 7 0x640000A80 = ⟨5, 0, 0, 25600⟩ ∧
    ({ State.reset with pool := { ctrls := [(7, { retired := 0x20008 })] } } : State).rowOf 7 0x640000A80 = ⟨1, 0, 5, 27306⟩ := by decide +kernel
/-- Example 11-1: 63 good lanes give half width on the first 32 of them. -/
theorem test_example_11_1 : laneState 0 (2 ^ 12 + 2 ^ 21 + 2 ^ 40 + 2 ^ 41 + 2 ^ 58) true = .half ∧
    (List.range 32).map (physLane (2 ^ 12 + 2 ^ 21 + 2 ^ 40 + 2 ^ 41 + 2 ^ 58)) = ((List.range 12) ++ (List.range 8).map (· + 13) ++ (List.range 12).map (· + 22)).map some := by
  decide +kernel
/-- Example 13-1: one sum over three and over four ranks. -/
theorem test_example_13_1 : (treeSum .fp32 [0x3F800000, 0x3F800000, 0x4B800000]).1 = 0x4B800000 ∧
    (treeSum .fp32 [0x3F800000, 0x3F800000, 0x4B800000, 0]).1 = 0x4B800001 := by decide +kernel
/-- Example 16-1: a brake at setting 2 takes the tiles to 1/8 and the CPU to 1/4, and the release gives 1/4 at once. -/
theorem test_example_16_1 : brakeTile (State.reset.power).brakeSet = 4 ∧ brakeCpuCode (State.reset.power).brakeSet = 3 ∧
    ({ State.reset with power := { brakeRatio := 4, cpuBrake := 3 } } : State).brakeRelease.power.brakeRatio = 3 := by decide +kernel

end Sys2Proof.Tests
end

section
/-! SUPPORT. The work queues and the job stay as they are through every operation of the memory pool and the fabric, through a wake of the module,
and through a queue entry that ends with status ok: one rule per operation, in the order of the files under Machine/. -/
namespace Sys2Proof.Machine

/-! ## Queues and job -/

/-- The work queues of every die, and the job. -/
def State.queues (s : State) : (Nat → Map Wq) × Option Job := (fun d => (s.die d).wqs, s.lantern.job)

/-- Equal queues read alike. -/
theorem State.wq_of_queues {s t : State} (h : t.queues = s.queues) (d q : Nat) : t.wq d q = s.wq d q := by
  have hd : (t.die d).wqs = (s.die d).wqs := congrFun (congrArg Prod.fst h) d
  simp [State.wq, hd]

/-- Equal queues come with the same job. -/
theorem State.job_of_queues {s t : State} (h : t.queues = s.queues) : t.lantern.job = s.lantern.job := congrArg Prod.snd h

/-- The state of a result, named by a match on it. -/
theorem State.queues_of_pair {α : Type} {t : State} {a : α} {r : α × State} (h : r = (a, t)) : t.queues = r.2.queues := by rw [h]

/-- A fold of steps that leave the queues alone. -/
theorem State.queues_foldl {α : Type} {f : State → α → State} (h : ∀ t x, (f t x).queues = t.queues) (l : List α) (s : State) :
    (l.foldl f s).queues = s.queues :=
  List.foldlRecOn l f (motive := fun t => t.queues = s.queues) rfl (fun t ht x _ => (h t x).trans ht)

/-- Notifications leave the queues alone. -/
theorem Notified.queues_eq {s t : State} (h : Notified s t) : t.queues = s.queues := by
  obtain ⟨_, _, _, _, _, _, _, _, _, _, rfl⟩ := h
  rfl

/-- A change of a die beside its queues. -/
@[simp] theorem State.modDie_queues (s : State) (d : Nat) (f : Die → Die) (h : ∀ x, (f x).wqs = x.wqs) :
    (s.modDie d f).queues = s.queues := by
  have hd : (fun e => ((s.modDie d f).die e).wqs) = fun e => (s.die e).wqs := by
    funext e
    by_cases he : e = d
    · simp [he, h]
    · simp [State.die_modDie, he]
  exact Prod.ext hd rfl

@[simp] theorem State.modTile_queues (s : State) (d t : Nat) (f : Tile → Tile) : (s.modTile d t f).queues = s.queues := rfl
@[simp] theorem State.modCtrl_queues (s : State) (c : Nat) (f : MemCtrl → MemCtrl) : (s.modCtrl c f).queues = s.queues := rfl
@[simp] theorem State.modLink_queues (s : State) (e : Nat) (f : LinkEnd_ → LinkEnd_) : (s.modLink e f).queues = s.queues := rfl
@[simp] theorem State.modPort_queues (s : State) (p : Nat) (f : Port → Port) : (s.modPort p f).queues = s.queues := rfl
@[simp] theorem State.modHart_queues (s : State) (h : Nat) (f : Hart → Hart) : (s.modHart h f).queues = s.queues := rfl
@[simp] theorem State.reply_queues (s : State) (r : Reply) : (s.reply r).queues = s.queues := rfl
@[simp] theorem State.putAgent_queues (s : State) (a l : Nat) (x : AgentLine) : (s.putAgent a l x).queues = s.queues := rfl
@[simp] theorem State.putHome_queues (s : State) (l : Nat) (h : HomeLine) : (s.putHome l h).queues = s.queues := rfl
@[simp] theorem State.breakReservations_queues (s : State) (l : Nat) : (s.breakReservations l).queues = s.queues := rfl
@[simp] theorem State.tear_queues (s : State) (l : List Nat) : (s.tear l).queues = s.queues := rfl
@[simp] theorem State.tilesEnter_queues (s : State) (p : TilePower) : (s.tilesEnter p).queues = s.queues := rfl
@[simp] theorem State.rawWrite_queues (s : State) (c k l : Nat) (b : List Byte) : (s.rawWrite c k l b).queues = s.queues := rfl

/-! ## Notifications -/

@[simp] theorem State.sendMsix_queues (s : State) (v : Nat) : (s.sendMsix v).queues = s.queues := (s.sendMsix_notified v).queues_eq

@[simp] theorem State.hdEvent_queues (s : State) (code : Nat) (args : List Byte) : (s.hdEvent code args).queues = s.queues :=
  (s.hdEvent_notified code args).queues_eq

@[simp] theorem State.raiseWired_queues (s : State) (n : Nat) : (s.raiseWired n).queues = s.queues := (s.raiseWired_notified n).queues_eq

@[simp] theorem State.logAccess_queues (s : State) (kind addr agent mtype : Nat) :
    (s.logAccess kind addr agent mtype).queues = s.queues := by
  unfold State.logAccess
  dsimp only
  split
  · exact (State.logNote_notified _ _ _).queues_eq
  · rfl

@[simp] theorem State.discard_queues (s : State) (addr agent mtype : Nat) : (s.discard addr agent mtype).queues = s.queues := by
  simp [State.discard, State.storeLost]

@[simp] theorem State.storePend_queues (s : State) (addr agent : Nat) : (s.storePend addr agent).queues = s.queues := by
  unfold State.storePend
  dsimp only
  split <;> simp

/-! ## Waking the module -/

@[simp] theorem State.withPower_queues (s : State) (p : Power) : { s with power := p }.queues = s.queues := rfl

@[simp] theorem State.brakeOn_queues (s : State) (held : Nat) : (s.brakeOn held).queues = s.queues := by
  simp [State.brakeOn, State.brakeEvent]

@[simp] theorem State.selfRefresh_queues (s : State) (on : Bool) : (s.selfRefresh on).queues = s.queues := by
  unfold State.selfRefresh
  exact State.queues_foldl (fun t c => t.modCtrl_queues c _) _ _

@[simp] theorem State.wake_queues (s : State) : s.wake.queues = s.queues := by
  unfold State.wake
  split
  · rfl
  · dsimp only
    split <;> simp

/-! ## The die caches (R216 to R220) -/

@[simp] theorem State.dcPut_queues (s : State) (d i : Nat) (l : DcLine) : (s.dcPut d i l).queues = s.queues := by simp [State.dcPut]

@[simp] theorem State.dropSide_queues (s : State) (d l : Nat) : (s.dropSide d l).queues = s.queues := by
  simp [State.dropSide, State.setSide]

@[simp] theorem State.dcCount_queues (s : State) (d cls : Nat) (hit : Bool) : (s.dcCount d cls hit).queues = s.queues := by
  simp [State.dcCount]

@[simp] theorem State.dcWriteBack_queues (s : State) (c : Nat) (l : DcLine) : (s.dcWriteBack c l).queues = s.queues := by
  unfold State.dcWriteBack
  repeat' split
  all_goals simp

@[simp] theorem State.dcEvict_queues (s : State) (d i : Nat) : (s.dcEvict d i).queues = s.queues := by
  unfold State.dcEvict
  dsimp only
  split <;> simp

@[simp] theorem State.dcFill_queues (s : State) (d mask line key age : Nat) (dirty : Bool) (data : List Byte) :
    (s.dcFill d mask line key age dirty data).queues = s.queues := by
  unfold State.dcFill
  dsimp only
  split
  · simp
  · simp [State.queues_foldl (fun t x => State.dcPut_queues t _ _ _)]

@[simp] theorem State.dcRekey_queues (s : State) (d line key : Nat) : (s.dcRekey d line key).queues = s.queues := by
  unfold State.dcRekey
  repeat' split
  all_goals simp

@[simp] theorem State.homeRead_queues (s : State) (acc : Acc) (c line : Nat) : (s.homeRead acc c line).2.queues = s.queues := by
  unfold State.homeRead
  dsimp only
  repeat' split
  all_goals simp

@[simp] theorem State.homeWrite_queues (s : State) (acc : Acc) (c line mask : Nat) (data : List Byte) :
    (s.homeWrite acc c line mask data).2.queues = s.queues := by
  unfold State.homeWrite
  dsimp only
  repeat' split
  all_goals simp

/-! ## Messages and homes (R208 to R215) -/

@[simp] theorem State.withPool_queues (s : State) (p : Pool) : { s with pool := p }.queues = s.queues := rfl

@[simp] theorem State.linkSend_queues (s : State) (node : Nat) (odd : Bool) (m : LinkMsg) : (s.linkSend node odd m).queues = s.queues := by
  unfold State.linkSend
  split
  · simp [State.linkPump]
  · rfl

@[simp] theorem State.coh_queues (s : State) (n : Nat) (m : CohMsg) : (s.coh n m).queues = s.queues := by
  unfold State.coh
  dsimp only
  split <;> simp

@[simp] theorem State.cohHome_queues (s : State) (m : CohMsg) : (s.cohHome m).queues = s.queues := by simp [State.cohHome]

@[simp] theorem State.homeValue_queues (s : State) (c line : Nat) (h : HomeLine) (acc : Acc) :
    (s.homeValue c line h acc).2.queues = s.queues := by
  unfold State.homeValue
  split <;> simp

@[simp] theorem State.homePut_queues (s : State) (acc : Acc) (c line mask : Nat) (l : List Byte) :
    (s.homePut acc c line mask l).queues = s.queues := by
  unfold State.homePut
  split <;> next h => simp [State.queues_of_pair h]

@[simp] theorem State.homeStore_queues (s : State) (acc : Acc) (c line mask : Nat) (l : List Byte) :
    (s.homeStore acc c line mask l).queues = s.queues := by
  unfold State.homeStore
  split <;> next h => simp [State.queues_of_pair h]

@[simp] theorem State.placeWrite_queues (s : State) (c line : Nat) (h : HomeLine) (t : HomeTxn) :
    (s.placeWrite c line h t).queues = s.queues := by
  unfold State.placeWrite
  repeat' split
  all_goals simp

@[simp] theorem State.homeEnd_queues (s : State) (c line : Nat) (h : HomeLine) (t : HomeTxn) :
    (s.homeEnd c line h t).queues = s.queues := by
  unfold State.homeEnd
  dsimp only
  split
  case h_1 =>
    split
    · split <;> simp
    · split
      · next hv => simp [State.queues_of_pair hv]
      · next hv => split <;> simp [State.queues_of_pair hv]
  case h_2 | h_4 =>
    split
    · simp
    · split <;> next hv => simp [State.queues_of_pair hv]
  case h_3 | h_5 | h_6 => split <;> simp

@[simp] theorem State.homeStart_queues (s : State) (c line : Nat) (t : HomeTxn) : (s.homeStart c line t).queues = s.queues := by
  unfold State.homeStart
  extract_lets h rekey t' sn needData h' u
  have hu : u.queues = s.queues := State.queues_foldl (fun t _ => t.cohHome_queues _) _ _
  split <;> simp [hu]

@[simp] theorem State.dirEvict_queues (s : State) (line : Nat) : (s.dirEvict line).queues = s.queues := by
  unfold State.dirEvict
  dsimp only [State.free]
  repeat' split
  · rfl
  · exact State.homeStart_queues _ _ _ _
  all_goals rfl

@[simp] theorem State.homeRun_queues (line n : Nat) (s : State) : (State.homeRun line n s).queues = s.queues := by
  induction n generalizing s with
  | zero => rfl
  | succ n ih =>
    unfold State.homeRun
    dsimp only
    repeat' split
    all_goals simp [ih]

@[simp] theorem State.homeSet_queues (s : State) (line : Nat) : (s.homeSet line).queues = s.queues := by
  unfold State.homeSet
  exact (State.queues_foldl (fun t l => State.homeRun_queues l _ t) _ _).trans (State.homeRun_queues _ _ _)

@[simp] theorem State.homeEnqueue_queues (s : State) (line : Nat) (t : HomeTxn) : (s.homeEnqueue line t).queues = s.queues := by
  simp [State.homeEnqueue]

@[simp] theorem State.letIn_queues (n : Nat) (s : State) : (State.letIn n s).queues = s.queues := by
  induction n generalizing s with
  | zero => rfl
  | succ n ih =>
    unfold State.letIn
    split
    · rfl
    · simp [ih]

@[simp] theorem State.homeGo_queues (s : State) (line : Nat) : (s.homeGo line).queues = s.queues := by simp [State.homeGo]

@[simp] theorem State.homeProceed_queues (s : State) (line : Nat) : (s.homeProceed line).queues = s.queues := by
  unfold State.homeProceed
  dsimp only
  repeat' split
  all_goals simp

/-! ## The caches' side of it (R213, R214) -/

@[simp] theorem State.lineLost_queues (s : State) (a : CacheId) (line : Nat) : (s.lineLost a line).queues = s.queues := by
  unfold State.lineLost
  refine (State.queues_foldl (fun t i => ?_) _ _).trans (State.putAgent_queues _ _ _ _)
  dsimp only
  split <;> simp

@[simp] theorem State.snoopAnswer_queues (s : State) (a : CacheId) (line : Nat) (k : Snoop) (p : Option Party) :
    (s.snoopAnswer a line k p).queues = s.queues := by
  unfold State.snoopAnswer
  extract_lets l forward
  have hf (t : State) (dirty : Bool) (st : CacheState) : (forward t dirty st).queues = t.queues := by
    simp only [forward]
    split <;> simp
  split <;> simp [hf]

@[simp] theorem State.holdEnds_queues (s : State) (a : CacheId) (line : Nat) : (s.holdEnds a line).queues = s.queues := by
  unfold State.holdEnds
  exact (State.queues_foldl (fun t e => t.snoopAnswer_queues _ _ _ _) _ _).trans (State.putAgent_queues _ _ _ _)

@[simp] theorem State.takeMiss_queues (s : State) (a : CacheId) (line : Nat) : (s.takeMiss a line).2.queues = s.queues := by
  unfold State.takeMiss
  split <;> rfl

@[simp] theorem State.corePerform_queues (s : State) (a : CacheId) (line : Nat) (x : CoreAccess) :
    (s.corePerform a line x).queues = s.queues := by
  unfold State.corePerform
  dsimp only
  repeat' split
  all_goals simp

/-- Taking a message off the way. -/
theorem State.takeMsg_queues {s t : State} {f : CohMsg → Bool} {m : CohMsg} (h : s.takeMsg f = some (m, t)) : t.queues = s.queues := by
  unfold State.takeMsg at h
  split at h
  · cases h
    rfl
  · cases h

/-! ## Messages arrive -/

@[simp] theorem State.snoopArrives_queues (s : State) (a : CacheId) (line : Nat) (k : Snoop) :
    (s.snoopArrives a line k).queues = s.queues := by
  unfold State.snoopArrives
  split
  · rfl
  · split
    · next h =>
      dsimp only
      split <;> simp [State.takeMsg_queues h]
    · rfl

@[simp] theorem State.dataArrives_queues (s : State) (a : CacheId) (line : Nat) : (s.dataArrives a line).queues = s.queues := by
  unfold State.dataArrives
  split
  · next h =>
    dsimp only
    split <;> next hm => simp [State.queues_of_pair hm, State.takeMsg_queues h]
  · rfl

@[simp] theorem State.compArrives_queues (s : State) (a : CacheId) (line : Nat) : (s.compArrives a line).queues = s.queues := by
  unfold State.compArrives
  split
  · next h =>
    extract_lets l u
    have hu : u.queues = s.queues := by
      simp only [u]
      split <;> simp [State.takeMsg_queues h]
    split <;> next hm => simp [State.queues_of_pair hm, hu]
  · rfl

@[simp] theorem State.ackArrives_queues (s : State) (a : CacheId) (line : Nat) : (s.ackArrives a line).queues = s.queues := by
  unfold State.ackArrives
  split
  · next h =>
    dsimp only
    split <;> simp [State.takeMsg_queues h]
  · rfl

@[simp] theorem State.ackDArrives_queues (s : State) (a : CacheId) (line : Nat) : (s.ackDArrives a line).queues = s.queues := by
  unfold State.ackDArrives
  split
  · next h =>
    dsimp only
    split <;> simp [State.takeMsg_queues h]
  · rfl

@[simp] theorem State.consumeWb_queues (s : State) (line : Nat) (a : CacheId) (b : List Byte) :
    (s.consumeWb line a b).queues = s.queues := by
  simp [State.consumeWb]

@[simp] theorem State.ndwbArrives_queues (s : State) (a : CacheId) (line : Nat) : (s.ndwbArrives a line).queues = s.queues := by
  unfold State.ndwbArrives
  split
  · next h =>
    dsimp only
    repeat' split
    all_goals simp [State.takeMsg_queues h]
  · rfl

@[simp] theorem State.wbArrives_queues (s : State) (a : CacheId) (line : Nat) : (s.wbArrives a line).queues = s.queues := by
  unfold State.wbArrives
  split
  · next h =>
    dsimp only
    repeat' split
    all_goals simp [State.takeMsg_queues h]
  · rfl

@[simp] theorem State.wbAnswered_queues (s : State) (a : CacheId) (line : Nat) (c : Bool) : (s.wbAnswered a line c).queues = s.queues := by
  unfold State.wbAnswered
  dsimp only
  split
  · next h => split <;> simp [State.takeMsg_queues h]
  · rfl

@[simp] theorem State.arrive_queues (s : State) (m : CohMsg) : (s.arrive m).queues = s.queues := by
  unfold State.arrive
  split <;> simp

@[simp] theorem State.settleGo_queues (p : Nat → Bool) (n : Nat) (s : State) : (State.settleGo p n s).queues = s.queues := by
  induction n generalizing s with
  | zero => rfl
  | succ n ih =>
    unfold State.settleGo
    repeat' split
    all_goals simp [ih]

@[simp] theorem State.settle_queues (s : State) (p : Nat → Bool) : (s.settle p).queues = s.queues := by simp [State.settle]

@[simp] theorem State.release_queues (s : State) : s.release.queues = s.queues := s.settle_queues _

/-! ## Writes of a unit that caches nothing -/

@[simp] theorem State.dropCopies_queues (s : State) (line : Nat) : (s.dropCopies line).queues = s.queues := by
  unfold State.dropCopies
  exact (State.putHome_queues _ _ _).trans (State.queues_foldl (fun t a => t.lineLost_queues a line) _ _)

@[simp] theorem State.rekeyCopies_queues (s : State) (c line key : Nat) : (s.rekeyCopies c line key).queues = s.queues := by
  unfold State.rekeyCopies
  split
  · rfl
  · dsimp only
    split <;> simp

@[simp] theorem State.coherentWrite_queues (s : State) (acc : Acc) (c line mask : Nat) (data : List Byte) :
    (s.coherentWrite acc c line mask data).2.queues = s.queues := by
  unfold State.coherentWrite
  dsimp only
  split <;> simp [State.settleLine]

@[simp] theorem State.restoreTs_queues (s : State) (d t : Nat) : (s.restoreTs d t).queues = s.queues := by
  unfold State.restoreTs
  split <;> simp

@[simp] theorem State.writeSpan_queues (s : State) (acc : Acc) (a : Nat) (data : List Byte) :
    (s.writeSpan acc a data).2.queues = s.queues := by
  unfold State.writeSpan
  split
  · simp
  · split
    · dsimp only
      split <;> next h => simp [State.queues_of_pair h]
    · simp
    · simp

@[simp] theorem State.writeGo_queues (acc : Acc) (n : Nat) (s : State) (a : Nat) (l : List Byte) :
    (State.writeGo acc n s a l).2.queues = s.queues := by
  induction n generalizing s a l with
  | zero => rfl
  | succ n ih =>
    unfold State.writeGo
    split
    · rfl
    · dsimp only
      split <;> next h => simp [ih, State.queues_of_pair h]

@[simp] theorem State.writeMem_queues (s : State) (acc : Acc) (a : Nat) (l : List Byte) : (s.writeMem acc a l).2.queues = s.queues :=
  State.writeGo_queues _ _ _ _ _

/-! ## A queue entry ends with status ok (R148, R161) -/

@[simp] theorem State.send_queues (s : State) (d : Nat) (k : Packet) : (s.send d k).2.queues = s.queues := by
  unfold State.send
  split <;> rfl

@[simp] theorem State.semUpdate_queues (s : State) (d k : Nat) (set : Bool) (v : Nat) : (s.semUpdate d k set v).queues = s.queues := by
  simp [State.semUpdate, State.setSem]

@[simp] theorem State.doneSem_queues (s : State) (d : Nat) (raw : List Byte) : (s.doneSem d raw).queues = s.queues := by
  unfold State.doneSem
  split <;> simp

@[simp] theorem State.wqRecord_queues (s : State) (d q h : Nat) (raw : List Byte) (status : Nat) :
    (s.wqRecord d q h raw status).queues = s.queues := by
  unfold State.wqRecord
  dsimp only
  repeat' split
  all_goals simp

@[simp] theorem State.retire_queues (s : State) (d : Nat) (src : DescSrc) : (s.retire d src).queues = s.queues := by simp [State.retire]

@[simp] theorem State.signal_queues (s : State) (d : Nat) (src : DescSrc) (raw : List Byte) : (s.signal d src raw).queues = s.queues := by
  unfold State.signal
  dsimp only
  split <;> simp

@[simp] theorem State.fenceRun_queues (d n : Nat) (src : DescSrc) (s : State) : (State.fenceRun d n src s).queues = s.queues := by
  induction n generalizing src s with
  | zero => rfl
  | succ n ih =>
    unfold State.fenceRun
    dsimp only
    refine (State.queues_foldl (fun t f => ?_) _ _).trans (by simp)
    repeat' split
    all_goals simp [ih]

/-- A queue's entry that ends with status ok leaves every queue and the job as they are. -/
theorem State.finish_queue_ok_queues (s : State) (d : Nat) (q : Fin 16) (h : Nat) (raw : List Byte) :
    (s.finish d (.queue q h) raw 0).queues = s.queues := by
  simp [State.finish, State.fenceCheck]

end Sys2Proof.Machine
end

section
/-! PROOF. Doorbells and the consumption of entries (06_descriptors_and_schedules, R158). -/
namespace Sys2Proof.Machine

/-! ## A queue after its updates -/

/-- An update of one queue of a die leaves its others alone. -/
theorem State.wq_modWq_other (s : State) (d q p : Nat) (f : Wq → Wq) (h : p ≠ q) : (s.modWq d q f).wq d p = s.wq d p := by
  simp [State.wq_modWq, h]

/-- A refreshed queue: a stopped one as it was, any other in the state its counts give. -/
theorem State.wq_wqRefresh (s : State) (d q : Nat) :
    (s.wqRefresh d q).wq d q =
      if (s.wq d q).state = 4 then s.wq d q else { s.wq d q with state := s.wqState (s.wq d q) } :=
  s.wq_modWq_same d q _

@[simp] theorem State.wqRefresh_head (s : State) (d q : Nat) : ((s.wqRefresh d q).wq d q).head = (s.wq d q).head := by
  rw [State.wq_wqRefresh]; split <;> rfl

@[simp] theorem State.wqRefresh_tail (s : State) (d q : Nat) : ((s.wqRefresh d q).wq d q).tail = (s.wq d q).tail := by
  rw [State.wq_wqRefresh]; split <;> rfl

@[simp] theorem State.wqRefresh_retries (s : State) (d q : Nat) : ((s.wqRefresh d q).wq d q).retries = (s.wq d q).retries := by
  rw [State.wq_wqRefresh]; split <;> rfl

@[simp] theorem State.wqRefresh_badDb (s : State) (d q : Nat) : ((s.wqRefresh d q).wq d q).badDb = (s.wq d q).badDb := by
  rw [State.wq_wqRefresh]; split <;> rfl

@[simp] theorem State.wqRefresh_lantern (s : State) (d q : Nat) : (s.wqRefresh d q).lantern = s.lantern := rfl

/-- A refresh of one queue of a die leaves its others alone. -/
theorem State.wq_wqRefresh_other (s : State) (d q p : Nat) (h : p ≠ q) : (s.wqRefresh d q).wq d p = s.wq d p :=
  s.wq_modWq_other d q p _ h

/-- A stopped queue stays stopped. -/
theorem State.wqRefresh_stopped (s : State) (d q : Nat) (h : (s.wq d q).state = 4) : ((s.wqRefresh d q).wq d q).state = 4 := by
  rw [State.wq_wqRefresh, if_pos h, h]

/-- The counts of a queue never make it doorbell-early. -/
theorem State.wqState_ne_early (s : State) (w : Wq) : s.wqState w ≠ 3 := by
  unfold State.wqState
  repeat' split
  all_goals decide

/-- A refresh ends a doorbell-early state. -/
theorem State.wqRefresh_not_early (s : State) (d q : Nat) (h : (s.wq d q).state ≠ 4) : ((s.wqRefresh d q).wq d q).state ≠ 3 := by
  rw [State.wq_wqRefresh, if_neg h]
  exact s.wqState_ne_early _

/-! ## Doorbells (R158) -/

/-- The BAR4 page is heard while the host is not restarting (R328). -/
theorem bar4_heard {bar4 restarting : Bool} (h : bar4 = true → restarting = false) : (bar4 && restarting) = false := by
  cases bar4 <;> simp_all

/-- A queue with a doorbell's tail in force, its early state not yet left. -/
def Wq.ring (w : Wq) (tail : Word) : Wq := { w with tail := tail, retries := if w.state = 3 then 0 else w.retries }

/-- A doorbell within the ring size. -/
theorem exec_wqDoorbell_accepted (d : DieId) (q : Fin 16) (tail : Word) (bar4 : Bool) (s : State)
    (hb : bar4 = true → s.host.restarting = false) (hn : s.domainOn .noc = true) (ht : (tail - (s.wq d q).head).toNat ≤ (s.wq d q).size) :
    exec (.wqDoorbell d q tail bar4) s = .next ((s.wake.modWq d q (·.ring tail)).wqRefresh d q) := by
  change execWqDoorbell d q tail bar4 s = _
  simp only [execWqDoorbell, bar4_heard hb, hn, ht]
  rfl

/-- Any other doorbell. -/
theorem exec_wqDoorbell_refused (d : DieId) (q : Fin 16) (tail : Word) (bar4 : Bool) (s : State)
    (hb : bar4 = true → s.host.restarting = false) (hn : s.domainOn .noc = true) (ht : (s.wq d q).size < (tail - (s.wq d q).head).toNat) :
    exec (.wqDoorbell d q tail bar4) s = .next (s.wake.modWq d q ({ · with badDb := true })) := by
  change execWqDoorbell d q tail bar4 s = _
  simp only [execWqDoorbell, bar4_heard hb, hn, Nat.not_le.mpr ht]
  rfl

@[simp] theorem State.wq_wake (s : State) (d q : Nat) : s.wake.wq d q = s.wq d q := State.wq_of_queues s.wake_queues d q

/-! ## Taking the head entry (R161) -/

/-- The queue with the entry at its head consumed. -/
def State.wqConsumed (s : State) (d q : Nat) (raw : List Byte) : State :=
  (s.modWq d q (fun w => { w with head := w.head + BitVec.ofNat 32 (dSize raw / 64), retries := 0 })).wqRefresh d q

/-- A NOP names no unit, so no fenced tile and no full unit queue holds it back. -/
theorem unitOf_nop {raw : List Byte} (h : dKind raw = 0) : unitOf raw = none := by simp [unitOf, h]

/-- The engine takes a NOP that passes its checks while no job holds the queues: consumed, and ended with status ok. -/
theorem State.wqTake_nop (s : State) (d : Nat) (q : Fin 16) (raw : List Byte) (ha : dAfter raw = true → s.wqDrained d q = true)
    (hj : s.jobHolds = false) (hi : s.issueStatus d (.queue q (s.wq d q).head.toNat) false raw = 0) (hk : dKind raw = 0) :
    s.wqTake d q raw = some ((s.wqConsumed d q raw).finish d (.queue q (s.wq d q).head.toNat) raw 0) := by
  have hd : (dAfter raw && !s.wqDrained d q) = false := by cases h : dAfter raw <;> simp_all
  have hf : s.fencedTarget d raw = false := by simp [State.fencedTarget, unitOf_nop hk]
  have hq : s.queueFull d raw = false := by simp [State.queueFull, hk, unitOf_nop hk]
  simp [State.wqTake, hd, hj, hi, hf, hq, State.issueBody, hk, State.wqConsumed]

/-- What the engine takes is the next state of the row. -/
theorem exec_wqEntryIssue_takes {d : DieId} {q : Fin 16} {s s1 u : State} {raw : List Byte} (ha : s.wqActive d q = true)
    (hf : s.wqFetch d q = (.ok (some raw), s1)) (ht : s1.wqTake d q raw = some u) : exec (.wqEntryIssue d q) s = .next u := by
  change execWqEntryIssue d q s = _
  simp [execWqEntryIssue, State.wqTry, ha, hf, ht]

/-- A queue whose head has met its tail has no entry to take. -/
theorem State.wqActive_empty {s : State} {d q : Nat} (h : (s.wq d q).head = (s.wq d q).tail) : s.wqActive d q = false := by
  simp [State.wqActive, h]

/-- The issue row on an inactive queue does nothing. -/
theorem exec_wqEntryIssue_inactive {d : DieId} {q : Fin 16} {s : State} (h : s.wqActive d q = false) :
    exec (.wqEntryIssue d q) s = .next s := by
  change execWqEntryIssue d q s = _
  simp [execWqEntryIssue, State.wqTry, h]

/-- The re-read row on an inactive queue does nothing. -/
theorem exec_wqEntryReread_inactive {d : DieId} {q : Fin 16} {s : State} (h : s.wqActive d q = false) :
    exec (.wqEntryReread d q) s = .next s := by
  change execWqEntryReread d q s = _
  simp [execWqEntryReread, h]

/-- Settles O45: a doorbell's tail against the ring size, and the entries consumed while head differs from tail. -/
theorem doorbellsMoveTheTail : Obligations.DoorbellsMoveTheTail := by
  refine ⟨fun d q tail bar4 s hb hn ht => ?_, fun d q tail bar4 s hb hn ht => ?_,
    fun d q s s1 raw ha hf hd hj hi hk => ?_, fun d q s h => ?_⟩
  · refine ⟨_, exec_wqDoorbell_accepted d q tail bar4 s hb hn ht, ?_⟩
    refine ⟨by simp [Wq.ring], by simp [Wq.ring], by simp [Wq.ring], fun h4 => ?_, fun h3 => ⟨?_, ?_⟩, fun p hp => ?_⟩
    · exact State.wqRefresh_stopped _ _ _ (by simpa [Wq.ring] using h4)
    · simp [Wq.ring, h3]
    · exact State.wqRefresh_not_early _ _ _ (by simp [Wq.ring, h3])
    · rw [State.wq_wqRefresh_other _ _ _ _ hp, State.wq_modWq_other _ _ _ _ _ hp, State.wq_wake]
  · refine ⟨_, exec_wqDoorbell_refused d q tail bar4 s hb hn ht, by simp, fun p hp => ?_⟩
    rw [State.wq_modWq_other _ _ _ _ _ hp, State.wq_wake]
  · refine ⟨_, exec_wqEntryIssue_takes ha hf (s1.wqTake_nop d q raw hd hj hi hk), ?_⟩
    have hs := State.finish_queue_ok_queues (s1.wqConsumed d q raw) d q (s1.wq d q).head.toNat raw
    dsimp only
    rw [State.wq_of_queues hs, State.job_of_queues hs]
    simp [State.wqConsumed]
  · have hi := State.wqActive_empty h
    exact ⟨⟨s, exec_wqEntryIssue_inactive hi, rfl⟩, ⟨s, exec_wqEntryReread_inactive hi, rfl⟩⟩

end Sys2Proof.Machine
end

section
/-! PROOF. The brake power and the power cap (16_power_clocks_thermal, R360). -/
namespace Sys2Proof.Machine

/-! ## Served requests (R331, R342) -/

/-- A response is a notification: the power part stays. -/
@[simp] theorem State.respond_power (s : State) (cmd : Nat) (r : Request) (status : Nat) (p : List Byte) :
    (s.respond cmd r status p).power = s.power := by
  obtain ⟨_, _, _, _, _, _, _, _, _, _, h⟩ := s.respond_notified cmd r status p
  rw [h]

@[simp] theorem State.taken_power (s : State) (cmd : Nat) (r : Request) : (s.taken cmd r).power = s.power := rfl

/-- A served request leaves the waiting ones, and its command's effect follows. -/
theorem Served.serve_eq {s : State} {cmd : Nat} {r : Request} (h : Served s cmd r) (f : State → State) :
    s.serve cmd r f = f (s.taken cmd r) := by
  obtain ⟨ht, i, hi, hp⟩ := h
  have hp' : (s.taken cmd r).pilotRefuses cmd i = false := hp
  simp only [State.taken] at hp' ⊢
  simp [State.serve, ht, hi, hp']

/-- A served request whose command answers at once. -/
theorem Served.serveNow_eq {s : State} {cmd : Nat} {r : Request} (h : Served s cmd r) (f : State → State × Nat × List Byte) :
    s.serveNow cmd r f = (f (s.taken cmd r)).1.respond cmd r (f (s.taken cmd r)).2.1 (f (s.taken cmd r)).2.2 := h.serve_eq _

/-! ## Brake power (R360) -/

/-- The brake power of R360 in whole watts, without the rounding of a division. -/
theorem Power.le_pb_iff (w : Power) (n : Nat) : n ≤ w.pb ↔ 100 * n ≤ w.cap * w.level ∨ n ≤ 1000 := by
  have hdiv : n ≤ w.cap * w.level / 100 ↔ 100 * n ≤ w.cap * w.level := by
    rw [Nat.le_div_iff_mul_le (by decide), Nat.mul_comm n]
  rw [← hdiv]
  unfold Power.pb
  omega

/-! ## PWR_CAP (R359, R360) -/

@[simp] theorem State.brakeReset_cap (s : State) : s.brakeReset.power.cap = s.power.cap := by
  unfold State.brakeReset
  split <;> rfl

@[simp] theorem State.brakeReset_level (s : State) : s.brakeReset.power.level = s.power.level := by
  unfold State.brakeReset
  split <;> rfl

/-- A cap that PWR_CAP refuses (Table 15-6): neither 0 nor in the range of R359. -/
def badCap (cap : Nat) : Prop := cap ≠ 0 ∧ (cap < 1200 ∨ 3400 < cap)

/-- A brake level that PWR_CAP refuses (Table 15-6): neither 0 nor in the range of R360. -/
def badLevel (level : Nat) : Prop := level ≠ 0 ∧ (level < 10 ∨ 100 < level)

/-- A value out of range changes nothing and answers YST_ARG. -/
theorem State.pwrCap_refused (s : State) {r : Request} (h : badCap (r.field 0 2) ∨ badLevel (r.field 2 1)) :
    s.pwrCap r = (s, 6, []) := if_pos h

/-- Values in range: each field that is not 0 is set. -/
theorem State.pwrCap_accepted (s : State) {r : Request} (hc : ¬ badCap (r.field 0 2)) (hl : ¬ badLevel (r.field 2 1)) :
    (s.pwrCap r).1.power.cap = (if r.field 0 2 = 0 then s.power.cap else r.field 0 2) ∧
      (s.pwrCap r).1.power.level = (if r.field 2 1 = 0 then s.power.level else r.field 2 1) := by
  have h : ¬ (badCap (r.field 0 2) ∨ badLevel (r.field 2 1)) := not_or.mpr ⟨hc, hl⟩
  simp only [badCap, badLevel] at h
  simp [State.pwrCap, h]

/-- PWR_CAP has its turn: the request is taken, its effect applied and answered. -/
theorem exec_pwrCap_served {s : State} {r : Request} (h : Served s 0x0401 r) :
    exec (.pwrCap r) s = .next (((s.taken 0x0401 r).pwrCap r).1.respond 0x0401 r ((s.taken 0x0401 r).pwrCap r).2.1
      ((s.taken 0x0401 r).pwrCap r).2.2) := congrArg Host.Outcome.next (h.serveNow_eq _)

/-- Settles O25: PB by R360, its level at delivery, and the level under PWR_CAP, set or refused. -/
theorem brakePowerFollowsCapAndLevel : Obligations.BrakePowerFollowsCapAndLevel := by
  refine ⟨Power.le_pb_iff, rfl, fun r s hs hc hc' hl hl' => ?_, fun r s hs hl => ?_⟩
  · have hcap : ¬ badCap (r.field 0 2) := fun h => by simp only [badCap, Request.field] at h; omega
    have hlevel : ¬ badLevel (r.field 2 1) := fun h => by simp only [badLevel, Request.field] at h; omega
    obtain ⟨hcapSet, hlevelSet⟩ := (s.taken 0x0401 r).pwrCap_accepted hcap hlevel
    have hc0 : r.field 0 2 ≠ 0 := Nat.ne_of_gt (Nat.lt_of_lt_of_le (by decide) hc)
    have hl0 : r.field 2 1 ≠ 0 := Nat.ne_of_gt (Nat.lt_of_lt_of_le (by decide) hl)
    rw [if_neg hc0] at hcapSet
    rw [if_neg hl0] at hlevelSet
    refine ⟨_, exec_pwrCap_served hs, ?_, fun n => ?_⟩
    · rw [State.respond_power, hlevelSet, Request.field]
    · rw [State.respond_power, Power.le_pb_iff, hcapSet, hlevelSet, Request.field, Request.field]
  · have hbad : badLevel (r.field 2 1) := by simp only [badLevel, Request.field]; omega
    refine ⟨_, exec_pwrCap_served hs, ?_⟩
    simp [State.pwrCap_refused _ (.inr hbad)]

end Sys2Proof.Machine
end
